-- ==== Sys2Proof/Word.lean ====
section
/-! DEFINITION. The word types of the machine and their plainest arithmetic (R4, R9, R14, R255). -/

-- In the package as one text, proofs are elaborated one after another, which keeps it within memory.
set_option Elab.async false

namespace Sys2Proof

/-- A 64-bit scalar register, address or header (R255). -/
abbrev Word := BitVec 64
/-- A byte of memory. -/
abbrev Byte := BitVec 8
/-- A 32-bit tile lane, FP32 pattern or instruction word (R182, R255). -/
abbrev Lane := BitVec 32
/-- A core named in the header form of bits [51:32]: core [19:15], y [14:10], x [9:5], die [4:0] (R14, R15, R36).
A cluster or slice is the same tuple with the core field zero. -/
abbrev CoreId := BitVec 20
/-- A hardware context number 0-3 (R28). -/
abbrev CtxId := BitVec 2

/-- The `n` bits of `w` from bit `lo` upward. -/
def fld (w lo n : Nat) : Nat := w / 2 ^ lo % 2 ^ n

end Sys2Proof
end

