-- ==== Sys2Proof/Config.lean ====
section
/-! DEFINITION. What the manual leaves open and one device decides. Every constant here has no body: nothing can be
proved about its value, so a claim holds whatever it is (log entries 1 to 6 and 11). -/
namespace Sys2Proof.Config

/-- A 64-bit value the manual leaves open, one for each number it is drawn at (log entry 1). -/
opaque freeWord : Nat → BitVec 64
/-- The core cycles that pass at a step beyond the first one; the manual fixes no count per instruction (log entry 2). -/
opaque freeCycles : Nat → Nat
/-- The heat counter of a slice at one moment: the manual names it and gives no figure (R26, R126; log entry 3). -/
opaque heat : Nat → BitVec 20 → Nat
/-- A byte of an attestation measurement or signature (R252; log entry 4). -/
opaque attestByte : Nat → Nat → BitVec 8
/-- Whether a parlour private check (firmware signature, self-test) passes (R248, R237; log entry 5). -/
opaque selfTest : Nat → BitVec 20 → Bool
/-- Whether a copied byte whose source the same command has already written takes its earlier value (R312; log entry 6). -/
opaque copyBefore : Nat → Nat → Bool
/-- The whole microseconds that pass between two steps; the manual ties no duration to a count of steps (R82, R130; log entry 11). -/
opaque micros : Nat → Nat → Nat

end Sys2Proof.Config
end

