-- ==== Sys2Proof/Syntax.lean ====
section
/-! DEFINITION. The syntax of the machine: one constructor for each row of the table of operations and events. The first
176 rows are the instruction words of R264 to R266, with their operand fields as encoded; the rest are the
events that R11 to R384 describe, with what names the unit or input each one is about; the arrival of a packet is about the
packet that the turn names. The constructors with fields stand first. -/
namespace Sys2Proof

/-- Where an uncorrectable storage error strikes (R234, R236, R240). -/
inductive ErrPlace where
  | hbm (pa : Nat)
  | slice (sid : CoreId) (pa : Nat)
  | l1 (core : CoreId) (pa : Nat)
  | localMem (core : CoreId) (off : Nat)
  | register (core : CoreId) (ctx : CtxId)
  | tile (core : CoreId) (ctx : CtxId) (tile : BitVec 3)
  | latch (core : CoreId) (latch : BitVec 1)
  | instrLine (core : CoreId) (pa : Nat)
  | control (core : CoreId)
  | sliceControl (sid : CoreId)
  deriving DecidableEq, Repr

/-- Where a storage error has been corrected (R234, R239): in a line that a slice holds, or in some other array of a die. -/
inductive EccPlace where
  | die (die : Nat)
  | slice (sid : CoreId) (pa : Nat)
  deriving DecidableEq, Repr

/-- How a command of the matrix engine ends: on its load path or not (R208), and whether it ends faulted (R235). -/
structure MatrixEnd where
  load : Bool
  faulted : Bool
  deriving DecidableEq, Repr

/-- A firmware image as the boot ROM finds it on a drive (R248): whether its digest verifies under the key that it carries, that key's
digest, and its version. -/
structure FirmwareImage where
  verifies : Bool
  key : BitVec 384
  version : Nat
  deriving DecidableEq, Repr

/-- What the boot ROM and the firmware find (R248): the images of the two NVMe drives, and whether the HBM5 microcode verifies. -/
structure BootImages where
  drive0 : Option FirmwareImage
  drive1 : Option FirmwareImage
  microcode : Bool
  deriving DecidableEq, Repr

/-- A write to a register of BAR2 with the host port on which it came (R242, R250). -/
structure PortWrite where
  port : Nat
  value : Word
  deriving DecidableEq, Repr

/-- How a timing replay ends (R235): the replay succeeds, or it fails again in an instruction or in an engine command. -/
inductive ReplayFail where
  | succeeds
  | instr (ctx : CtxId)
  | matrix (ctx : CtxId)
  | vector (ctx : CtxId)
  deriving DecidableEq, Repr

/-- What an outside requester asks of a home: an inbound peer or RDMA operation (R246, R247). A load or an atomic of another module may be an acquire at
sys (R138). -/
inductive PeerOp where
  | read (size : Nat) (acquire : Bool)
  | write (data : List Byte)
  | atomic (aop : BitVec 4) (dword : Bool) (operand compare : Word) (acquire : Bool)
  | aq (op : BitVec 2) (operand : Word)
  | wait (size : Nat) (cmp : BitVec 3) (expected mask : Word)
  | withdraw (size : Nat) (cmp : BitVec 3) (expected mask : Word)
  deriving DecidableEq, Repr

/-- What the skimmer finds in one HBM line (R238). -/
inductive SkimFind where
  | clean | correctable | uncorrectable | tagMismatch | both
  deriving DecidableEq, Repr

/-- The trap causes (R166). -/
inductive Cause where
  | none | illegal | priv | align | pageNp | pageProt | pageRsvd | window | atomicPath | divzero | pipeBroken
  | accOrphan | singular | format | vatShare | engineFault | lgViolation | waitTimeout | uncorrectable | trap
  | breakpoint
  deriving DecidableEq, Repr

/-- Why an instruction fetch fails (R262, R382): the cause, the walk level and the faulting address. -/
structure FetchFault where
  cause : Cause
  level : BitVec 3
  addr : Word
  deriving DecidableEq, Repr

/-- The operations and events of the part (opcode_table.json), one constructor for each row. -/
inductive Instr where
  /-- ADD (R292). Writes g[a] + g[b] modulo 2^64 to g[d]. -/
  | add (d : BitVec 5) (a : BitVec 5) (b : BitVec 5)
  /-- SUB (R292). Writes g[a] - g[b] modulo 2^64 to g[d]. -/
  | sub (d : BitVec 5) (a : BitVec 5) (b : BitVec 5)
  /-- AND (R292). Writes the bitwise AND of g[a] and g[b] to g[d]. -/
  | and (d : BitVec 5) (a : BitVec 5) (b : BitVec 5)
  /-- OR (R292). Writes the bitwise OR of g[a] and g[b] to g[d]. -/
  | or (d : BitVec 5) (a : BitVec 5) (b : BitVec 5)
  /-- XOR (R292). Writes the bitwise XOR of g[a] and g[b] to g[d]. -/
  | xor (d : BitVec 5) (a : BitVec 5) (b : BitVec 5)
  /-- SHL (R292). Shifts g[a] left by g[b][5:0]. -/
  | shl (d : BitVec 5) (a : BitVec 5) (b : BitVec 5)
  /-- SHR (R292). Shifts g[a] right logically by g[b][5:0]. -/
  | shr (d : BitVec 5) (a : BitVec 5) (b : BitVec 5)
  /-- SAR (R292). Shifts g[a] right arithmetically by g[b][5:0]. -/
  | sar (d : BitVec 5) (a : BitVec 5) (b : BitVec 5)
  /-- ROTR (R292). Rotates g[a] right by g[b][5:0]. -/
  | rotr (d : BitVec 5) (a : BitVec 5) (b : BitVec 5)
  /-- SLT (R292). Writes 1 if g[a] < g[b] as signed integers, else 0. -/
  | slt (d : BitVec 5) (a : BitVec 5) (b : BitVec 5)
  /-- SLTU (R292). Writes 1 if g[a] < g[b] as unsigned integers, else 0. -/
  | sltu (d : BitVec 5) (a : BitVec 5) (b : BitVec 5)
  /-- MIN (R292). Writes the signed minimum of g[a] and g[b]. -/
  | min (d : BitVec 5) (a : BitVec 5) (b : BitVec 5)
  /-- MAX (R292). Writes the signed maximum of g[a] and g[b]. -/
  | max (d : BitVec 5) (a : BitVec 5) (b : BitVec 5)
  /-- MINU (R292). Writes the unsigned minimum of g[a] and g[b]. -/
  | minu (d : BitVec 5) (a : BitVec 5) (b : BitVec 5)
  /-- MAXU (R292). Writes the unsigned maximum of g[a] and g[b]. -/
  | maxu (d : BitVec 5) (a : BitVec 5) (b : BitVec 5)
  /-- ADDW (R292). Writes the sign-extended low 32 bits of g[a] + g[b]. -/
  | addw (d : BitVec 5) (a : BitVec 5) (b : BitVec 5)
  /-- SUBW (R292). Writes the sign-extended low 32 bits of g[a] - g[b]. -/
  | subw (d : BitVec 5) (a : BitVec 5) (b : BitVec 5)
  /-- ADDI (R293). Adds a sign-extended 16-bit immediate to g[a]. -/
  | addi (d : BitVec 5) (a : BitVec 5) (i : BitVec 16)
  /-- ANDI (R293). ANDs g[a] with a zero-extended 16-bit immediate. -/
  | andi (d : BitVec 5) (a : BitVec 5) (i : BitVec 16)
  /-- ORI (R293). ORs g[a] with a zero-extended 16-bit immediate. -/
  | ori (d : BitVec 5) (a : BitVec 5) (i : BitVec 16)
  /-- XORI (R293). XORs g[a] with a zero-extended 16-bit immediate. -/
  | xori (d : BitVec 5) (a : BitVec 5) (i : BitVec 16)
  /-- SLTI (R293). Writes 1 if g[a] is less than the sign-extended immediate as signed integers. -/
  | slti (d : BitVec 5) (a : BitVec 5) (i : BitVec 16)
  /-- SLTIU (R293). Writes 1 if g[a] is less than the sign-extended immediate taken as unsigned. -/
  | sltiu (d : BitVec 5) (a : BitVec 5) (i : BitVec 16)
  /-- SHLI (R353). Shifts g[a] left by an immediate amount. -/
  | shli (d : BitVec 5) (a : BitVec 5) (sh : BitVec 6)
  /-- SHRI (R353). Shifts g[a] right logically by an immediate amount. -/
  | shri (d : BitVec 5) (a : BitVec 5) (sh : BitVec 6)
  /-- SARI (R353). Shifts g[a] right arithmetically by an immediate amount. -/
  | sari (d : BitVec 5) (a : BitVec 5) (sh : BitVec 6)
  /-- ROTRI (R353). Rotates g[a] right by an immediate amount. -/
  | rotri (d : BitVec 5) (a : BitVec 5) (sh : BitVec 6)
  /-- LIH (R338). Loads the sign-extended immediate shifted left by 16 into g[d]. -/
  | lih (d : BitVec 5) (i : BitVec 16)
  /-- LIW (R339). Loads a sign-extended 32-bit immediate from word 1 into g[d]. -/
  | liw (d : BitVec 5) (i : BitVec 32)
  /-- MUL (R343). Writes the low 64 bits of the product of g[a] and g[b]. -/
  | mul (d : BitVec 5) (a : BitVec 5) (b : BitVec 5)
  /-- MULH (R343). Writes the high 64 bits of the signed 128-bit product. -/
  | mulh (d : BitVec 5) (a : BitVec 5) (b : BitVec 5)
  /-- MULHU (R343). Writes the high 64 bits of the unsigned 128-bit product. -/
  | mulhu (d : BitVec 5) (a : BitVec 5) (b : BitVec 5)
  /-- DIV (R313). Writes the signed quotient, rounding toward zero, or traps DIVZERO when DZT is set. -/
  | div (d : BitVec 5) (a : BitVec 5) (b : BitVec 5)
  /-- DIVU (R313). Writes the unsigned quotient of g[a] by g[b]. -/
  | divu (d : BitVec 5) (a : BitVec 5) (b : BitVec 5)
  /-- REM (R313). Writes the signed remainder, which takes the dividend's sign. -/
  | rem (d : BitVec 5) (a : BitVec 5) (b : BitVec 5)
  /-- REMU (R313). Writes the unsigned remainder of g[a] by g[b]. -/
  | remu (d : BitVec 5) (a : BitVec 5) (b : BitVec 5)
  /-- CLZ (R305). Counts the leading zero bits of g[a]. -/
  | clz (d : BitVec 5) (a : BitVec 5)
  /-- CTZ (R305). Counts the trailing zero bits of g[a]. -/
  | ctz (d : BitVec 5) (a : BitVec 5)
  /-- POPC (R305). Counts the one bits of g[a]. -/
  | popc (d : BitVec 5) (a : BitVec 5)
  /-- SEXT (R352). Sign-extends the low 8, 16 or 32 bits of g[a]. -/
  | sext (d : BitVec 5) (a : BitVec 5) (w : BitVec 5)
  /-- ZEXT (R352). Zero-extends the low 8, 16 or 32 bits of g[a]. -/
  | zext (d : BitVec 5) (a : BitVec 5) (w : BitVec 5)
  /-- BEXT (R299). Extracts a bit field of g[a] whose position and length g[b] gives. -/
  | bext (d : BitVec 5) (a : BitVec 5) (b : BitVec 5)
  /-- BINS (R299). Inserts the low bits of g[a] into a bit field of g[d]. -/
  | bins (d : BitVec 5) (a : BitVec 5) (b : BitVec 5)
  /-- FADD (R319). Adds two FP32 values with one rounding. -/
  | fadd (d : BitVec 5) (a : BitVec 5) (b : BitVec 5) (r : BitVec 5)
  /-- FSUB (R319). Subtracts two FP32 values with one rounding. -/
  | fsub (d : BitVec 5) (a : BitVec 5) (b : BitVec 5) (r : BitVec 5)
  /-- FMUL (R319). Multiplies two FP32 values with one rounding. -/
  | fmul (d : BitVec 5) (a : BitVec 5) (b : BitVec 5) (r : BitVec 5)
  /-- FDIV (R319). Divides two FP32 values with one rounding. -/
  | fdiv (d : BitVec 5) (a : BitVec 5) (b : BitVec 5) (r : BitVec 5)
  /-- FSQRT (R319). Takes the FP32 square root of g[a]. -/
  | fsqrt (d : BitVec 5) (a : BitVec 5) (r : BitVec 5)
  /-- FMIN (R324). Writes the IEEE minimumNumber of two FP32 values. -/
  | fmin (d : BitVec 5) (a : BitVec 5) (b : BitVec 5)
  /-- FMAX (R324). Writes the IEEE maximumNumber of two FP32 values. -/
  | fmax (d : BitVec 5) (a : BitVec 5) (b : BitVec 5)
  /-- FEQ (R321). Writes 1 when two FP32 values are equal. -/
  | feq (d : BitVec 5) (a : BitVec 5) (b : BitVec 5)
  /-- FLT (R321). Writes 1 when one FP32 value is less than the other. -/
  | flt (d : BitVec 5) (a : BitVec 5) (b : BitVec 5)
  /-- FLE (R321). Writes 1 when one FP32 value is less than or equal to the other. -/
  | fle (d : BitVec 5) (a : BitVec 5) (b : BitVec 5)
  /-- FCVTIF (R320). Converts the int64 in g[a] to FP32. -/
  | fcvtif (d : BitVec 5) (a : BitVec 5) (r : BitVec 5)
  /-- FCVTFI (R320). Converts an FP32 value to int64, saturating at the limits. -/
  | fcvtfi (d : BitVec 5) (a : BitVec 5) (r : BitVec 5)
  /-- FCLASS (R198). Writes the one-hot class of an FP32 value. -/
  | fclass (d : BitVec 5) (a : BitVec 5)
  /-- FFMA (R322). Computes x times y plus z in FP32 with one rounding. -/
  | ffma (d : BitVec 5) (a : BitVec 5) (b : BitVec 5) (c : BitVec 5) (r : BitVec 3)
  /-- BEQ (R298). Branches when g[a] equals g[b]. -/
  | beq (a : BitVec 5) (b : BitVec 5) (o : BitVec 16)
  /-- BNE (R298). Branches when g[a] differs from g[b]. -/
  | bne (a : BitVec 5) (b : BitVec 5) (o : BitVec 16)
  /-- BLT (R298). Branches when g[a] < g[b] as signed integers. -/
  | blt (a : BitVec 5) (b : BitVec 5) (o : BitVec 16)
  /-- BGE (R298). Branches when g[a] >= g[b] as signed integers. -/
  | bge (a : BitVec 5) (b : BitVec 5) (o : BitVec 16)
  /-- BLTU (R298). Branches when g[a] < g[b] as unsigned integers. -/
  | bltu (a : BitVec 5) (b : BitVec 5) (o : BitVec 16)
  /-- BGEU (R298). Branches when g[a] >= g[b] as unsigned integers. -/
  | bgeu (a : BitVec 5) (b : BitVec 5) (o : BitVec 16)
  /-- JMP (R332). Jumps by a signed word offset. -/
  | jmp (o : BitVec 26)
  /-- JAL (R332). Writes the link to g31, then jumps by a signed word offset. -/
  | jal (o : BitVec 26)
  /-- JR (R333). Jumps to the address in g[a]. -/
  | jr (a : BitVec 5)
  /-- JALR (R333). Writes the link to g[d], then jumps to the address read from g[a]. -/
  | jalr (d : BitVec 5) (a : BitVec 5)
  /-- LD (R334). Loads 1 to 8 bytes zero-extended, as a plain, acquire or streaming load. -/
  | ld (d : BitVec 5) (a : BitVec 5) (i : BitVec 10) (sc : BitVec 2) (z : BitVec 2) (o : BitVec 2)
  /-- LDS (R334). Loads 1 to 8 bytes sign-extended, as a plain, acquire or streaming load. -/
  | lds (d : BitVec 5) (a : BitVec 5) (i : BitVec 10) (sc : BitVec 2) (z : BitVec 2) (o : BitVec 2)
  /-- ST (R356). Stores the low bytes of g[s], as a plain, release or streaming store. -/
  | st (v : BitVec 5) (a : BitVec 5) (i : BitVec 10) (sc : BitVec 2) (z : BitVec 2) (o : BitVec 2)
  /-- AMOADD (R294). Atomically adds the operand at the home. -/
  | amoadd (d : BitVec 5) (a : BitVec 5) (b : BitVec 5) (sc : BitVec 2) (z : BitVec 2) (o : BitVec 2)
  /-- AMOSWP (R294). Atomically swaps in the operand at the home. -/
  | amoswp (d : BitVec 5) (a : BitVec 5) (b : BitVec 5) (sc : BitVec 2) (z : BitVec 2) (o : BitVec 2)
  /-- AMOAND (R294). Atomically ANDs the operand at the home. -/
  | amoand (d : BitVec 5) (a : BitVec 5) (b : BitVec 5) (sc : BitVec 2) (z : BitVec 2) (o : BitVec 2)
  /-- AMOOR (R294). Atomically ORs the operand at the home. -/
  | amoor (d : BitVec 5) (a : BitVec 5) (b : BitVec 5) (sc : BitVec 2) (z : BitVec 2) (o : BitVec 2)
  /-- AMOXOR (R294). Atomically XORs the operand at the home. -/
  | amoxor (d : BitVec 5) (a : BitVec 5) (b : BitVec 5) (sc : BitVec 2) (z : BitVec 2) (o : BitVec 2)
  /-- AMOMIN (R294). Atomically keeps the signed minimum at the home. -/
  | amomin (d : BitVec 5) (a : BitVec 5) (b : BitVec 5) (sc : BitVec 2) (z : BitVec 2) (o : BitVec 2)
  /-- AMOMAX (R294). Atomically keeps the signed maximum at the home. -/
  | amomax (d : BitVec 5) (a : BitVec 5) (b : BitVec 5) (sc : BitVec 2) (z : BitVec 2) (o : BitVec 2)
  /-- AMOMINU (R294). Atomically keeps the unsigned minimum at the home. -/
  | amominu (d : BitVec 5) (a : BitVec 5) (b : BitVec 5) (sc : BitVec 2) (z : BitVec 2) (o : BitVec 2)
  /-- AMOMAXU (R294). Atomically keeps the unsigned maximum at the home. -/
  | amomaxu (d : BitVec 5) (a : BitVec 5) (b : BitVec 5) (sc : BitVec 2) (z : BitVec 2) (o : BitVec 2)
  /-- AMOFADD (R294). Atomically adds an FP32 operand at the home, rounding to nearest even. -/
  | amofadd (d : BitVec 5) (a : BitVec 5) (b : BitVec 5) (sc : BitVec 2) (z : BitVec 2) (o : BitVec 2)
  /-- AMOFMIN (R294). Atomically keeps the FP32 minimumNumber at the home. -/
  | amofmin (d : BitVec 5) (a : BitVec 5) (b : BitVec 5) (sc : BitVec 2) (z : BitVec 2) (o : BitVec 2)
  /-- AMOFMAX (R294). Atomically keeps the FP32 maximumNumber at the home. -/
  | amofmax (d : BitVec 5) (a : BitVec 5) (b : BitVec 5) (sc : BitVec 2) (z : BitVec 2) (o : BitVec 2)
  /-- AMOCAS (R294). Atomically compares the old value with g[d] and swaps in g[b] when they are equal. -/
  | amocas (d : BitVec 5) (a : BitVec 5) (b : BitVec 5) (sc : BitVec 2) (z : BitVec 2) (o : BitVec 2)
  /-- FENCE (R139). Orders every earlier access of the context before every later one at one scope, and reports deferred faults. -/
  | fence (e : BitVec 1) (sc : BitVec 2)
  /-- FLUSH (R323). Writes back the dirty bytes of one L1 line. -/
  | flush (a : BitVec 5)
  /-- INVAL (R323). Drops the clean bytes of one L1 line. -/
  | inval (a : BitVec 5)
  /-- PREF (R345). Requests a fill of one L1 line without trapping. -/
  | pref (a : BitVec 5) (w : BitVec 1)
  /-- PIN (R110). Pins local-memory lines for scratchpad use and returns how many are pinned. -/
  | pin (d : BitVec 5) (a : BitVec 5) (b : BitVec 5)
  /-- UNPIN (R364). Releases lines that PIN pinned, after the core's engine commands end. -/
  | unpin (d : BitVec 5) (a : BitVec 5) (b : BitVec 5)
  /-- SFLUSH (R164). Empties the core's steer entries, and with g0 also its vat-record cache and instruction memory. -/
  | sflush (a : BitVec 5)
  /-- WAITA (R375). Waits at the home's wait table until a masked comparison on an address holds. -/
  | waita (d : BitVec 5) (a : BitVec 5) (b : BitVec 5) (c : BitVec 5) (z : BitVec 2) (p : BitVec 3)
  /-- SEND (R350). Makes a message and holds it in the outbox until the next containment point. -/
  | send (a : BitVec 5) (b : BitVec 5)
  /-- MCAST (R340). Makes a message for every other member of a slot's group and holds it in the outbox. -/
  | mcast (a : BitVec 5) (b : BitVec 5) (slot : BitVec 2)
  /-- SPAWN (R354). Contains, then asks a core to start a child, falling back to an inline call. -/
  | spawn (d : BitVec 5) (a : BitVec 5) (b : BitVec 5)
  /-- AQ (R297). Sends an asynchronous doubleword atomic whose answer lands in local memory. -/
  | aq (d : BitVec 5) (a : BitVec 5) (b : BitVec 5)
  /-- LAUNCH (R73). Posts a launch record or completion notices to the home launch unit, held until containment. -/
  | launch (a : BitVec 5) (b : BitVec 5)
  /-- CNTSET (R307). Arms a join counter with a count and a bound task. -/
  | cntset (a : BitVec 5) (b : BitVec 5) (c : BitVec 5)
  /-- CNTADD (R306). Adds a signed amount to a join counter and returns its state. -/
  | cntadd (d : BitVec 5) (a : BitVec 5) (c : BitVec 5)
  /-- CNTWAIT (R308). Waits until a join counter reads zero. -/
  | cntwait (d : BitVec 5) (c : BitVec 5)
  /-- GBAR (R325). Arrives at a group barrier and waits for every member. -/
  | gbar (d : BitVec 5) (slot : BitVec 2)
  /-- GRED (R327). Contributes an operand to a group reduction and receives the result. -/
  | gred (d : BitVec 5) (a : BitVec 5) (op : BitVec 3) (slot : BitVec 2)
  /-- QWAIT (R346). The consumer waits until a pipe holds n filled slots. -/
  | qwait (q : BitVec 3) (a : BitVec 5) (d : BitVec 5) (i : BitVec 10)
  /-- QFREE (R346). The producer waits until it holds n credits. -/
  | qfree (q : BitVec 3) (a : BitVec 5) (d : BitVec 5) (i : BitVec 10)
  /-- QADV (R346). Advances a pipe end by n slots, as a release. -/
  | qadv (q : BitVec 3) (a : BitVec 5) (i : BitVec 10)
  /-- QSTAT (R68). Reads the state word of a pipe end. -/
  | qstat (q : BitVec 3) (d : BitVec 5)
  /-- QCLOSE (R64). Closes a pipe end normally. -/
  | qclose (q : BitVec 3)
  /-- TRAP (R302). Raises cause TRAP with a service code and ends the activation. -/
  | trap (n : BitVec 8)
  /-- ERET (R314). Moves the activation to user mode and continues at g[a]. -/
  | eret (a : BitVec 5)
  /-- RDSR (R348). Reads a special register into g[d]. -/
  | rdsr (d : BitVec 5) (n : BitVec 8)
  /-- WRSR (R377). Writes g[a] to a special register. -/
  | wrsr (a : BitVec 5) (n : BitVec 8)
  /-- BRK (R302). Raises cause BREAKPOINT with a code and ends the activation. -/
  | brk (n : BitVec 8)
  /-- SHOOT (R162). Removes the tenant's translations for one range from every cache. -/
  | shoot (d : BitVec 5) (a : BitVec 5) (z : BitVec 2)
  /-- SHOOT_ALL (R162). Removes every translation of the tenant from every cache. -/
  | shootAll (d : BitVec 5) (z : BitVec 2)
  /-- VATCFG_DEFINE (R127). Defines a vat from a request block. -/
  | vatcfgDefine (d : BitVec 5) (a : BitVec 5)
  /-- VATCFG_RESIZE (R128). Starts a live resize of a vat to a new share list. -/
  | vatcfgResize (d : BitVec 5) (a : BitVec 5)
  /-- VATCFG_RETIRE (R127). Starts the retirement of a vat. -/
  | vatcfgRetire (d : BitVec 5) (a : BitVec 5)
  /-- LGBIND_BIND (R220). Binds a worker core to a lifeguard core. -/
  | lgbindBind (d : BitVec 5) (a : BitVec 5)
  /-- LGBIND_UNBIND (R220). Removes the binding of a worker core. -/
  | lgbindUnbind (d : BitVec 5) (a : BitVec 5)
  /-- GRPCFG (R330). Binds or unbinds a group on membership slot 2 or 3. -/
  | grpcfg (d : BitVec 5) (a : BitVec 5) (slot : BitVec 2)
  /-- RESUME (R172). Makes a parked context ready, either retrying or skipping its trapping instruction. -/
  | resume (d : BitVec 5) (a : BitVec 5) (k : BitVec 1)
  /-- LGNEXT (R226). Delivers the next log record to the reader and jumps to its type's handler. -/
  | lgnext (d : BitVec 5)
  /-- LGVERD (R227). Sends a pass or fail verdict on a sequence number to the worker. -/
  | lgverd (d : BitVec 5) (a : BitVec 5) (b : BitVec 5)
  /-- LGSTAT (R228). Reads a word of the core's binding state. -/
  | lgstat (d : BitVec 5) (n : BitVec 5)
  /-- TLD (R362). Fills tile rows from memory, converting by format when asked. -/
  | tld (t : BitVec 3) (r : BitVec 4) (a : BitVec 5) (i : BitVec 10) (c : BitVec 3)
  /-- TLD_PIPE (R67). Fills tile rows from the current slot of a pipe handle. -/
  | tldPipe (t : BitVec 3) (r : BitVec 4) (q : BitVec 3) (i : BitVec 10)
  /-- TST (R362). Writes tile rows to memory, converting by format when asked. -/
  | tst (t : BitVec 3) (r : BitVec 4) (a : BitVec 5) (i : BitVec 10) (c : BitVec 3)
  /-- TST_PIPE (R67). Writes tile rows into the current slot of a pipe handle. -/
  | tstPipe (t : BitVec 3) (r : BitVec 4) (q : BitVec 3) (i : BitVec 10)
  /-- VADD (R366). Adds FP32 tile lanes. -/
  | vadd (d : BitVec 3) (a : BitVec 3) (b : BitVec 3) (r : BitVec 4) (m : BitVec 2)
  /-- VSUB (R366). Subtracts FP32 tile lanes. -/
  | vsub (d : BitVec 3) (a : BitVec 3) (b : BitVec 3) (r : BitVec 4) (m : BitVec 2)
  /-- VMUL (R366). Multiplies FP32 tile lanes. -/
  | vmul (d : BitVec 3) (a : BitVec 3) (b : BitVec 3) (r : BitVec 4) (m : BitVec 2)
  /-- VFMA (R366). Adds the product of two FP32 tile lanes into the destination with one rounding. -/
  | vfma (d : BitVec 3) (a : BitVec 3) (b : BitVec 3) (r : BitVec 4) (m : BitVec 2)
  /-- VMIN (R366). Takes the minimumNumber of FP32 tile lanes. -/
  | vmin (d : BitVec 3) (a : BitVec 3) (b : BitVec 3) (r : BitVec 4) (m : BitVec 2)
  /-- VMAX (R366). Takes the maximumNumber of FP32 tile lanes. -/
  | vmax (d : BitVec 3) (a : BitVec 3) (b : BitVec 3) (r : BitVec 4) (m : BitVec 2)
  /-- VABS (R365). Clears the sign of FP32 tile lanes. -/
  | vabs (d : BitVec 3) (a : BitVec 3) (r : BitVec 4) (m : BitVec 2)
  /-- VNEG (R365). Inverts the sign of FP32 tile lanes. -/
  | vneg (d : BitVec 3) (a : BitVec 3) (r : BitVec 4) (m : BitVec 2)
  /-- VDIV (R366). Divides FP32 tile lanes. -/
  | vdiv (d : BitVec 3) (a : BitVec 3) (b : BitVec 3) (r : BitVec 4) (m : BitVec 2)
  /-- VRSQRT (R365). Computes the correctly rounded reciprocal square root of tile lanes. -/
  | vrsqrt (d : BitVec 3) (a : BitVec 3) (r : BitVec 4) (m : BitVec 2)
  /-- VEXP2 (R365). Computes the correctly rounded 2^x of tile lanes. -/
  | vexp2 (d : BitVec 3) (a : BitVec 3) (r : BitVec 4) (m : BitVec 2)
  /-- VLOG2 (R365). Computes the correctly rounded log2 of tile lanes. -/
  | vlog2 (d : BitVec 3) (a : BitVec 3) (r : BitVec 4) (m : BitVec 2)
  /-- VCMP (R368). Compares FP32 tile lanes and writes a mask register. -/
  | vcmp (a : BitVec 3) (b : BitVec 3) (r : BitVec 4) (m : BitVec 2) (k : BitVec 2) (c : BitVec 3)
  /-- VSEL (R373). Selects tile lanes from two sources by a mask. -/
  | vsel (d : BitVec 3) (a : BitVec 3) (b : BitVec 3) (r : BitVec 4) (s : BitVec 2)
  /-- VREDSUM (R372). Sums the lanes of a row over a fixed tree into lane 0. -/
  | vredsum (d : BitVec 3) (a : BitVec 3) (r : BitVec 4) (m : BitVec 2)
  /-- VREDMAX (R372). Takes the maximum of a row's lanes over a fixed tree into lane 0. -/
  | vredmax (d : BitVec 3) (a : BitVec 3) (r : BitVec 4) (m : BitVec 2)
  /-- VSHUF (R374). Permutes the lanes of a row by indices. -/
  | vshuf (d : BitVec 3) (a : BitVec 3) (b : BitVec 3) (r : BitVec 4) (m : BitVec 2)
  /-- VIADD (R371). Adds int32 tile lanes, wrapping. -/
  | viadd (d : BitVec 3) (a : BitVec 3) (b : BitVec 3) (r : BitVec 4) (m : BitVec 2)
  /-- VIMUL (R371). Multiplies int32 tile lanes, keeping the low 32 bits. -/
  | vimul (d : BitVec 3) (a : BitVec 3) (b : BitVec 3) (r : BitVec 4) (m : BitVec 2)
  /-- VLOGIC (R371). Applies a bitwise logic operation to tile lanes. -/
  | vlogic (d : BitVec 3) (a : BitVec 3) (b : BitVec 3) (r : BitVec 4) (m : BitVec 2) (o : BitVec 2)
  /-- VSHIFT (R371). Shifts or rotates 32-bit tile lanes. -/
  | vshift (d : BitVec 3) (a : BitVec 3) (b : BitVec 3) (r : BitVec 4) (m : BitVec 2) (o : BitVec 2)
  /-- VCVT (R369). Converts tile lanes between FP32, int32 and F19. -/
  | vcvt (d : BitVec 3) (a : BitVec 3) (r : BitVec 4) (m : BitVec 2) (k : BitVec 2)
  /-- VENC (R370). Encodes tile lanes into C8, C4 or I8 codes. -/
  | venc (d : BitVec 3) (a : BitVec 3) (r : BitVec 4) (m : BitVec 2) (f : BitVec 5)
  /-- VDEC (R370). Decodes C8, C4 or I8 codes in tile lanes. -/
  | vdec (d : BitVec 3) (a : BitVec 3) (r : BitVec 4) (m : BitVec 2) (f : BitVec 5)
  /-- TMOV (R360). Copies tile lanes. -/
  | tmov (d : BitVec 3) (a : BitVec 3) (r : BitVec 4) (m : BitVec 2)
  /-- TZERO (R360). Zeroes tile rows. -/
  | tzero (d : BitVec 3) (r : BitVec 4)
  /-- TBCAST (R360). Broadcasts the low word of a g register into tile lanes. -/
  | tbcast (d : BitVec 3) (r : BitVec 4) (m : BitVec 2) (s : BitVec 5)
  /-- TEXT (R360). Extracts lane 0 of a tile row into a g register. -/
  | text (a : BitVec 3) (r : BitVec 4) (s : BitVec 5)
  /-- MMA (R203). Multiplies an 8x32 A by the 32x16 B latch into an FP32 tile, one rounding per group. -/
  | mma (t : BitVec 3) (a : BitVec 5) (l : BitVec 1) (z : BitVec 1) (stride : BitVec 16)
  /-- MMAS (R204). Multiplies a 2:4-sparse A by the B latch into an FP32 tile. -/
  | mmas (t : BitVec 3) (a : BitVec 5) (b : BitVec 5) (l : BitVec 1) (z : BitVec 1) (stride : BitVec 16)
  /-- MMAI (R205). Multiplies int8 A by the B latch into an int32 tile. -/
  | mmai (t : BitVec 3) (a : BitVec 5) (l : BitVec 1) (z : BitVec 1) (stride : BitVec 16)
  /-- BLD (R300). Loads a B latch with 32 decoded rows of 16 elements. -/
  | bld (a : BitVec 5) (l : BitVec 1) (stride : BitVec 16)
  /-- BROT (R303). Hands a B latch to the other latch of the ring successor. -/
  | brot (l : BitVec 1) (nf : BitVec 1) (c : BitVec 5)
  /-- TBLLD (R361). Loads the core's 256-entry decode table and its control. -/
  | tblld (a : BitVec 5) (sat : BitVec 1) (nan : BitVec 8)
  /-- NTBLLD (R344). Loads the core's 16-entry integer table. -/
  | ntblld (a : BitVec 5)
  /-- CPY (R310). Queues a contiguous copy on the copy engine. -/
  | cpy (n : BitVec 5) (a : BitVec 5) (b : BitVec 5) (nf : BitVec 1) (len : BitVec 32)
  /-- CPYS (R310). Queues a strided copy on the copy engine. -/
  | cpys (n : BitVec 5) (a : BitVec 5) (b : BitVec 5) (nf : BitVec 1) (rows : BitVec 16) (bytes : BitVec 16)
  /-- CPYG (R310). Queues a gather copy through an index list on the copy engine. -/
  | cpyg (n : BitVec 5) (a : BitVec 5) (b : BitVec 5) (nf : BitVec 1) (lg : BitVec 4) (count : BitVec 28)
  /-- GACC (R212). Adds a Gaussian message in pail layout into a joint tile pair. -/
  | gacc (d : BitVec 3) (r : BitVec 4) (a : BitVec 5)
  /-- GELIM (R213). Marginalises a joint onto a kept block by a Cholesky-based Schur complement. -/
  | gelim (d : BitVec 3) (s : BitVec 3) (r : BitVec 4) (a : BitVec 5)
  /-- GDAMP (R215). Blends a new message into an old one lane by lane by beta. -/
  | gdamp (d : BitVec 3) (s : BitVec 3) (r : BitVec 4) (m : BitVec 2) (a : BitVec 5)
  /-- GPACK (R216). Writes a tile-form message to memory in pail layout. -/
  | gpack (d : BitVec 3) (r : BitVec 4) (a : BitVec 5)
  /-- GUNPK (R216). Reads a pail-layout message into tile form. -/
  | gunpk (d : BitVec 3) (r : BitVec 4) (a : BitVec 5)
  /-- EWAIT (R315). Waits for the activation's engine commands to end, then acquires their writes. -/
  | ewait (e : BitVec 3)
  /-- ESTAT (R316). Reads the state of the activation's engine commands. -/
  | estat (d : BitVec 5) (e : BitVec 3)
  /-- REFUSAL_BACKOFF_EXPIRY (R71). The doubling backoff of a refused message expires and the network interface sends it again. -/
  | refusalBackoffExpiry (core : CoreId) (slot : Nat) (dst : CoreId)
  /-- RELEASE_COMPLETE (R137). A release store's steps finish and its own operation is performed. -/
  | releaseComplete (core : CoreId) (ctx : CtxId)
  /-- LOG_DEFERRED_TRAP_RECORD (R233). A kill's TRAP record is written once it fits under the lag limit. -/
  | logDeferredTrapRecord (core : CoreId)
  /-- WAITLIM_EXPIRY (R69). A wait's elapsed count reaches WAITLIM and the wait times out. -/
  | waitlimExpiry (core : CoreId) (ctx : CtxId)
  /-- IDLE_EXPIRY (R331). 4,096 cycles pass and an IDLE context continues. -/
  | idleExpiry (core : CoreId) (ctx : CtxId)
  /-- DISPATCHER_SCAN (R91). The dispatcher scans its run queues after an event and admits at most one task. -/
  | dispatcherScan (core : CoreId)
  /-- SERVICE_ADMISSION (R49). The service context admits the next reserved-handler task in the order 255, 252, 254, 253. -/
  | serviceAdmission (core : CoreId)
  /-- PAIL_CLEARED (R43). A freed pail finishes clearing and becomes free. -/
  | pailCleared (core : CoreId) (pail : Nat)
  /-- MATRIX_COMMAND_DONE (R208). A matrix or load-path command completes or ends faulted. -/
  | matrixCommandDone (core : CoreId) (ctx : CtxId) (how : MatrixEnd)
  /-- VECTOR_COMMAND_DONE (R358). A vector command completes and ORs its flags into FFLAGS. -/
  | vectorCommandDone (core : CoreId) (ctx : CtxId) (faulted : Bool)
  /-- COPY_COMMAND_DONE (R310). A copy command's writes are performed and its notice is sent. -/
  | copyCommandDone (core : CoreId) (ctx : CtxId)
  /-- COPY_HANDBACK (R173). A copy that meets a fault stops at a hand-back point and queues handler 253. -/
  | copyHandback (core : CoreId) (ctx : CtxId)
  /-- VAT_RESIZE_SWEEP (R128). A slice sweeps an old share and moves lines whose new home is elsewhere. -/
  | vatResizeSweep (tenant : Nat) (vat : Nat) (slice : CoreId)
  /-- DUAL_PROBE (R128). A new home that lacks a line asks the old home during a resize. -/
  | dualProbe (tenant : Nat) (vat : Nat) (pa : Nat)
  /-- LINE_MOVE (R129). A locked line moves to its new home with its stamp and wait entries. -/
  | lineMove (tenant : Nat) (vat : Nat) (pa : Nat)
  /-- VATCFG_COMPLETION (R127). A define, resize or retire finishes and its record write shows completion. -/
  | vatcfgCompletion (tenant : Nat) (vat : Nat)
  /-- SHARE_OFFLINE (R130). A slice takes a failing share offline and serves its lines from HBM. -/
  | shareOffline (tenant : Nat) (vat : Nat) (share : Nat)
  /-- ECC_CORRECTED (R234). A corrected storage error is counted in the health log. -/
  | eccCorrected (place : EccPlace)
  /-- UNCORRECTABLE_ERROR (R234). An uncorrectable storage error poisons the data it holds. -/
  | uncorrectableError (place : ErrPlace)
  /-- TIMING_REPLAY (R235). A late transition is replayed at half clock, and a second failure faults. -/
  | timingReplay (core : CoreId) (again : ReplayFail)
  /-- HEARTBEAT_TIMEOUT (R240). A core silent to the parlour for 1 ms is lost. -/
  | heartbeatTimeout (core : CoreId)
  /-- MEMBER_LOSS (R240). A core is lost, its pipes break and its gang aborts. -/
  | memberLoss (core : CoreId)
  /-- SUSPECT_SELF_TEST (R237). A suspect core serving no gang is self-tested and cleared or marked absent. -/
  | suspectSelfTest (core : CoreId)
  /-- LAUNCH_DOORBELL (R74). A host write to the tenant's launch doorbell posts a record or notices. -/
  | launchDoorbell (tenant : Nat) (value : Word)
  /-- GANG_PLACEMENT (R84). The launch unit places a queued gang when all its members can be resident. -/
  | gangPlacement (tenant : Nat)
  /-- GANG_START (R88). The launch unit loads tables, pins regions, binds pipes and multicasts the start message. -/
  | gangStart (gang : Nat)
  /-- GANG_COMPLETION (R89). When every member is quiet the gang drains, frees its cores and writes DONE. -/
  | gangCompletion (gang : Nat)
  /-- DEADLINE_EXPIRY (R89). A launch's deadline passes, aborting the gang or removing the waiting record. -/
  | deadlineExpiry (tenant : Nat) (rec : Nat)
  /-- PREEMPT_STARVATION (R92). A higher-priority record unplaceable for 50 us pre-empts the chosen gang. -/
  | preemptStarvation (tenant : Nat)
  /-- PREEMPT_BUDGET_EXPIRY (R93). The pre-emption budget expires and the remaining activations are saved. -/
  | preemptBudgetExpiry (gang : Nat)
  /-- MEMBER_SAVE (R177). A member core drains its answers and writes its image to its save block. -/
  | memberSave (core : CoreId)
  /-- GANG_RESTORE (R181). A saved gang is placed on new cores and resumed from its blocks. -/
  | gangRestore (gang : Nat)
  /-- FAULT_RECORD (R170). The home launch unit writes a numbered fault record to the tenant's queue. -/
  | faultRecord (tenant : Nat)
  /-- HOST_WINDOW_READ (R243). A host read of the memory window is translated and performed at its home. -/
  | hostWindowRead (bar : Nat) (off : Nat) (size : Nat)
  /-- HOST_WINDOW_WRITE (R243). A host write to the memory window is translated and performed at its home. -/
  | hostWindowWrite (bar : Nat) (off : Nat) (data : List Byte)
  /-- HOST_WRITE_FLUSH_COMPLETE (R245). The zero-length read after a host-memory write completes and the write counts as performed. -/
  | hostWriteFlushComplete (port : Nat)
  /-- HOST_LINK_DOWN (R245). A link going down acknowledges and discards outstanding writes and poisons reads. -/
  | hostLinkDown (port : Nat)
  /-- BLULIN_INBOUND_REQUEST (R246). A peer request is checked against the grant list and performed at the tenant's home. -/
  | blulinInboundRequest (src : Nat) (srcTenant : Nat) (tenant : Nat) (op : PeerOp) (pa : Nat)
  /-- BLULIN_PEER_TIMEOUT (R246). A peer silent for 1 ms is treated as a link down. -/
  | blulinPeerTimeout (port : Nat)
  /-- QP_TAIL_POLL (R247). The Ethernet controller reads a queue pair's send-ring tail as an acquire. -/
  | qpTailPoll (qp : Nat)
  /-- QP_WORK_COMPLETION (R247). A work request finishes and a completion entry is written with a release. -/
  | qpWorkCompletion (qp : Nat) (status : Nat)
  /-- RDMA_INBOUND (R247). An inbound RDMA operation reaches a registered region through the owner's tables. -/
  | rdmaInbound (rkey : Nat) (op : PeerOp) (va : Word)
  /-- MODULE_BRING_UP (R248). The parlour verifies firmware, trains HBM, self-tests cores and enters READY. -/
  | moduleBringUp (images : BootImages) (absent : List CoreId)
  /-- PCIE_CONFIG_REQUEST (R248). A configuration request before READY gets Configuration Request Retry Status. -/
  | pcieConfigRequest (port : Nat)
  /-- REGISTER_WRITE (R250). A host write to a management register without behaviour of its own stores the value. -/
  | registerWrite (off : Nat) (value : Word)
  /-- POWER_STEP_ADJUST (R253). Each millisecond the parlour moves a die's clock by at most one step to keep power under its cap. -/
  | powerStepAdjust (die : Nat) (meas : BitVec 16)
  /-- SKIMMER_LINE_READ (R238). The skimmer reads an HBM line, rewrites correctable errors and checks integrity tags. -/
  | skimmerLineRead (pa : Nat) (found : SkimFind)
  /-- ILLEGAL_ENCODING (R267). Issuing a word with a reserved major, an unassigned code, a forbidden field value or the all-zero word raises ILLEGAL precisely. -/
  | illegalEncoding (w0 : BitVec 32)
  /-- INSTRUCTION_FETCH_FAULT (R262). A fetch from a misaligned PC, a fabric-window PC or a faulting or poisoned page traps at the target before any instruction is decoded. -/
  | instructionFetchFault (f : FetchFault)
  /-- HOST_READ_COMPLETION (R245). A PCIe completion for a core's read of host memory arrives, returning its data, or poison when it carries an error status. -/
  | hostReadCompletion (error : Bool)
  /-- COMMAND_DOORBELL (R249). A write to the management command doorbell is discarded while a command runs, and a block with an unassigned code completes with status 4. -/
  | commandDoorbell (write : PortWrite)
  /-- ARP_NEIGHBOUR_DISCOVERY (R251). An Ethernet port answers ARP and neighbour-discovery frames for a queue pair's source GID and resolves destination MACs. -/
  | arpNeighbourDiscovery (qp : Nat) (mac : BitVec 48)
  /-- EXIT (R318). Reaches a containment point and ends the activation cleanly when containment succeeds. -/
  | exit
  /-- CONTAIN (R309). Reaches a containment point and releases held messages after a good verdict. -/
  | contain
  /-- YIELD (R378). Gives up the issue slot until the other ready contexts have each issued. -/
  | yield
  /-- IDLE (R331). Holds the context until a core event or 4,096 cycles pass. -/
  | idle
  /-- HANDLER_MESSAGE (R43). An arriving handler message takes the lowest free pail and queues its task, or is refused or discarded. -/
  | handlerMessage
  /-- DEPOSIT_MESSAGE (R39). An arriving deposit writes its payload into local memory and then acts on a counter. -/
  | depositMessage
  /-- MESSAGE_ACCEPTANCE (R56). The destination's acceptance frees the sender's outbox entry and may wake a waiting context. -/
  | messageAcceptance
  /-- MESSAGE_REFUSAL (R77). A refusal returns to the sender, which keeps the message for a retry. -/
  | messageRefusal
  /-- SPAWN_REQUEST (R355). A SPAWN request at the target is accepted into a free ordinary context or refused. -/
  | spawnRequest
  /-- SPAWN_ANSWER (R354). The target's answer completes SPAWN remotely or turns it into an inline call. -/
  | spawnAnswer
  /-- AQ_REQUEST (R297). An AQ atomic is performed at its home and its answer is sent back. -/
  | aqRequest
  /-- AQ_ANSWER (R61). An AQ answer is written at the issuing core's offset and may decrement a counter. -/
  | aqAnswer
  /-- COPY_NOTICE (R311). A copy notice acts on a counter as a zero-length deposit does. -/
  | copyNotice
  /-- LATCH_ARRIVAL (R207). An arriving BROT latch is written as one unit and may act on a counter. -/
  | latchArrival
  /-- WINDOW_ACCESS (R104). The owning core checks and performs a window access from another core, or refuses it. -/
  | windowAccess
  /-- ATOMIC_AT_HOME (R294). An atomic request is performed at its home as one read-modify-write. -/
  | atomicAtHome
  /-- WRITE_AT_HOME (R121). A write-back or streaming store is performed at the home slice under the vat's write policy. -/
  | writeAtHome
  /-- LINE_FILL (R108). A line fetched from its home fills L1 around its dirty bytes. -/
  | lineFill
  /-- WRITE_ACKNOWLEDGEMENT (R134). A home's acknowledgement decrements the outstanding-write counter of its scope. -/
  | writeAcknowledgement
  /-- STAMP_DRAIN (R147). A drain request makes the releaser's core write back and empty its counters at a wider scope, then reply. -/
  | stampDrain
  /-- LIFEGUARD_VERDICT (R229). A verdict reaches the worker and passes its containment or kills the activation. -/
  | lifeguardVerdict
  /-- PIPE_FAR_END_UPDATE (R346). A fill or credit change from the far end of a pipe reaches this end. -/
  | pipeFarEndUpdate
  /-- PIPE_DEPARTURE (R64). A closing or breaking of the far end reaches a pipe end. -/
  | pipeDeparture
  /-- GROUP_ARRIVAL (R326). An arrival is counted at the group's home slice and passed up the tree. -/
  | groupArrival
  /-- GROUP_EPISODE_COMPLETE (R326). An episode's completion reaches a waiting member, which passes its barrier or reduction. -/
  | groupEpisodeComplete
  /-- TRANSLATION_REQUEST (R161). A steer miss reaches its translation home, which answers from its caches or starts a walk. -/
  | translationRequest
  /-- PAGE_WALK (R156). A walk reads page-table entries at their homes and ends in a leaf or a fault. -/
  | pageWalk
  /-- TRANSLATION_ANSWER (R160). A translation answer reaches the core and is installed in the steer table. -/
  | translationAnswer
  /-- SHOOTDOWN_REQUEST (R151). A shootdown request reaches a core or slice, which drops entries and acknowledges. -/
  | shootdownRequest
  /-- SHOOTDOWN_ACK (R162). A shootdown acknowledgement reaches the issuing core. -/
  | shootdownAck
  /-- LAUNCH_POST (R82). The home launch unit reads and checks a posted record and accepts or rejects it. -/
  | launchPost
  /-- LAUNCH_NOTICE (R83). Notices add to a launch id's count and may move a pending record to the queue. -/
  | launchNotice
  /-- PACKET_ESCAPE (R94). A packet blocked 8,192 mesh cycles moves to its escape channel. -/
  | packetEscape
  /-- PACKET_AGE_SATURATION (R95). A packet's age counter saturates after 4,096 mesh cycles and sets S. -/
  | packetAgeSaturation
  /-- HOST_READ_TIMEOUT (R245). A host-memory read without completion for 50 ms returns poison. -/
  | hostReadTimeout
  /-- CREATE (R251). Creates a tenant with clusters, HBM ranges, keys and vat 0. -/
  | create
  /-- RESET (R252). Kills the tenant's gangs and zeroes its state to the state CREATE leaves. -/
  | reset
  /-- DESTROY (R249). Resets a tenant, then frees its clusters and ranges. -/
  | destroy
  /-- SET_WINDOW (R251). Writes a Blulin window-table entry or grant entry. -/
  | setWindow
  /-- PREEMPT (R282). Pre-empts every matching gang, or none when save blocks are lacking. -/
  | preempt
  /-- KILL (R251). Kills matching gangs with reason 2 and removes matching queued records. -/
  | kill
  /-- SET_CAP (R251). Sets a die's power cap in watts. -/
  | setCap
  /-- ATTEST (R252). Writes a signed report of measurements over a host nonce. -/
  | attest
  /-- CREATE_QP (R251). Creates an RoCEv2 queue pair with its rings. -/
  | createQp
  /-- DESTROY_QP (R251). Destroys a queue pair. -/
  | destroyQp
  /-- REG_REGION (R251). Registers a region for inbound RDMA and returns its rkey. -/
  | regRegion
  /-- DEREG_REGION (R251). Deregisters an RDMA region. -/
  | deregRegion
  /-- READ_LOG (R251). Returns and clears the health counters and skimmer logs. -/
  | readLog
  /-- ADDRESS_WAIT_ENTRY (R375). A WAITA request reaches its home, which tests the value and then records an entry, satisfies the wait at once or answers that the table is full. -/
  | addressWaitEntry
  /-- LOG_READ_POINTER_ADVANCE (R222). The lifeguard's read-pointer advance reaches the worker's log unit, lowering the lag and letting a lag-stalled instruction retire. -/
  | logReadPointerAdvance
  deriving DecidableEq, Repr

end Sys2Proof
end

