-- ==== Sys2Proof/Machine/State.lean ====
section
/-! DEFINITION. The state of one Rostis module as plain data: its cores with their contexts, engines, local memory and
caches; the slices, translation homes and HBM; the tenants with their vats, gangs, groups and queues; the parlour; and the
packets that travel between them. INVENTORY.md lists every field with the rule that names it and its reset value. -/
namespace Sys2Proof.Machine

/-- Bytes by address, in one canonical form: addresses strictly rising, no byte equal to zero listed (`Memory.wf`). An
address that is not listed reads zero (R252, R107; log entry 7). -/
abbrev Memory := List Host.Cell
/-- One row of a tile: 16 lanes (R255). -/
abbrev Row := Vector Lane 16
/-- A tile: 8 rows (R255). -/
abbrev Tile := Vector Row 8
/-- A B latch: 32 rows of 16 F19 containers (R206). -/
abbrev Latch := Vector Row 32

/-- Four counts, one for each scope of R134. -/
structure Counts where
  clu : Nat := 0
  die : Nat := 0
  mod : Nat := 0
  sys : Nat := 0
  deriving DecidableEq, Repr

/-- A scope code: 0 clu, 1 die, 2 mod, 3 sys (R264); the context scope of R10 is `none`. -/
abbrev Scope := BitVec 2

/-! ## One context -/

/-- The states of a context (R30). `running` lasts only inside a step. -/
inductive CtxState where
  | free | ready | running | waiting | parked | saving
  deriving DecidableEq, Repr

/-- What a trap reports (R165). -/
structure TrapInfo where
  cause : Cause
  level : BitVec 3 := 0#3
  fetch : Bool := false
  write : Bool := false
  deferred : Bool := false
  addr : Word := 0#64
  deriving DecidableEq, Repr

/-- The kind of an access (R156). -/
inductive Access where
  | read | write | fetch
  deriving DecidableEq, Repr

/-- Where an activation came from, which decides what a kill does (R45, R55, R236). -/
inductive ActSource where
  | pail (i : Nat)
  | task (handler : BitVec 8) (arg : BitVec 56) (kills : Nat)
  | service
  deriving DecidableEq, Repr

/-- A task of the service queue (R49), with the start registers of its reserved handler and, for handler 253, the
descriptor of R174. -/
structure SvcTask where
  index : BitVec 8
  g3 : Word := 0#64
  g4 : Word := 0#64
  g5 : Word := 0#64
  g6 : Word := 0#64
  cause : Word := 0#64
  desc : List Word := []
  copyCtx : Option CtxId := none
  kills : Nat := 0
  deriving DecidableEq, Repr

/-- The activation that a context holds (R28, R31, R34, R46). `serial` tells one activation of a context from the next. -/
structure Act where
  handler : BitVec 8 := 0#8
  pri : BitVec 2 := 0#2
  source : ActSource := .service
  header : Word := 0#64
  sregs : Nat := 0
  tiles : Nat := 0
  serial : Nat := 0
  entry : Bool := false
  svc : Option SvcTask := none
  /-- A copy command of the activation has read poison (R236). -/
  poisoned : Bool := false
  /-- A store, atomic, AQ, pipe advance or engine command has been performed since the last clean containment (R229). -/
  dirtied : Bool := false
  /-- The ACT record of the activation is in the log, or none is due (R224, R233). -/
  begun : Bool := false
  deriving DecidableEq, Repr

/-- What a waiting context waits for (R30, R69). -/
inductive WaitKind where
  | none
  | translation | fetch | fill | reply | counters | engineQueue | scoreboard | vectorFlags | engines | copyReads
  | counterZero (c : BitVec 5) | pipe (q : BitVec 3) | address | group (slot : BitVec 2) | outbox | verdict (seq : Nat)
  | spawnAnswer | idle | lag | ring | shoot | config | startLag
  deriving DecidableEq, Repr

/-- The memory that a translation reaches (R114, R115). -/
inductive Region where
  | hbm | host | peer
  deriving DecidableEq, Repr

/-- A translated address: the physical address, the leaf's vat and placement, and the kind of memory (R155). -/
structure Xl where
  pa : Nat
  vat : Nat := 0
  pl : BitVec 2 := 0#2
  e : Bool := false
  region : Region := .hbm
  deriving DecidableEq, Repr

/-- A steer entry, or a leaf-cache entry of a translation home (R160, R161). `lg` is the log of the page size. -/
structure PageEntry where
  tenant : Nat
  va : Nat
  lg : Nat
  pa : Nat
  level : BitVec 3
  u : Bool
  w : Bool
  x : Bool
  d : Bool
  e : Bool
  vat : Nat
  pl : BitVec 2
  deriving DecidableEq, Repr

/-- How far the instruction at a context's PC has come: an instruction that waits is issued again from the phase it
reached, with the answers that have arrived for it. -/
structure OpState where
  phase : Nat := 0
  wait : WaitKind := .none
  timed : Bool := false
  elapsed : Word := 0#64
  status : Option Nat := none
  result : Option Word := none
  fault : Option TrapInfo := none
  aux : Nat := 0
  leaf : Option PageEntry := none
  got : List Word := []
  deriving DecidableEq, Repr

/-- A refusal or reduction fault that waits for a FENCE (R103, R141): its cause, its address and, for a refusal, the
scope that covers its destination; `order` is the place of its access in issue order. -/
structure Deferred where
  info : TrapInfo
  scope : Option Scope
  order : Nat := 0
  deriving DecidableEq, Repr

/-- A tile whose last writing command ended faulted (R317). -/
structure Orphan where
  tile : BitVec 3
  engine : BitVec 2
  word0 : Lane
  deriving DecidableEq, Repr

/-- What an address reaches: the issuing core's own local memory, another core's, or paged memory (R101 to R103). -/
inductive Tgt where
  | self (off : Nat)
  | core (c : CoreId) (off : Nat)
  | paged (xl : Xl)
  deriving DecidableEq, Repr

/-- The decode and integer tables of a core as a command finds them at its start (R188). -/
structure Tables where
  dtab : Vector Lane 256
  nanCode : BitVec 8
  sat : Bool
  itab : Vector Byte 16
  deriving DecidableEq, Repr

/-- A matrix or vector command in its context's queue with the register values it captured at issue (R208, R290). -/
structure EngCmd where
  op : Instr
  serial : Nat
  user : Bool
  word0 : Lane
  /-- The PC of its instruction, which a kill for its poison reports (R236). -/
  pc : Word := 0#64
  /-- Its place in the issue order, for its refusals (R103). -/
  order : Nat := 0
  x : Word := 0#64
  y : Word := 0#64
  mask : BitVec 16 := 0xFFFF#16
  frm : BitVec 3 := 0#3
  fmt : Nat := 0
  scaleBase : Word := 0#64
  scaleOrg : Word := 0#64
  /-- The memory that the checks at issue have reached: targets with their lengths, in address order (R362). -/
  chunks : List (Tgt × Nat) := []
  /-- The scale bytes by address (R100). -/
  scales : List (Nat × Tgt) := []
  /-- The tiles of an activation that has ended before the command ran (R318). -/
  kept : Option (Vector Tile 8) := none
  /-- Its engine executes it (R208). -/
  started : Bool := false
  /-- The core's local memory with its poison when the command started, and each later content while a matrix command runs (R145, R202). -/
  seen : List (Memory × List Nat) := []
  /-- The tables at its start (R188). -/
  tables : Option Tables := none
  /-- What its spans and then its scale bytes gave at its start, with poison; none where the owner refused (R100, R145, R363). -/
  input : List (Option (List Byte × Bool)) := []
  /-- The writes that a TST has sent (R363). -/
  sent : List Nat := []
  /-- Those of them that their destination has refused (R363). -/
  refused : List Nat := []
  /-- The priority of its activation, which its packets have (R95). -/
  pri : BitVec 2 := 0#2
  /-- The contexts whose UNPIN waits for it (R364). -/
  awaited : BitVec 4 := 0#4
  deriving DecidableEq, Repr

/-- A line of the L1 data cache: its translation, its distance class, byte masks and bytes
(R108, R109). -/
structure L1Line where
  xl : Xl
  va : Nat
  way : Nat
  cls : Scope
  valid : BitVec 64 := 0#64
  dirty : BitVec 64 := 0#64
  data : Memory := []
  poison : Bool := false
  /-- The bytes that have been stored since the line was poisoned (R234). -/
  since : BitVec 64 := 0#64
  deriving DecidableEq, Repr

/-- What a copy command finds in its core when it starts: local memory with its poison, and the lines of L1 that hold dirty bytes (R145). -/
structure CopySeen where
  mem : Memory := []
  bad : List Nat := []
  lines : List L1Line := []
  deriving DecidableEq, Repr

/-- A copy command (R310), with its progress (R175) and what a fault or poison has made of it (R173, R236). -/
structure CopyCmd where
  op : Instr
  serial : Nat
  handler : BitVec 8 := 0#8
  user : Bool
  src : Word
  dst : Word
  notice : Word := 0#64
  sa : Word := 0#64
  sb : Word := 0#64
  handed : Bool := false
  /-- The copy engine executes it (R312). -/
  started : Bool := false
  /-- What it found when it started (R145). -/
  seen : Option CopySeen := none
  /-- Its activation was killed: it stops at a 64-byte boundary of its progress, without notice (R312). -/
  cancelled : Bool := false
  /-- For a CPYS that a save has suspended: the bytes of its first row that are performed (R177). -/
  done : Nat := 0
  /-- The widest scope of the writes that it has performed (R315). -/
  scope : Option Scope := none
  /-- The contexts whose UNPIN waits for it (R364). -/
  awaited : BitVec 4 := 0#4
  deriving DecidableEq, Repr

/-- A release store that has retired and waits for its release steps (R137). -/
structure RelStore where
  serial : Nat
  scope : Scope
  va : Nat
  size : Nat
  value : Word
  tgt : Tgt
  /-- Its place among the packets of its core, taken when it retired (R103, R137). -/
  place : Nat := 0
  /-- The priority of its activation (R95). -/
  pri : BitVec 2 := 0#2
  deriving DecidableEq, Repr

/-- A hardware context (R28, R31, R255, R259). -/
structure Context where
  st : CtxState := .free
  pc : Word := 0#64
  g : Vector Word 32 := Vector.replicate 32 0#64
  t : Vector Tile 8 := Vector.replicate 8 (Vector.replicate 8 (Vector.replicate 16 0#32))
  m1 : BitVec 16 := 0xFFFF#16
  m2 : BitVec 16 := 0xFFFF#16
  m3 : BitVec 16 := 0xFFFF#16
  fflags : BitVec 5 := 0#5
  frm : BitVec 3 := 0#3
  dzt : Bool := false
  scaleBase : Word := 0#64
  scaleOrg : Word := 0#64
  waitlim : Word := 0x100000000#64
  lgtbase : Word := 0#64
  faultCause : Word := 0#64
  faultAddr : Word := 0#64
  faultPc : Word := 0#64
  sup : Bool := false
  qbound : BitVec 8 := 0#8
  unack : Counts := {}
  act : Act := {}
  wroteG : BitVec 32 := 0#32
  wroteT : BitVec 8 := 0#8
  /-- The tiles that hold poison (R234, R358). -/
  tPoison : BitVec 8 := 0#8
  orphans : List Orphan := []
  mflt : Bool := false
  vflt : Bool := false
  /-- The widest scope of the writes of the activation's completed vector and copy commands (R315). -/
  vScope : Option Scope := none
  cScope : Option Scope := none
  deferred : List Deferred := []
  op : OpState := {}
  yieldOn : BitVec 4 := 0#4
  /-- The bytes of the instruction at the PC: 4 or 8 (R172). -/
  width : Nat := 4
  mq : List EngCmd := []
  vq : List EngCmd := []
  cq : List CopyCmd := []
  rel : List RelStore := []
  deriving DecidableEq, Repr

/-! ## One core -/

/-- A handler-table entry with V = 1 (R47). -/
structure Handler where
  index : BitVec 8
  pc : Word
  pri : BitVec 2
  sregs : Nat
  tiles : Nat
  deriving DecidableEq, Repr

/-- The states of a pail (R43). -/
inductive PailState where
  | free | filling | queued | running | retained | freed
  deriving DecidableEq, Repr

/-- A pail's state and kill count (R43, R237); its bytes lie in local memory (R42). -/
structure Pail where
  st : PailState := .free
  kills : Nat := 0
  start : Bool := false
  deriving DecidableEq, Repr

/-- A join counter, or a pipe's fill count with its reserved and early counts (R52, R66, R380). -/
structure Counter where
  count : Nat := 0
  pipe : Bool := false
  b : Bool := false
  e : Bool := false
  handler : BitVec 8 := 0#8
  arg : BitVec 56 := 0#56
  reserved : Nat := 0
  early : Nat := 0
  deriving DecidableEq, Repr

/-- The place a queued task came from (R46, R178). -/
inductive TaskPlace where
  | pail (i : Nat)
  | counter (c : Nat)
  | context (k : CtxId)
  deriving DecidableEq, Repr

/-- A task of the run queue (R46, R91). -/
structure Task where
  place : TaskPlace
  pri : BitVec 2
  age : Nat := 0
  handler : BitVec 8
  arg : BitVec 56 := 0#56
  kills : Nat := 0
  deriving DecidableEq, Repr

/-- What an outbox entry holds (R55, R60, R73, R340). -/
inductive OutKind where
  | message
  | multicast (slot : BitVec 2)
  | post (va : Word)
  | notice (id count : Nat)
  | spawn (target : CoreId)
  deriving DecidableEq, Repr

/-- A destination that has not accepted a released message: its backoff in mesh cycles, and whether a copy is in
flight (R71, R77). -/
structure OutDest where
  core : CoreId
  backoff : Nat := 16
  inFlight : Bool := true
  deriving DecidableEq, Repr

/-- An outbox entry (R56). -/
structure OutEntry where
  slot : Nat
  ctx : CtxId
  serial : Nat
  kind : OutKind
  hdr : Word
  payload : List Word := []
  released : Bool := false
  sup : Bool := false
  pri : BitVec 2 := 0#2
  /-- The priority of the activation that issued it, which the answers to it have (R95). -/
  actPri : BitVec 2 := 0#2
  dests : List OutDest := []
  deriving DecidableEq, Repr

/-- A pipe end of the member (R62 to R68, R180). -/
structure PipeEnd where
  producer : Bool
  state : Nat := 0
  closedHere : Bool := false
  mode : Nat := 0
  index : Nat
  lsz : Nat
  slots : Nat
  pos : Nat := 0
  credits : Nat := 0
  far : CoreId
  farQ : BitVec 3
  base : Nat
  reserved : Nat := 0
  deriving DecidableEq, Repr

/-- A line of the L1 instruction memory (R262). -/
structure ILine where
  pa : Nat
  data : Memory
  poison : Bool := false
  deriving DecidableEq, Repr

/-- A core (R11): its contexts, tables, mailbox, counters, outbox, local memory, caches and engine state. -/
structure Core where
  gang : Option Nat := none
  sup : Bool := false
  ctx0 : Context := {}
  ctx1 : Context := {}
  ctx2 : Context := {}
  ctx3 : Context := {}
  cur : CtxId := 3#2
  serial : Nat := 1
  htbase : Word := 0#64
  handlers : List Handler := []
  gangReg : Word := 0#64
  grp : Vector Word 4 := Vector.replicate 4 0#64
  ringNext : Word := 0#64
  pails : List Pail := []
  counters : Vector Counter 32 := Vector.replicate 32 {}
  runq : List Task := []
  svcq : List SvcTask := []
  outbox : List OutEntry := []
  tag : BitVec 11 := 1#11
  pipes : Vector (Option PipeEnd) 8 := Vector.replicate 8 none
  background : Counts := {}
  localMem : Memory := []
  localPoison : List Nat := []
  pinLU : BitVec 512 := 0#512
  pinBy : BitVec 512 := 0#512
  ringOff : Nat := 0
  ringLen : Nat := 0
  regionOff : Nat := 0
  regionEnd : Nat := 0
  stackTop : Vector Word 4 := Vector.replicate 4 0#64
  l1 : List L1Line := []
  il1 : List ILine := []
  steer : List PageEntry := []
  vatCache : List Nat := []
  latch0 : Latch := Vector.replicate 32 (Vector.replicate 16 0#32)
  latch1 : Latch := Vector.replicate 32 (Vector.replicate 16 0#32)
  /-- The latches that hold poison (R234). -/
  latchPoison : BitVec 2 := 0#2
  /-- The contexts whose commands the matrix, the vector and the copy engine started last (R208). -/
  mTurn : CtxId := 3#2
  vTurn : CtxId := 3#2
  cTurn : CtxId := 3#2
  dtab : Vector Lane 256 := Vector.replicate 256 0#32
  nanCode : BitVec 8 := 0xFF#8
  sat : Bool := true
  itab : Vector Byte 16 := Vector.replicate 16 0#8
  replays : BitVec 32 := 0#32
  noAdmit : Bool := false
  dropTasks : Bool := false
  scan : Bool := false
  deriving DecidableEq, Repr

/-! ## Slices and translation homes -/

/-- A line held by a slice for a vat (R120 to R123): 2^`lg` bytes at `pa`, in a set of a share. -/
structure SLine where
  tenant : Nat
  vat : Nat
  share : Nat
  /-- The generation of the vat whose share list numbers the share (R128). -/
  gen : BitVec 16 := 0#16
  /-- Its bank and its group of ways (R120, R121). -/
  bank : BitVec 3 := 0#3
  group : Nat := 0
  set : Nat
  pa : Nat
  lg : Nat
  pl : BitVec 2 := 0#2
  e : Bool := false
  data : Memory := []
  dirty : BitVec 256 := 0#256
  poison : BitVec 4 := 0#4
  deriving DecidableEq, Repr

/-- A scope stamp of the sync-line table (R147), on the slice's line of 2^`lg` bytes (R120). -/
structure Stamp where
  tenant : Nat
  xl : Xl
  lg : Nat := 6
  core : CoreId
  scope : Scope
  deriving DecidableEq, Repr

/-- The context that a request belongs to; `serial` is the activation's (R134). `bg` marks a background write. `pri` is the priority of the
activation that issues it, which its packets and their answers have (R95). -/
structure Req where
  core : CoreId
  ctx : CtxId
  serial : Nat
  bg : Bool := false
  pri : BitVec 2 := 0#2
  deriving DecidableEq, Repr

/-- An entry of an address-wait table (R375). -/
structure WaitEntry where
  req : Req
  xl : Xl
  size : Nat
  cmp : BitVec 3
  expected : Word
  mask : Word
  hit : Bool := false
  /-- For an entry from another module (R246): the source module, the tenant there and the tenant here; `req` then names no core. -/
  peer : Option (Nat × Nat × Nat) := none
  deriving DecidableEq, Repr

/-- A bank share (R117). -/
structure Share where
  slice : CoreId
  bank : BitVec 3
  ways : BitVec 16
  deriving DecidableEq, Repr

/-- An LLC slice (R11, R121, R147, R375, R130). -/
structure Slice where
  lines : List SLine := []
  stamps : List Stamp := []
  /-- The stamps that wait for a place in the table, the oldest first (R148). -/
  newStamps : List Stamp := []
  waits : List WaitEntry := []
  offline : List (BitVec 3 × BitVec 16) := []
  /-- The shares that are still to go offline, each with its tenant and vat (R239). -/
  failing : List (Nat × Nat × Share) := []
  /-- The corrected errors in its shares, each with its tenant, vat, share and step (R239). -/
  corrected : List (Nat × Nat × Share × Nat) := []
  deriving DecidableEq, Repr

/-- A walk-cache entry: the next table's address for one prefix (R161, R287). -/
structure WalkEntry where
  tenant : Nat
  level : Nat
  pfx : Nat
  table : Nat
  deriving DecidableEq, Repr

/-- A translation home (R161). -/
structure THome where
  leaves : List PageEntry := []
  walks : List WalkEntry := []
  deriving DecidableEq, Repr

/-! ## Tenants -/

/-- The share list of one generation of a vat (R119, R128). -/
structure VatGen where
  list : Nat := 0
  shares : List Share := []
  named : Option CoreId := none
  gen : BitVec 16 := 0#16
  deriving DecidableEq, Repr

/-- A vat's record (R119); `old` is present during a resize, `swept` lists the slices whose sweep has reported. -/
structure Vat where
  index : Nat
  valid : Bool := false
  lsz : BitVec 2 := 0#2
  wpol : BitVec 2 := 0#2
  dpl : BitVec 2 := 0#2
  dies : BitVec 32 := 0#32
  cur : VatGen := {}
  old : Option VatGen := none
  state : Nat := 0
  defining : Bool := false
  swept : List CoreId := []
  deriving DecidableEq, Repr

/-- A launch record in the launch queue or the pending table, or of a gang (R78, R83, R85): its 16 doublewords, its age, the
step of its acceptance (R82), the step at which its count was reached, 0 before, and its relaunches (R89). -/
structure LaunchRec where
  key : Nat
  va : Word
  dw : List Word
  age : Nat := 0
  accepted : Nat := 0
  reached : Nat := 0
  restarts : Nat := 0
  /-- Whether the poster may post a supervisor image (R258). -/
  supPost : Bool := false
  deriving DecidableEq, Repr

/-- A fault record that the home launch unit has still to write (R170, R383). -/
structure FaultRec where
  cause : Cause
  flags : BitVec 8 := 0#8
  core : CoreId := 0#20
  low8 : BitVec 32 := 0#32
  w10 : Word := 0#64
  w18 : Word := 0#64
  deriving DecidableEq, Repr

/-- A tenant (R24, R251, R252) with its tenant-wide registers, its launch unit's queues and its vats. -/
structure Tenant where
  id : Nat
  key : Nat := 0
  clusters : List CoreId := []
  ranges : List (Nat × Nat) := []
  aperture : Nat := 0
  aport : Nat := 0
  hwbase : Word := 0#64
  ptroot : Word := 0#64
  savebase : Word := 0#64
  faultq : Word := 0#64
  lgtempl : Word := 0#64
  pbudget : Word := 20#64
  vats : List Vat := []
  notices : List (Nat × Nat) := []
  overflow : List Nat := []
  queue : List LaunchRec := []
  pending : List LaunchRec := []
  records : List FaultRec := []
  faultSeq : BitVec 32 := 0#32
  drop : BitVec 16 := 0#16
  windows : List (Nat × Word) := []
  grants : List (Nat × Word) := []
  /-- The step of the tenant's creation (R130). -/
  created : Nat := 0
  deriving DecidableEq, Repr

/-- A group of the group tables, with the arrivals of its open episode (R86, R326): the rank, the request that waits and
its operand. `kind` is `none` between episodes; an episode's kind is 0 for a barrier and 1 + op for GRED. -/
structure Group where
  gang : Nat
  id : Nat
  slot : Nat
  members : List CoreId
  kind : Option Nat := none
  arrivals : List (Nat × Req × Word) := []
  deriving DecidableEq, Repr

/-- What the log unit remembers of a logged record for the report of a violation (R229). -/
structure LogRec where
  seq : Nat
  type : Nat
  pc : Word
  addr : Word
  dirty : Bool
  aq : Bool := false
  ctx : CtxId := 0#2
  serial : Nat := 0
  deriving DecidableEq, Repr

/-- A TRAP record of a killed activation, its ACT record, or the record of an instruction that ends before a save, which the log unit keeps
until it fits (R177, R222, R233): type, body, PC, the activation, and the record's other fields. -/
structure HeldRec where
  type : Nat
  body : List Byte
  pc : Word
  ctx : CtxId := 0#2
  serial : Nat := 0
  dirty : Bool := false
  size : Nat := 0
  addr : Option Word := none
  aq : Bool := false
  deriving DecidableEq, Repr

/-- A lifeguard binding (R219 to R228, R180). `total` counts the bytes of the log, `shown` those whose advance of the write pointer
has been performed as a release (R222); `pass` and `sent` are `none` before the first pass. -/
structure Binding where
  worker : CoreId
  guard : CoreId
  template : Bool := false
  ringOff : Nat
  rsz : Nat
  p : Bool
  d : Bool
  filter : BitVec 16
  lag : Nat
  bufVa : Word := 0#64
  bufLen : Word := 0#64
  bufUsed : Nat := 0
  /-- The position in the stream of records up to which the replay buffer is due (R232). -/
  copyTo : Nat := 0
  segStart : Nat := 0
  ovf : Bool := false
  wp : Nat := 0
  rp : Nat := 0
  rpSeen : Nat := 0
  total : Nat := 0
  shown : Nat := 0
  readTotal : Nat := 0
  seenTotal : Nat := 0
  nextLog : Nat := 1
  nextDel : Nat := 1
  pass : Option Nat := none
  sent : Option Nat := none
  lastDel : Nat := 0
  logBase : Word := 0#64
  readBase : Word := 0#64
  reader : Option (CtxId × Nat) := none
  history : List LogRec := []
  heldTrap : List HeldRec := []
  deriving DecidableEq, Repr

/-- A member of a gang (R86, R177). While it is saved, its state is in its block, and `kept` is what a restore takes from elsewhere
(`Core.keptPart`); `extra` are its acceptance bitmaps: outbox slot and first block. -/
structure Member where
  core : CoreId
  group : Nat
  rank : Nat
  lost : Bool := false
  saved : Bool := false
  block : Nat := 0
  extra : List (Nat × Nat) := []
  kept : Option Core := none
  deriving DecidableEq, Repr

/-- The life of a gang (R84, R88, R89, R93, R282). -/
inductive GangPhase where
  | placed | started | preempting | saving | saved | restoring
  deriving DecidableEq, Repr

/-- A gang (R84 to R89). `abort` is the reason of R49; `started` the step at which it started (R92); `groups` and `bindings`
hold its group tables and template bindings while it is saved (R180, R181). -/
structure Gang where
  key : Nat
  tenant : Nat
  rcd : LaunchRec
  sup : Bool := false
  members : List Member := []
  phase : GangPhase := .placed
  abort : Option Nat := none
  lostCore : CoreId := 0#20
  started : Nat := 0
  groups : List Group := []
  bindings : List Binding := []
  deriving DecidableEq, Repr

/-! ## Packets -/

/-- A window access at its owner (R104). -/
inductive WinOp where
  | load (size : Nat) (sign : Bool)
  | store (size : Nat) (value : Word)
  | atomic (aop : BitVec 4) (dword : Bool) (operand compare : Word) (ret : Bool)
  deriving DecidableEq, Repr

/-- The change that one pipe end sends to the other (R346, R380). -/
inductive PipeMsg where
  | credits (n : Nat) | fill (n : Nat) | reserve (n : Nat)
  deriving DecidableEq, Repr

/-- How an episode ends at one member (R326, R328). -/
inductive GroupEnd where
  | passed (value : Word) | refused | ended
  deriving DecidableEq, Repr

/-- What a translation home answers (R161). -/
inductive XlAnswer where
  | leaf (e : PageEntry)
  | fault (cause : Cause) (level : BitVec 3)
  | poison (level : BitVec 3)
  | nothing
  deriving DecidableEq, Repr

/-- What a packet carries. -/
inductive Body where
  | message (dst src : CoreId) (gang : Nat) (hdr : Word) (payload : List Word) (slot : Nat) (start : Bool)
  | accepted (dst : CoreId) (slot : Nat) (member : CoreId)
  | refused (dst : CoreId) (slot : Nat) (member : CoreId)
  | spawnReq (dst : CoreId) (req : Req) (slot gang : Nat) (hdr : Word) (args : List Word) (sregs tiles : Nat)
  | spawnAns (req : Req) (slot : Nat) (ok : Bool)
  | aqReq (req : Req) (xl : Xl) (va : Nat) (desc operand : Word) (scope : Scope)
  | aqAns (req : Req) (desc value : Word) (poison : Bool) (scope : Scope)
  | notice (dst src : CoreId) (gang : Nat) (value : Word)
  | latch (dst src : CoreId) (gang : Nat) (l : BitVec 1) (data : Latch) (poison n : Bool) (c : BitVec 5)
  | window (dst : CoreId) (req : Req) (off : Nat) (va : Word) (op : WinOp) (scope : Scope)
  | atomic (req : Req) (xl : Xl) (va : Word) (aop : BitVec 4) (dword : Bool) (operand compare : Word) (ret : Bool)
      (stamp acq : Option Scope) (scope : Scope)
  /-- The old value of an acquiring atomic that its home has performed, held there until the releaser's core of the stamp that it met has drained
  to the scope (R71, R147); `due` while it has not, and `n` are the bytes of the value. -/
  | atomicAns (req : Req) (slice : CoreId) (stamp : Stamp) (scope : Scope) (n : Nat) (old : Word) (due : Bool)
  | write (req : Req) (xl : Xl) (va : Nat) (cells : List Host.Cell) (poison : Bool) (stamp : Option Scope) (scope : Scope)
  | forward (req : Req) (xl : Xl) (cells : List Host.Cell) (poison : Bool) (rest : List CoreId) (scope : Scope)
  | fill (req : Req) (xl : Xl) (va : Nat) (stream ifetch : Bool)
  | ack (req : Req) (scope : Scope)
  | drain (dst : CoreId) (slice : CoreId) (pa : Nat) (scope : Scope) (drop : Bool)
  | verdict (worker : CoreId) (seq : Nat) (fail : Option LogRec)
  | readPointer (worker : CoreId) (rp total : Nat)
  | pipe (dst : CoreId) (q : BitVec 3) (gang : Nat) (m : PipeMsg)
  | depart (dst : CoreId) (q : BitVec 3) (gang : Nat) (closed : Bool)
  | arrive (home : CoreId) (gang id rank : Nat) (req : Req) (slot : BitVec 2) (kind : Nat) (operand : Word)
  | episode (req : Req) (slot : BitVec 2) (e : GroupEnd)
  | xlateReq (req : Req) (tenant : Nat) (va : Nat) (k : Access) (user pref once : Bool)
  | walk (req : Req) (tenant : Nat) (va : Nat) (k : Access) (user pref once : Bool)
  | xlateAns (req : Req) (va : Nat) (k : Access) (pref once : Bool) (a : XlAnswer)
  | shootReq (dst : CoreId) (core : Bool) (tenant : Nat) (all : Bool) (va lg : Nat) (issuer : Req)
  | shootAck (issuer : Req)
  | waitReq (e : WaitEntry)
  | post (tenant : Nat) (va : Word) (sup : Bool) (src : Option (CoreId × Nat))
  | notices (tenant id count : Nat) (src : Option (CoreId × Nat))
  | hostRead (req : Req) (bus size : Nat)
  deriving DecidableEq, Repr

/-- A packet in the mesh (R94, R95): its virtual network (0 request, 1 response, 2 message), priority class, age, the flag S,
whether it is on the escape channel, and the mesh cycles that it has waited, in all and at the head of its present router. `acquired` is the widest scope at which
the context of a prefetch has acquired since it issued it (R345). -/
structure Packet where
  id : Nat
  vnet : BitVec 2
  pri : BitVec 2 := 0#2
  age : BitVec 8 := 0#8
  s : Bool := false
  escape : Bool := false
  waited : Nat := 0
  blocked : Nat := 0
  acquired : Option Scope := none
  body : Body
  deriving DecidableEq, Repr

/-! ## The parlour -/

/-- A queue pair (R247, R251). -/
structure QueuePair where
  num : Nat
  tenant : Nat
  sendVa : Word
  sendLen : Nat
  compLen : Nat
  compVa : Word
  tailVa : Word
  port : Nat
  mtu : Nat
  dest : Nat
  sendPsn : Nat
  recvPsn : Nat
  dgid : List Byte
  sgid : List Byte
  headVa : Word
  tail : Word := 0#64
  next : Nat := 0
  comp : Nat := 0
  /-- A completion entry that waits for the flush of what its local side has posted: its work-request id, status and length (R247). -/
  side : Option (Word × Nat × Nat) := none
  mac : Option (BitVec 48) := none
  deriving DecidableEq, Repr

/-- A registered region (R247, R251). -/
structure RegRegion where
  rkey : Nat
  tenant : Nat
  va : Word
  len : Word
  flags : BitVec 3
  deriving DecidableEq, Repr

/-- A write that a host port has posted (R245): its bytes by bus address while they have not reached host memory, whom its flush
acknowledges, and whether the port's outstanding zero-length read was issued after it. -/
structure Posted where
  port : Nat
  cells : List Host.Cell := []
  ack : Option (Req × Scope) := none
  asked : Bool := false
  /-- The queue pair whose local side has posted it (R247). -/
  qp : Option Nat := none
  deriving DecidableEq, Repr

/-- The parlour and the edges (R242 to R254). `busy` is the command that runs. -/
structure Parlour where
  state : Nat := 0
  present : BitVec 20 := 0#20
  block : Vector Word 8 := Vector.replicate 8 0#64
  status : Word := 0#64
  busy : Option Nat := none
  /-- The command block as the doorbell found it. -/
  running : Vector Word 8 := Vector.replicate 8 0#64
  diePower : Vector Word 32 := Vector.replicate 32 (0x032C000000000000#64)
  health : Vector Word 100 := Vector.replicate 100 0#64
  skimmer : List (Nat × Word) := []
  absent : List CoreId := []
  suspect : List CoreId := []
  silent : List CoreId := []
  lostClusters : List CoreId := []
  poisonedPages : List Nat := []
  qps : List QueuePair := []
  regions : List RegRegion := []
  nextRkey : Nat := 1
  linkDown : List Nat := []
  /-- The posted writes of the host ports that are not flushed yet, the oldest first (R245). -/
  posted : List Posted := []
  /-- The digest of the firmware key and the rollback counter that are fused into the part (R248). -/
  fusedKey : BitVec 384 := 0#384
  rollback : Nat := 0
  /-- When the firmware was measured (R248, R252). -/
  measured : Nat := 0
  /-- The host port on which the running command's doorbell came, and its parameter area as it was read then (R250). -/
  port : Nat := 0
  area : Memory := []
  /-- The completion of the last host read: status 0 with its bytes, 1 Unsupported Request, 4 Completer Abort (R243). -/
  hostReply : Option (Nat × List Byte) := none
  /-- The answer to the last inbound peer or RDMA request: 0 with its bytes, 1 where it was refused, 2 where the wait table is full, 3 for poison (R246, R247,
  R375); an address wait that is recorded has none yet. -/
  peerReply : Option (Nat × List Byte) := none
  /-- The answers that address waits of other modules have had when they ended, in order: the source module, the tenant there, and the status of
  R375, or 3 for poison (R246, R376). -/
  waitReplies : List (Nat × Nat × Nat) := []
  configRetries : Nat := 0
  /-- The gangs whose saves a PREEMPT command waits for (R282). -/
  awaits : List Nat := []
  /-- The PREEMPT command has begun its saves. -/
  begun : Bool := false
  deriving DecidableEq, Repr

/-- One turn of the machine: an event takes place, about the packet named where it is a packet's arrival, or a core issues
(log entry 8). -/
inductive Turn where
  | event (i : Instr)
  | arrival (packet : Nat) (i : Instr)
  | issue (core : CoreId)
  deriving DecidableEq, Repr

/-- The module. `me` is the core named `meId`, which issues when the agenda is empty; `others` holds every other core that
is not idle. -/
structure State where
  meId : CoreId := 0#20
  me : Core := {}
  others : List (CoreId × Core) := []
  agenda : List Turn := []
  /-- The packet that the present turn is about. -/
  pick : Nat := 0
  tick : Nat := 0
  cycle : Word := 0#64
  hbm : Memory := []
  hbmPoison : List Nat := []
  hbmKey : List (Nat × Nat) := []
  hostMem : Memory := []
  peerMem : Memory := []
  slices : List (CoreId × Slice) := []
  thomes : List (CoreId × THome) := []
  tenants : List Tenant := []
  gangs : List Gang := []
  groups : List Group := []
  bindings : List Binding := []
  net : List Packet := []
  nextPkt : Nat := 0
  nextKey : Nat := 1
  peerWaits : List WaitEntry := []
  /-- The stamp that a unit's walk has met in the step under way, with its slice and the scope to drain to (R147, R159); the step then asks
  for the drain and does nothing else, so that none is left between steps. -/
  blocked : Option (CoreId × Stamp × Scope) := none
  parlour : Parlour := {}
  deriving DecidableEq, Repr

/-- Why a step stops with a fault. -/
inductive Fault where
  /-- Raised by `step` when the agenda gives a turn to a tuple that names no core (R15). Safe: no such core exists, and
  nothing is claimed of what it would do. -/
  | noSuchCore (core : CoreId)
  deriving DecidableEq, Repr

/-- Why a step is refused. -/
inductive Refusal where
  /-- Raised by `exec` for an instruction whose meaning is not written yet. Safe: no next state is claimed. -/
  | notModelled (mnemonic : String)
  /-- Raised by `step` when the agenda gives an instruction word as an event: an instruction takes place only by being
  fetched (R262). Safe: no next state is claimed. -/
  | notAnEvent
  deriving DecidableEq, Repr

/-- The module right after reset (R8, R248): the parlour is in RECOVERY and no tenant exists, so every core is idle, no
memory byte is listed and every field holds the reset value that the manual gives it, or the value that log entry 9
names. -/
def State.reset : State := {}

end Sys2Proof.Machine
end

