-- ==== Sys2Proof/Machine/Memory.lean ====
section
/-! DEFINITION. Bytes by address: reading, writing and clearing them in the one canonical form of `Memory`, and the
little-endian values built from them (R4). -/
namespace Sys2Proof.Machine

/-- The byte at an address; an unlisted address reads zero (log entry 7). -/
def Memory.get : Memory → Nat → Byte
  | [], _ => 0#8
  | (k, v) :: r, a => if k = a then v else Memory.get r a

/-- All addresses of the list lie above `lo`, rise, and hold no zero. -/
def Memory.wfFrom : Option Nat → Memory → Bool
  | _, [] => true
  | lo, (k, v) :: r => (lo.all (· < k)) && (v != 0#8) && Memory.wfFrom (some k) r

/-- The canonical form: strictly rising addresses and no listed zero. -/
def Memory.wf (m : Memory) : Bool := Memory.wfFrom none m

/-- `n` bytes from `a` upward. -/
def Memory.read (m : Memory) (a : Nat) : Nat → List Byte
  | 0 => []
  | n + 1 => m.get a :: Memory.read m (a + 1) n

/-- The cells of consecutive bytes. -/
def cellsAt (a : Nat) : List Byte → List Host.Cell
  | [] => []
  | b :: r => (a, b) :: cellsAt (a + 1) r

/-- Write bytes from `a` upward: what lies below, the bytes that are not zero, and what lies above. -/
def Memory.write (m : Memory) (a : Nat) (l : List Byte) : Memory :=
  m.filter (fun c => c.1 < a) ++ (cellsAt a l).filter (fun c => c.2 != 0#8) ++ m.filter (fun c => a + l.length ≤ c.1)

/-- Write one byte. -/
def Memory.set (m : Memory) (a : Nat) (b : Byte) : Memory := m.write a [b]

/-- Write a list of cells in order. -/
def Memory.writeCells (m : Memory) : List Host.Cell → Memory
  | [] => m
  | (a, b) :: r => Memory.writeCells (m.set a b) r

/-- Clear `n` bytes from `a`. -/
def Memory.clear (m : Memory) (a n : Nat) : Memory := m.filter (fun c => c.1 < a || a + n ≤ c.1)

/-- The cells listed in `n` bytes from `a`. -/
def Memory.slice (m : Memory) (a n : Nat) : Memory := m.filter (fun c => a ≤ c.1 && c.1 < a + n)

/-- The little-endian number of a byte list (R4). -/
def leOf : List Byte → Nat
  | [] => 0
  | b :: r => b.toNat + 256 * leOf r

/-- The `n` little-endian bytes of a number (R4). -/
def leBytesOf : Nat → Nat → List Byte
  | 0, _ => []
  | n + 1, v => BitVec.ofNat 8 v :: leBytesOf n (v / 256)

/-- A little-endian value of `n` bytes. -/
def Memory.value (m : Memory) (a n : Nat) : Nat := leOf (m.read a n)

/-- A doubleword as a word. -/
def Memory.dword (m : Memory) (a : Nat) : Word := BitVec.ofNat 64 (m.value a 8)

/-- Store the low `n` bytes of a number. -/
def Memory.store (m : Memory) (a n v : Nat) : Memory := m.write a (leBytesOf n v)

/-- `n` consecutive doublewords. -/
def Memory.dwords (m : Memory) (a : Nat) : Nat → List Word
  | 0 => []
  | n + 1 => m.dword a :: Memory.dwords m (a + 8) n

/-- The little-endian bytes of doublewords one after another. -/
def dwordBytes (l : List Word) : List Byte := l.flatMap (fun w => leBytesOf 8 w.toNat)

/-- Store doublewords one after another. -/
def Memory.storeDwords (m : Memory) (a : Nat) (l : List Word) : Memory := m.write a (dwordBytes l)

/-- Sign-extend the low `n` bytes of a number to 64 bits. -/
def sextBytes (n v : Nat) : Word :=
  if 8 ≤ n then BitVec.ofNat 64 v
  else if v % 2 ^ (8 * n) < 2 ^ (8 * n - 1) then BitVec.ofNat 64 (v % 2 ^ (8 * n))
  else BitVec.ofNat 64 (v % 2 ^ (8 * n) + (2 ^ 64 - 2 ^ (8 * n)))

/-! ## Small list operations that every unit uses -/

/-- The value of a key in an association list. -/
def assoc? {κ α : Type} [DecidableEq κ] (k : κ) : List (κ × α) → Option α
  | [] => none
  | (j, v) :: r => if j = k then some v else assoc? k r

/-- Replace the value of a key, or add the key at the end. -/
def assocSet {κ α : Type} [DecidableEq κ] (k : κ) (v : α) : List (κ × α) → List (κ × α)
  | [] => [(k, v)]
  | (j, w) :: r => if j = k then (j, v) :: r else (j, w) :: assocSet k v r

/-- Put a value in front, dropping equal ones, and keep at most `cap` values: a least-recently-used table. -/
def lruPut {α : Type} (same : α → Bool) (cap : Nat) (x : α) (l : List α) : List α :=
  (x :: l.filter (fun y => !same y)).take cap

/-- The elements of a list without repeats, in the order of their first occurrence. -/
def distinct {α : Type} [DecidableEq α] : List α → List α
  | [] => []
  | x :: r => x :: (distinct r).filter (· ≠ x)

/-- The number of one bits below bit `n`. -/
def popcount (n v : Nat) : Nat := ((List.range n).filter (fun i => v.testBit i)).length

end Sys2Proof.Machine
end

