-- ==== Sys2Proof/Machine/Place.lean ====
section
/-! DEFINITION. Where things are: coordinates and scopes (R10, R13 to R15), the counts by scope (R134), the hash of R122 and
R161, the memory map (R114) and the home of a line (R115, R120 to R123). -/
namespace Sys2Proof.Machine

/-! ## Coordinates -/

/-- A core from its coordinates (R14, R36). -/
def mkCore (die x y core : Nat) : CoreId := BitVec.ofNat 20 (die % 32 + 32 * (x % 32) + 1024 * (y % 32) + 32768 * (core % 32))
/-- The die of a core. -/
def dieOf (c : CoreId) : Nat := c.toNat % 32
/-- The column of a core within its die. -/
def xOf (c : CoreId) : Nat := c.toNat / 32 % 32
/-- The row of a core within its die. -/
def yOf (c : CoreId) : Nat := c.toNat / 1024 % 32
/-- The core number within its cluster. -/
def numOf (c : CoreId) : Nat := c.toNat / 32768 % 32
/-- The cluster, or its slice: the core field zero. -/
def clusterOf (c : CoreId) : CoreId := BitVec.ofNat 20 (c.toNat % 32768)
/-- A tuple with x above 23 or y above 26 names no core (R15). -/
def namesCore (c : CoreId) : Bool := xOf c < 24 && yOf c < 27
/-- The header form: the coordinates in [51:32] (R36). -/
def headerForm (c : CoreId) : Word := BitVec.ofNat 64 (c.toNat * 2 ^ 32)
/-- The core that [51:32] of a word names. -/
def coreIn (w : Word) : CoreId := BitVec.ofNat 20 (fld w.toNat 32 20)
/-- Whether a list entry has bits outside the header form (R220, R329). -/
def notCoreWord (w : Word) : Bool := w.toNat / 2 ^ 52 ≠ 0 || w.toNat % 2 ^ 32 ≠ 0

/-- The index of a cluster in CREATE's bitmap and the ownership table (R249, R260). -/
def clusterIndex (c : CoreId) : Nat := dieOf c * 648 + yOf c * 24 + xOf c
/-- The cluster at an index of the bitmap. -/
def clusterAt (i : Nat) : CoreId := mkCore (i / 648) (i % 648 % 24) (i % 648 / 24) 0
/-- The column of a router in the module mesh (R14). -/
def meshX (c : CoreId) : Nat := 24 * (dieOf c % 8) + xOf c
/-- The row of a router in the module mesh (R14). -/
def meshY (c : CoreId) : Nat := 27 * (dieOf c / 8) + yOf c
/-- The 32 cores of a cluster in rising core number. -/
def coresOf (c : CoreId) : List CoreId := (List.range 32).map (fun n => mkCore (dieOf c) (xOf c) (yOf c) n)

/-! ## Scopes -/

/-- The narrowest of clu, die and mod that contains both cores (R10); sys lies outside the module. -/
def scopeOf (a b : CoreId) : Scope :=
  if clusterOf a = clusterOf b then 0#2 else if dieOf a = dieOf b then 1#2 else 2#2

/-- The wider of two scopes. -/
def Scope.max (a b : Scope) : Scope := if a.toNat < b.toNat then b else a

/-- The count of one scope. -/
def Counts.at (c : Counts) (sc : Scope) : Nat :=
  match sc.toNat with | 0 => c.clu | 1 => c.die | 2 => c.mod | _ => c.sys

/-- Replace the count of one scope. -/
def Counts.setAt (c : Counts) (sc : Scope) (n : Nat) : Counts :=
  match sc.toNat with
  | 0 => { c with clu := n } | 1 => { c with die := n } | 2 => { c with mod := n } | _ => { c with sys := n }

/-- One more write outstanding (R134). -/
def Counts.inc (c : Counts) (sc : Scope) : Counts := c.setAt sc (c.at sc + 1)
/-- One write acknowledged (R134). -/
def Counts.dec (c : Counts) (sc : Scope) : Counts := c.setAt sc (c.at sc - 1)
/-- The counts of two sets together, as when an activation ends (R134). -/
def Counts.add (a b : Counts) : Counts :=
  { clu := a.clu + b.clu, die := a.die + b.die, mod := a.mod + b.mod, sys := a.sys + b.sys }
/-- Zero for the scope and every narrower one (R137). -/
def Counts.clear (c : Counts) (sc : Scope) : Bool :=
  c.clu == 0 && (sc.toNat < 1 || c.die == 0) && (sc.toNat < 2 || c.mod == 0) && (sc.toNat < 3 || c.sys == 0)
/-- The UNACK word (R135). -/
def Counts.word (c : Counts) : Word :=
  BitVec.ofNat 64 (c.clu % 65536 + 65536 * (c.die % 65536) + 2 ^ 32 * (c.mod % 65536) + 2 ^ 48 * (c.sys % 65536))

/-! ## The hash and the memory map -/

/-- XOR of `k` consecutive 20-bit fields from bit 0 upward. -/
def foldFields : Nat → Nat → Nat
  | 0, _ => 0
  | k + 1, v => (v % 2 ^ 20) ^^^ foldFields k (v / 2 ^ 20)

/-- fold20 (R122): the XOR of the 20-bit fields of a number below 2^60. -/
def fold20 (v : Nat) : Nat := foldFields 3 v

/-- The slice that is the translation home of a virtual address on a die (R161). -/
def xlateHome (die va : Nat) : CoreId :=
  let h := fold20 (va % 2 ^ 57 / 2 ^ 12)
  mkCore die (h % 1024 % 24) (h / 1024 % 27) 0

/-- The fabric window (R101). -/
def inWindow (va : Nat) : Bool := va / 2 ^ 48 = 0x1FF

/-- What memory a physical address reaches, if any (R114). -/
def regionOf (pa : Nat) : Option Region :=
  if pa / 2 ^ 42 = 0 then (if pa % 2 ^ 37 < 96000000000 then some .hbm else none)
  else if pa / 2 ^ 48 = 8 then some .host
  else if pa / 2 ^ 50 = 3 then some .peer
  else none

/-- The parlour attachment of a host line, as the router it attaches to (R19, R115). -/
def hostAttachment (pa : Nat) : CoreId :=
  let i := fold20 (pa / 64) % 16
  mkCore (8 * (i / 4)) 0 (3 + 7 * (i % 4)) 0

/-- The router of a Blulin port (R12, R20). -/
def blulinRouter (port : Nat) : CoreId := mkCore (port / 4) 0 (port % 4) 0

/-! ## Vats and homes -/

/-- The vat's line size in bytes as a power of two (R119). -/
def Vat.lg (v : Vat) : Nat := 6 + v.lsz.toNat
/-- The member slices: the distinct slices of the share list in list order (R122). -/
def VatGen.members (g : VatGen) : List CoreId := distinct (g.shares.map (·.slice))

/-- The shares of a vat, the old list of a resize behind the present one (R118, R128). -/
def Vat.allShares (v : Vat) : List Share := v.cur.shares ++ v.old.elim [] VatGen.shares

/-- The share that holds a line. -/
def Vat.shareHolding (v : Vat) (l : SLine) : Option Share :=
  if l.gen = v.cur.gen then v.cur.shares[l.share]? else v.old.bind (fun g => g.shares[l.share]?)

/-- The dies of a home-die mask, lowest first. -/
def diesOf (m : BitVec 32) : List Nat := (List.range 32).filter (fun d => m.getLsbD d)

/-- The placement that applies: the vat's default where the leaf's cannot (R122). -/
def placement (v : Vat) (g : VatGen) (pl : BitVec 2) : BitVec 2 :=
  if pl = 2#2 && !(g.named.any (fun n => g.members.contains n)) then v.dpl
  else if pl = 3#2 && v.dies = 0#32 then v.dpl
  else pl

/-- A home: the slice, the share on it with its bank and its groups of ways, and the set (R120, R123). -/
structure Home where
  slice : CoreId
  share : Nat
  bank : BitVec 3
  groups : List Nat
  set : Nat
  deriving DecidableEq, Repr

/-- The groups of 2^L ways that a way mask holds, lowest first (R120). -/
def groupsOf (lsz : BitVec 2) (ways : BitVec 16) : List Nat :=
  (List.range (16 / 2 ^ lsz.toNat)).filter (fun i => ways.getLsbD (2 ^ lsz.toNat * i))

/-- The shares of a generation that lie on a slice, with their numbers in the list. -/
def sharesOn (slice : CoreId) : Nat → List Share → List (Nat × Share)
  | _, [] => []
  | i, sh :: r => if sh.slice = slice then (i, sh) :: sharesOn slice (i + 1) r else sharesOn slice (i + 1) r

/-- The share, set and associativity of a line on its home slice (R120, R123). -/
def homeOn (v : Vat) (g : VatGen) (slice : CoreId) (h m pa : Nat) : Option Home :=
  let on := sharesOn slice 0 g.shares
  match on[(h / m) % on.length]? with
  | some (i, sh) =>
    some { slice := slice, share := i, bank := sh.bank, groups := groupsOf v.lsz sh.ways, set := pa / 2 ^ v.lg % 32 }
  | none => none

/-- The member with number h mod M among some members, with the divisor M. -/
def pick (l : List CoreId) (h : Nat) : Option (CoreId × Nat) := (l[h % l.length]?).map (fun c => (c, l.length))

/-- The home of a physical address under one generation of a vat for a requester on `die` (R122, R123). Loads under
placement 11 use the replica of the requester's die; every other access uses the primary. -/
def homeUnder (v : Vat) (g : VatGen) (pl : BitVec 2) (die pa : Nat) (load : Bool) : Option Home :=
  let h := fold20 (pa / 2 ^ v.lg)
  let m := g.members
  let onDie (d : Nat) := m.filter (fun c => dieOf c = d)
  match (placement v g pl).toNat with
  | 0 => (pick m h).bind (fun p => homeOn v g p.1 h p.2 pa)
  | 1 => ((pick (onDie die) h).orElse (fun _ => pick m h)).bind (fun p => homeOn v g p.1 h p.2 pa)
  | 2 => g.named.bind (fun n => homeOn v g n h 1 pa)
  | _ =>
    let d := if load && v.dies.getLsbD die then die else (diesOf v.dies).headD 0
    (pick (onDie d) h).bind (fun p => homeOn v g p.1 h p.2 pa)

/-- The other replicas of a line under placement 11, in rising die order (R122, R149). -/
def replicas (v : Vat) (g : VatGen) (pl : BitVec 2) (pa : Nat) : List CoreId :=
  if (placement v g pl).toNat = 3 then
    let h := fold20 (pa / 2 ^ v.lg)
    (diesOf v.dies).tail.filterMap (fun d => (pick (g.members.filter (fun c => dieOf c = d)) h).map (·.1))
  else []

/-- The replica of a line on a die that its vat replicates on, under placement 11 (R122, R149). -/
def replicaOn (v : Vat) (g : VatGen) (pl : BitVec 2) (die pa : Nat) : Option Home :=
  if (placement v g pl).toNat = 3 && v.dies.getLsbD die then homeUnder v g pl die pa true else none

end Sys2Proof.Machine
end

