-- ==== Sys2Proof/Machine/Flags.lean ====
section
/-! DEFINITION. FP32 and F19 arithmetic with its flags, exact on integers and rounded once (R182 to R198), the conversions and
the tables' encodings (R185, R189 to R191), the reductions (R199) and the matrix engine's group sum (R203). -/
namespace Sys2Proof.Machine

/-- The flags NV, DZ, OF, UF, NX at bits 4 to 0 (R194). -/
abbrev FFlags := BitVec 5

/-- A result with the flags that it raises. -/
structure FOut where
  v : Lane
  f : FFlags := 0#5
  deriving DecidableEq, Repr

/-- The canonical NaN (R182). -/
def nan32 : Lane := 0x7FC00000#32
/-- A NaN result with NV. -/
def nanNV : FOut := { v := nan32, f := 16#5 }

/-- What an FP32 pattern holds: a NaN, an infinity, or the magnitude m × 2^e with a sign (R182). -/
inductive FVal where
  | nan (signalling : Bool)
  | inf (s : Bool)
  | fin (s : Bool) (m : Nat) (e : Int)
  deriving DecidableEq, Repr

/-- The value of a pattern (R182). -/
def fval (w : Lane) : FVal :=
  let n := w.toNat
  let s := w.getLsbD 31
  let e := fld n 23 8
  let f := fld n 0 23
  if e = 255 then (if f = 0 then .inf s else .nan (!w.getLsbD 22))
  else if e = 0 then .fin s f (-149)
  else .fin s (f + 2 ^ 23) ((e : Int) - 150)

/-- A signed zero. -/
def zero32 (s : Bool) : Lane := if s then 0x80000000#32 else 0#32
/-- A signed infinity. -/
def inf32 (s : Bool) : Lane := if s then 0xFF800000#32 else 0x7F800000#32
/-- The largest finite magnitude. -/
def max32 (s : Bool) : Lane := if s then 0xFF7FFFFF#32 else 0x7F7FFFFF#32

/-- Any NaN. -/
def isNan (w : Lane) : Bool := match fval w with | .nan _ => true | _ => false
/-- A signalling NaN. -/
def isSig (w : Lane) : Bool := match fval w with | .nan q => q | _ => false

/-! ## Rounding -/

/-- Drop `k` low bits of a magnitude under a mode (0 RNE, 1 RTZ, 2 RDN, 3 RUP): the rounded magnitude and whether it is
inexact (R194). -/
def roundBits (rm : BitVec 3) (s : Bool) (m k : Nat) : Nat × Bool :=
  let q := m / 2 ^ k
  let r := m % 2 ^ k
  let up := match rm.toNat with
    | 0 => 2 ^ k < 2 * r || (2 ^ k = 2 * r && q % 2 = 1)
    | 1 => false
    | 2 => r ≠ 0 && s
    | _ => r ≠ 0 && !s
  (if up then q + 1 else q, r ≠ 0)

/-- Scale a magnitude to a quantum 2^q and round it: `m` × 2^e with e and q any integers. -/
def roundTo (rm : BitVec 3) (s : Bool) (m : Nat) (e q : Int) : Nat × Bool :=
  if q ≤ e then (m * 2 ^ (e - q).toNat, false) else roundBits rm s m (q - e).toNat

/-- The overflow result of a mode (R193). -/
def overflow32 (rm : BitVec 3) (s : Bool) : FOut :=
  { v := match rm.toNat with
      | 0 => inf32 s
      | 1 => max32 s
      | 2 => if s then inf32 s else max32 s
      | _ => if s then max32 s else inf32 s
    f := 5#5 }

/-- Round the exact magnitude m × 2^e, a little more when `sticky`, to FP32 under a mode, with tininess detected after
rounding (R193). -/
def round32 (rm : BitVec 3) (s : Bool) (m : Nat) (e : Int) (sticky : Bool) : FOut :=
  let m4 := 4 * m + (if sticky then 1 else 0)
  if m4 = 0 then { v := zero32 s }
  else
    let e4 := e - 2
    let lead := e4 + (Nat.log2 m4 : Int)
    let q := if lead - 23 < -149 then -149 else lead - 23
    let (k, inexact) := roundTo rm s m4 e4 q
    let (k2, _) := roundTo rm s m4 e4 (lead - 23)
    let tiny := lead < -126 && !(lead = -127 && k2 = 2 ^ 24)
    let (k', q') := if k = 2 ^ 24 then (2 ^ 23, q + 1) else (k, q)
    let nx : FFlags := if inexact then 1#5 else 0#5
    let uf : FFlags := if inexact && tiny then 2#5 else 0#5
    if k' < 2 ^ 23 then { v := BitVec.ofNat 32 ((if s then 2 ^ 31 else 0) + k'), f := nx ||| uf }
    else if 254 < q' + 150 then overflow32 rm s
    else { v := BitVec.ofNat 32 ((if s then 2 ^ 31 else 0) + (q' + 150).toNat * 2 ^ 23 + (k' - 2 ^ 23)), f := nx ||| uf }

/-- Round a signed exact number n × 2^e; an exact zero takes the sign given. -/
def roundInt (rm : BitVec 3) (n : Int) (e : Int) (zs : Bool) : FOut :=
  if n = 0 then { v := zero32 zs } else round32 rm (n < 0) n.natAbs e false

/-- The flag of a signalling operand (R193). -/
def sigFlag (l : List Lane) : FFlags := if l.any isSig then 16#5 else 0#5

/-- A magnitude with its sign as an integer at a common exponent. -/
def atExp (s : Bool) (m : Nat) (e c : Int) : Int :=
  let v : Int := (m * 2 ^ (e - c).toNat : Nat)
  if s then -v else v

/-- The smaller of two exponents. -/
def minExp (a b : Int) : Int := if a ≤ b then a else b

/-! ## Arithmetic (R193, R319, R322) -/

/-- x + y. -/
def fAdd (rm : BitVec 3) (x y : Lane) : FOut :=
  match fval x, fval y with
  | .nan _, _ => { v := nan32, f := sigFlag [x, y] }
  | _, .nan _ => { v := nan32, f := sigFlag [x, y] }
  | .inf a, .inf b => if a = b then { v := inf32 a } else nanNV
  | .inf a, _ => { v := inf32 a }
  | _, .inf b => { v := inf32 b }
  | .fin a m e, .fin b n f =>
    let c := minExp e f
    roundInt rm (atExp a m e c + atExp b n f c) c (if m = 0 && n = 0 && a = b then a else rm = 2#3)

/-- The pattern with its sign inverted. -/
def fNeg (x : Lane) : Lane := x ^^^ 0x80000000#32

/-- x − y: as x + y with y negated; a NaN stays a NaN (R319). -/
def fSub (rm : BitVec 3) (x y : Lane) : FOut := fAdd rm x (fNeg y)

/-- x × y. -/
def fMul (rm : BitVec 3) (x y : Lane) : FOut :=
  match fval x, fval y with
  | .nan _, _ => { v := nan32, f := sigFlag [x, y] }
  | _, .nan _ => { v := nan32, f := sigFlag [x, y] }
  | .inf a, .inf b => { v := inf32 (a != b) }
  | .inf a, .fin b n _ => if n = 0 then nanNV else { v := inf32 (a != b) }
  | .fin a m _, .inf b => if m = 0 then nanNV else { v := inf32 (a != b) }
  | .fin a m e, .fin b n f => round32 rm (a != b) (m * n) (e + f) false

/-- x ÷ y. -/
def fDiv (rm : BitVec 3) (x y : Lane) : FOut :=
  match fval x, fval y with
  | .nan _, _ => { v := nan32, f := sigFlag [x, y] }
  | _, .nan _ => { v := nan32, f := sigFlag [x, y] }
  | .inf _, .inf _ => nanNV
  | .inf a, .fin b _ _ => { v := inf32 (a != b) }
  | .fin a _ _, .inf b => { v := zero32 (a != b) }
  | .fin a m e, .fin b n f =>
    if n = 0 then (if m = 0 then nanNV else { v := inf32 (a != b), f := 8#5 })
    else round32 rm (a != b) (m * 2 ^ 60 / n) (e - f - 60) (m * 2 ^ 60 % n ≠ 0)

/-- The integer square root by bits from `b` − 1 down: the largest r with r² ≤ n. -/
def isqrtFrom (n : Nat) : Nat → Nat → Nat
  | 0, r => r
  | b + 1, r => isqrtFrom n b (if (r + 2 ^ b) * (r + 2 ^ b) ≤ n then r + 2 ^ b else r)

/-- The integer square root. -/
def isqrt (n : Nat) : Nat := isqrtFrom n (Nat.log2 n / 2 + 1) 0

/-- √x. -/
def fSqrt (rm : BitVec 3) (x : Lane) : FOut :=
  match fval x with
  | .nan _ => { v := nan32, f := sigFlag [x] }
  | .inf s => if s then nanNV else { v := inf32 false }
  | .fin s m e =>
    if m = 0 then { v := zero32 s }
    else if s then nanNV
    else
      let (m2, e2) := if e % 2 = 0 then (m, e) else (2 * m, e - 1)
      let n := m2 * 2 ^ 60
      let r := isqrt n
      round32 rm false r (e2 / 2 - 30) (r * r ≠ n)

/-- x × y + z with one rounding. -/
def fFma (rm : BitVec 3) (x y z : Lane) : FOut :=
  let nan := isNan x || isNan y || isNan z
  match fval x, fval y, fval z with
  | .inf _, .fin _ 0 _, _ => nanNV
  | .fin _ 0 _, .inf _, _ => nanNV
  | a, b, c =>
    if nan then { v := nan32, f := sigFlag [x, y, z] }
    else
      match a, b, c with
      | .fin a m e, .fin b n f, .fin c k g =>
        let h := minExp (e + f) g
        let s := a != b
        roundInt rm (atExp s (m * n) (e + f) h + atExp c k g h) h (if m * n = 0 && k = 0 && s = c then s else rm = 2#3)
      | .fin _ _ _, .fin _ _ _, .inf c => { v := inf32 c }
      | p, q, .inf c =>
        let s := (match p with | .inf s => s | .fin s _ _ => s | _ => false) != (match q with | .inf s => s | .fin s _ _ => s | _ => false)
        if s = c then { v := inf32 c } else nanNV
      | p, q, _ =>
        { v := inf32 ((match p with | .inf s => s | .fin s _ _ => s | _ => false) != (match q with | .inf s => s | .fin s _ _ => s | _ => false)) }

/-! ## Comparison, minimum, maximum, class (R196, R198) -/

/-- The order of two patterns that are not NaN: a key that −0 and +0 share. -/
def fKey (w : Lane) : Int :=
  let m : Int := (w.toNat % 2 ^ 31 : Nat)
  if w.getLsbD 31 then -m else m

/-- Equal, neither a NaN. -/
def fEqB (x y : Lane) : Bool := !isNan x && !isNan y && fKey x = fKey y
/-- Less, neither a NaN. -/
def fLtB (x y : Lane) : Bool := !isNan x && !isNan y && fKey x < fKey y
/-- Less or equal, neither a NaN. -/
def fLeB (x y : Lane) : Bool := !isNan x && !isNan y && fKey x ≤ fKey y

/-- NV for any NaN, as FLT and FLE raise it (R198). -/
def nanFlag (x y : Lane) : FFlags := if isNan x || isNan y then 16#5 else 0#5

/-- The order of minimumNumber, where −0 lies below +0 (R196). -/
def minKey (w : Lane) : Int := if w.getLsbD 31 then -(w.toNat % 2 ^ 31 : Nat) - 1 else (w.toNat % 2 ^ 31 : Nat)

/-- minimumNumber (R196). -/
def fMin (x y : Lane) : FOut :=
  { v := if isNan x && isNan y then nan32 else if isNan x then y else if isNan y then x else if minKey x ≤ minKey y then x else y
    f := sigFlag [x, y] }

/-- maximumNumber (R196). -/
def fMax (x y : Lane) : FOut :=
  { v := if isNan x && isNan y then nan32 else if isNan x then y else if isNan y then x else if minKey y ≤ minKey x then x else y
    f := sigFlag [x, y] }

/-- The one-hot class (R198). -/
def fClass (w : Lane) : Nat :=
  match fval w with
  | .inf s => if s then 1 else 128
  | .nan q => if q then 256 else 512
  | .fin s m _ =>
    if m = 0 then (if s then 8 else 16)
    else if m < 2 ^ 23 then (if s then 4 else 32)
    else (if s then 2 else 64)

/-! ## Conversions (R198, R320, R369) -/

/-- A signed integer to FP32. -/
def intToF (rm : BitVec 3) (n : Int) : FOut := roundInt rm n 0 false

/-- A magnitude rounded to an integer under a mode. -/
def toIntMag (rm : BitVec 3) (s : Bool) (m : Nat) (e : Int) : Nat × Bool := roundTo rm s m e 0

/-- FP32 to a signed integer of `w` bits: saturated with NV, a NaN 0 with NV (R198, R369). -/
def fToInt (rm : BitVec 3) (w : Nat) (x : Lane) : Int × FFlags :=
  match fval x with
  | .nan _ => (0, 16#5)
  | .inf s => (if s then -(2 ^ (w - 1) : Nat) else (2 ^ (w - 1) - 1 : Nat), 16#5)
  | .fin s m e =>
    let (k, inexact) := toIntMag rm s m e
    let v : Int := if s then -(k : Int) else k
    if v < -(2 ^ (w - 1) : Nat) then (-(2 ^ (w - 1) : Nat), 16#5)
    else if (2 ^ (w - 1) - 1 : Nat) < v then ((2 ^ (w - 1) - 1 : Nat), 16#5)
    else (v, if inexact then 1#5 else 0#5)

/-- FP32 to F19, to nearest even at bit 13 (R185). -/
def toF19 (x : Lane) : Lane :=
  if isNan x then nan32
  else
    let m := x.toNat % 2 ^ 31
    let q := m / 2 ^ 13
    let rest := m % 2 ^ 13
    let q' := if 0x1000 < rest || (rest = 0x1000 && q % 2 = 1) then q + 1 else q
    BitVec.ofNat 32 ((if x.getLsbD 31 then 2 ^ 31 else 0) + q' * 2 ^ 13)

/-- The flags of a conversion to F19 by TST or VCVT (R185). -/
def f19Flags (x : Lane) : FFlags :=
  if isNan x then sigFlag [x]
  else
    let y := (toF19 x).toNat % 2 ^ 31
    let m := x.toNat % 2 ^ 31
    if y = m then 0#5
    else if y = 0x7F800000 then 5#5
    else if y ≠ 0 && y < 0x00800000 then 3#5
    else 1#5

/-! ## The elementary functions, correctly rounded (R197) -/

/-- The root 2^(2^−i) in 240-bit fixed point, from that of i − 1. -/
def nextRoot (r : Nat) : Nat := isqrt (r * 2 ^ 240)

/-- The product of the roots 2^(2^−i) that the bits of a fraction select, highest bit first: 2^f in 240-bit fixed point for
f = n / 2^k, from root `r` and product `acc`. -/
def exp2Bits (n : Nat) : Nat → Nat → Nat → Nat
  | 0, _, acc => acc
  | k + 1, r, acc =>
    let r' := nextRoot r
    exp2Bits n k r' (if n.testBit k then acc * r' / 2 ^ 240 else acc)

/-- 2^x. Exact for an integer; otherwise irrational, taken to 240 bits and a sticky bit. -/
def fExp2 (rm : BitVec 3) (x : Lane) : FOut :=
  match fval x with
  | .nan _ => { v := nan32, f := sigFlag [x] }
  | .inf s => if s then { v := zero32 false } else { v := inf32 false }
  | .fin s m e =>
    if m = 0 then { v := 0x3F800000#32 }
    else if e + (Nat.log2 m : Int) < -40 then
      (if s then round32 rm false (2 ^ 40 - 1) (-40) true else round32 rm false (2 ^ 40) (-40) true)
    else if 9 < e + (Nat.log2 m : Int) then
      (if s then round32 rm false 1 (-1000) true else round32 rm false 1 1000 true)
    else
      -- |x| = m × 2^e with -63 - 23 ≤ e; the value in units of 2^-96
      let u : Int := atExp s m e (-96)
      let n : Int := u / (2 ^ 96 : Nat)
      let f : Nat := (u % (2 ^ 96 : Nat)).toNat
      if f = 0 then round32 rm false 1 n false
      else round32 rm false (exp2Bits f 96 (2 ^ 241) (2 ^ 240)) (n - 240) true

/-- The first `k` bits of log2 y for y in [1, 2) in 320-bit fixed point. -/
def log2Bits : Nat → Nat → Nat → Nat
  | 0, _, acc => acc
  | k + 1, y, acc =>
    let z := y * y / 2 ^ 320
    if 2 ^ 321 ≤ z then log2Bits k (z / 2) (2 * acc + 1) else log2Bits k z (2 * acc)

/-- log2 x. Exact for a power of two; otherwise irrational, taken to 128 bits of fraction and a sticky bit. -/
def fLog2 (rm : BitVec 3) (x : Lane) : FOut :=
  match fval x with
  | .nan _ => { v := nan32, f := sigFlag [x] }
  | .inf s => if s then nanNV else { v := inf32 false }
  | .fin s m e =>
    if m = 0 then { v := inf32 true, f := 8#5 }
    else if s then nanNV
    else
      let l := Nat.log2 m
      let k : Int := e + l
      if m = 2 ^ l then roundInt rm k 0 false
      else
        let v : Int := k * (2 ^ 128 : Nat) + (log2Bits 128 (m * 2 ^ (320 - l)) 0 : Nat)
        if 0 ≤ v then round32 rm false v.toNat (-128) true else round32 rm true (-v - 1).toNat (-128) true

/-- 1/√x. -/
def fRsqrt (rm : BitVec 3) (x : Lane) : FOut :=
  match fval x with
  | .nan _ => { v := nan32, f := sigFlag [x] }
  | .inf s => if s then nanNV else { v := zero32 false }
  | .fin s m e =>
    if m = 0 then { v := inf32 s, f := 8#5 }
    else if s then nanNV
    else
      let (m2, e2) := if e % 2 = 0 then (m, e) else (2 * m, e - 1)
      let r := isqrt (2 ^ 200 / m2)
      round32 rm false r (-(e2 / 2) - 100) (r * r * m2 ≠ 2 ^ 200)

/-! ## Tables (R189 to R191) -/

/-- A finite pattern as an exact integer in units of 2^−149. -/
def fUnits (w : Lane) : Int :=
  match fval w with
  | .fin s m e => atExp s m e (-149)
  | _ => 0

/-- Whether a pattern is finite. -/
def isFin (w : Lane) : Bool := match fval w with | .fin _ _ _ => true | _ => false

/-- Choose between two codes equally near: an even code, then the smaller magnitude, then the lower code (R190). -/
def preferCode (a : Nat × Nat) (b : Nat × Nat) : Nat × Nat :=
  if a.1 % 2 ≠ b.1 % 2 then (if a.1 % 2 = 0 then a else b)
  else if a.2 ≠ b.2 then (if a.2 < b.2 then a else b)
  else (if a.1 ≤ b.1 then a else b)

/-- The nearest of some (code, value) candidates to a value, exactly (R190 step 4, R191). -/
def nearestCode (v : Int) : List (Nat × Int) → Option (Nat × Int)
  | [] => none
  | c :: r =>
    match nearestCode v r with
    | none => some c
    | some d =>
      let dc := (c.2 - v).natAbs
      let dd := (d.2 - v).natAbs
      if dc < dd then some c
      else if dd < dc then some d
      else if (preferCode (c.1, c.2.natAbs) (d.1, d.2.natAbs)).1 = c.1 then some c else some d

/-- The candidates of the decode table: entries that are not NaN, other than the NaN code's (R190). -/
def candidates (tab : Vector Lane 256) (nanCode : BitVec 8) : List (Nat × Lane) :=
  (List.range 256).filterMap (fun i =>
    match tab[i]? with
    | some e => if isNan e || i = nanCode.toNat then none else some (i, e)
    | none => none)

/-- Encode an FP32 value into C8 (R190). DESIGN CHOICE: of several codes of the largest finite value step 3 gives an even one and then the
lower, and of several codes of an infinity the lowest (log entry 95). -/
def encodeC8 (tab : Vector Lane 256) (nanCode : BitVec 8) (sat : Bool) (x : Lane) : Nat :=
  let c := candidates tab nanCode
  let fin := (c.filter (fun p => isFin p.2)).map (fun p => (p.1, fUnits p.2))
  let big (s : Bool) : Option (Nat × Int) :=
    fin.foldl (fun b p => match b with
      | none => some p
      | some q => if (if s then decide (p.2 < q.2) else decide (q.2 < p.2)) then some p
                  else if p.2 = q.2 then nearestCode p.2 [p, q] else some q) none
  if isNan x then nanCode.toNat
  else if fin.isEmpty then nanCode.toNat
  else
    match c.find? (fun p => x.toNat % 2 ^ 31 = 0 && p.2 = x) with
    | some p => p.1
    | none =>
      let s := x.getLsbD 31
      let v := fUnits x
      let beyond := match big s with
        | some m => !isFin x || (if s then decide (v < m.2) else decide (m.2 < v))
        | none => false
      if beyond then
        let far := !isFin x || (2 ^ 128 - 2 ^ 116) * 2 ^ 149 ≤ v.natAbs
        match (if !sat && far then c.find? (fun p => p.2 = inf32 s) else none) with
        | some p => p.1
        | none => ((big s).getD (nanCode.toNat, 0)).1
      else ((nearestCode v fin).getD (nanCode.toNat, 0)).1

/-- Saturate to int8 (R191). -/
def satI8 (n : Int) : Int := if n < -128 then -128 else if 127 < n then 127 else n

/-- Encode an int32 lane into C4: the nearest integer entry (R191). -/
def encodeC4 (tab : Vector Byte 16) (n : Int) : Nat :=
  ((nearestCode n ((List.range 16).filterMap (fun i => tab[i]?.map (fun b => (i, b.toInt))))).getD (0, 0)).1

/-- The value of a code of the decode table: the NaN code and NaN entries give the canonical NaN (R189). -/
def decodeC8 (tab : Vector Lane 256) (nanCode : BitVec 8) (c : BitVec 8) : Lane :=
  let e := (tab[c.toNat]?).getD 0#32
  if c = nanCode || isNan e then nan32 else e

/-- Scale an F19 entry by 2^e: saturating at the largest finite F19 magnitude, rounded into subnormals (R100). -/
def scaleF19 (e : Int) (w : Lane) : Lane :=
  match fval w with
  | .fin s m x =>
    if m = 0 then w
    else
      let lead := x + e + (Nat.log2 m : Int)
      let q := if lead - 10 < -136 then -136 else lead - 10
      let (k, _) := roundTo 0#3 s m (x + e) q
      let (k', q') := if k = 2 ^ 11 then (2 ^ 10, q + 1) else (k, q)
      let sgn := if s then 2 ^ 31 else 0
      if 117 < q' then BitVec.ofNat 32 (sgn + 0x7F7FE000)
      else if k' < 2 ^ 10 then BitVec.ofNat 32 (sgn + k' * 2 ^ 13)
      else BitVec.ofNat 32 (sgn + (q' + 137).toNat * 2 ^ 23 + (k' - 2 ^ 10) * 2 ^ 13)
  | _ => w

/-- Multiply FP32 by 2^e, to nearest even, saturating at the largest finite magnitude (R100). -/
def scaleF32 (e : Int) (w : Lane) : Lane :=
  match fval w with
  | .fin s m x =>
    let r := (round32 0#3 s m (x + e) false).v
    if isFin r then r else max32 s
  | _ => w

/-! ## Reductions (R199) -/

/-- One level of the tree over pairs of lanes. -/
def pairUp (op : Lane → Lane → FOut) : List Lane → List Lane × FFlags
  | a :: b :: r =>
    let o := op a b
    let (l, f) := pairUp op r
    (o.v :: l, o.f ||| f)
  | l => (l, 0#5)

/-- The fixed tree over 16 lanes. -/
def tree16 (op : Lane → Lane → FOut) (l : List Lane) : FOut :=
  let (a, fa) := pairUp op l
  let (b, fb) := pairUp op a
  let (c, fc) := pairUp op b
  let (d, fd) := pairUp op c
  { v := d.headD 0#32, f := fa ||| fb ||| fc ||| fd }

/-! ## The matrix engine (R203) -/

/-- An exact term of a group: a signed magnitude m × 2^e. -/
structure Term where
  s : Bool
  m : Nat
  e : Int
  deriving DecidableEq, Repr

/-- What one product adds to a group: its term, or its NaN or infinity. -/
inductive Prod where
  | zero | nan | inf (s : Bool) | term (t : Term)
  deriving DecidableEq, Repr

/-- The product of an A and a B element (R203). -/
def product (a b : Lane) : Prod :=
  match fval a, fval b with
  | .nan _, _ => .nan
  | _, .nan _ => .nan
  | .inf s, .inf t => .inf (s != t)
  | .inf s, .fin t n _ => if n = 0 then .nan else .inf (s != t)
  | .fin s m _, .inf t => if m = 0 then .nan else .inf (s != t)
  | .fin s m e, .fin t n f => if m = 0 || n = 0 then .zero else .term { s := s != t, m := m * n, e := e + f }

/-- The exponent of a term's leading bit. -/
def Term.lead (t : Term) : Int := t.e + (Nat.log2 t.m : Int)

/-- A term truncated in magnitude to units of 2^q. -/
def Term.cut (t : Term) (q : Int) : Int :=
  let k : Int := if q ≤ t.e then (t.m * 2 ^ (t.e - q).toNat : Nat) else (t.m / 2 ^ (q - t.e).toNat : Nat)
  if t.s then -k else k

/-- The sum of an accumulator and four products (R203). -/
def groupSum (acc : Lane) (ps : List Prod) : Lane :=
  let nan := isNan acc || ps.any (fun p => p = .nan)
  let pinf := fval acc = .inf false || ps.any (fun p => p = .inf false)
  let ninf := fval acc = .inf true || ps.any (fun p => p = .inf true)
  if nan || (pinf && ninf) then nan32
  else if pinf then inf32 false
  else if ninf then inf32 true
  else
    let terms := ps.filterMap (fun p => match p with | .term t => some t | _ => none)
    let own := match fval acc with | .fin s m e => if m = 0 then [] else [({ s := s, m := m, e := e } : Term)] | _ => []
    match terms ++ own with
    | [] => acc
    | t :: r =>
      let emax := r.foldl (fun m u => if m < u.lead then u.lead else m) t.lead
      let q := emax - 39
      let sum := ((t :: r).map (fun u => u.cut q)).sum
      (roundInt 0#3 sum q false).v

end Sys2Proof.Machine
end

