-- ==== Sys2Proof/Machine/Access.lean ====
section
/-! DEFINITION. Reading and changing the parts of the state by name: cores, contexts, registers, tenants, gangs, slices and
the packets in flight. -/
namespace Sys2Proof.Machine

/-! ## Cores and contexts -/

/-- A hardware context of a core. -/
def Core.ctx (c : Core) (k : CtxId) : Context :=
  match k.toNat with | 0 => c.ctx0 | 1 => c.ctx1 | 2 => c.ctx2 | _ => c.ctx3

/-- Replace a hardware context of a core. -/
def Core.setCtx (c : Core) (k : CtxId) (x : Context) : Core :=
  match k.toNat with
  | 0 => { c with ctx0 := x } | 1 => { c with ctx1 := x } | 2 => { c with ctx2 := x } | _ => { c with ctx3 := x }

/-- The four contexts. -/
def allCtx : List CtxId := [0#2, 1#2, 2#2, 3#2]
/-- The ordinary contexts (R28). -/
def ordinary : List CtxId := [0#2, 1#2, 2#2]

/-- A core of the module; a core that is not listed is idle. -/
def State.core (s : State) (id : CoreId) : Core :=
  if id = s.meId then s.me else (assoc? id s.others).getD {}

/-- Replace a core. -/
def State.setCore (s : State) (id : CoreId) (c : Core) : State :=
  if id = s.meId then { s with me := c } else { s with others := assocSet id c s.others }

/-- Every core that is not idle, with the one in focus. -/
def State.allCores (s : State) : List (CoreId × Core) := (s.meId, s.me) :: s.others

/-- Change a core. -/
def State.onCore (s : State) (id : CoreId) (f : Core → Core) : State := s.setCore id (f (s.core id))

/-- A context of a core. -/
def State.ctxAt (s : State) (id : CoreId) (k : CtxId) : Context := (s.core id).ctx k

/-- Change a context of a core. -/
def State.onCtx (s : State) (id : CoreId) (k : CtxId) (f : Context → Context) : State :=
  s.onCore id (fun c => c.setCtx k (f (c.ctx k)))

/-- The core in focus changed. -/
def State.onMe (s : State) (f : Core → Core) : State := { s with me := f s.me }

/-- The issuing context. -/
def State.cx (s : State) : Context := s.me.ctx s.me.cur

/-- Change the issuing context. -/
def State.onCx (s : State) (f : Context → Context) : State :=
  { s with me := s.me.setCtx s.me.cur (f (s.me.ctx s.me.cur)) }

/-- Bring another core into focus. -/
def State.focus (s : State) (id : CoreId) : State :=
  if id = s.meId then s
  else { s with me := s.core id, meId := id, others := (assocSet s.meId s.me s.others).filter (fun p => p.1 ≠ id) }

/-! ## Registers -/

/-- A scalar register: g0 reads zero (R255). -/
def Context.rg (c : Context) (n : BitVec 5) : Word := if n = 0#5 then 0#64 else c.g[n.toNat]

/-- A scalar register written: g0 discards it (R255). The write is remembered for the limit of R34. -/
def Context.setG (c : Context) (n : BitVec 5) (v : Word) : Context :=
  if n = 0#5 then c
  else { c with g := c.g.set n.toNat v, wroteG := c.wroteG ||| (1#32 <<< n.toNat) }

/-- Whether the activation may write a scalar register: the register is g0 or already written, or the declaration has
room for one more (R34, R256). -/
def Context.mayG (c : Context) (n : BitVec 5) : Bool :=
  n = 0#5 || c.wroteG.getLsbD n.toNat || popcount 32 c.wroteG.toNat < c.act.sregs

/-- Whether the activation may write a tile (R34). -/
def Context.mayT (c : Context) (t : BitVec 3) : Bool :=
  c.wroteT.getLsbD t.toNat || popcount 8 c.wroteT.toNat < c.act.tiles

/-- A tile written whole. -/
def Context.setT (c : Context) (t : BitVec 3) (v : Tile) : Context :=
  { c with t := c.t.set t.toNat v, wroteT := c.wroteT ||| (1#8 <<< t.toNat) }

/-- A mask register: m0 reads 0xFFFF (R255). -/
def Context.mask (c : Context) (m : BitVec 2) : BitVec 16 :=
  match m.toNat with | 0 => 0xFFFF#16 | 1 => c.m1 | 2 => c.m2 | _ => c.m3

/-- A mask register written; m0 is never a destination (R255). -/
def Context.setMask (c : Context) (m : BitVec 2) (v : BitVec 16) : Context :=
  match m.toNat with | 0 => c | 1 => { c with m1 := v } | 2 => { c with m2 := v } | _ => { c with m3 := v }

/-- Flags ORed into FFLAGS (R194). -/
def Context.orFlags (c : Context) (f : BitVec 5) : Context := { c with fflags := c.fflags ||| f }

/-! ## Tenants and gangs -/

/-- A tenant by number. -/
def State.tenant (s : State) (n : Nat) : Option Tenant := s.tenants.find? (fun t => t.id = n)

/-- The tenant that owns a cluster or core (R24, R25). -/
def State.ownerOf (s : State) (c : CoreId) : Option Tenant :=
  if namesCore c then s.tenants.find? (fun t => t.clusters.contains (clusterOf c)) else none

/-- The tenant number of a core, or 16 for none. -/
def State.tenantNo (s : State) (c : CoreId) : Nat := ((s.ownerOf c).map (·.id)).getD 16

/-- A core that is there: neither absent, lost nor in a lost cluster (R237, R240). -/
def State.present (s : State) (c : CoreId) : Bool :=
  namesCore c && !s.parlour.absent.contains c && !s.parlour.silent.contains c && !s.parlour.lostClusters.contains (clusterOf c)

/-- How many cores of a tenant are present. -/
def State.presentCount (s : State) (t : Tenant) : Nat :=
  (t.clusters.map (fun c => ((coresOf c).filter s.present).length)).sum

/-- Replace a tenant. -/
def State.setTenant (s : State) (t : Tenant) : State :=
  { s with tenants := s.tenants.map (fun u => if u.id = t.id then t else u) }

/-- Change a tenant. -/
def State.onTenant (s : State) (n : Nat) (f : Tenant → Tenant) : State :=
  { s with tenants := s.tenants.map (fun u => if u.id = n then f u else u) }

/-- A vat's record, valid or not. -/
def Tenant.vat? (t : Tenant) (i : Nat) : Option Vat := t.vats.find? (fun v => v.index = i)

/-- A valid vat. -/
def Tenant.liveVat (t : Tenant) (i : Nat) : Option Vat := (t.vat? i).filter (·.valid)

/-- Replace or add a vat's record. -/
def Tenant.setVat (t : Tenant) (v : Vat) : Tenant :=
  if t.vats.any (fun u => u.index = v.index) then
    { t with vats := t.vats.map (fun u => if u.index = v.index then v else u) }
  else { t with vats := t.vats ++ [v] }

/-- The home launch unit's die: the lowest-numbered die with a cluster of the tenant (R75). -/
def Tenant.homeDie (t : Tenant) : Nat := (t.clusters.map dieOf).foldl Nat.min 31

/-- The router of a die's launch unit (R12). -/
def launchUnit (die : Nat) : CoreId := mkCore die 12 13 0

/-- The dies on which a tenant owns a cluster, lowest first. -/
def Tenant.dies (t : Tenant) : List Nat := (List.range 32).filter (fun d => t.clusters.any (fun c => dieOf c = d))

/-- The bytes of a tenant's ranges together. -/
def Tenant.rangeBytes (t : Tenant) : Nat := (t.ranges.map (·.2)).sum

/-- The physical address of byte `v` of the ranges joined (R154). -/
def rangeAt : List (Nat × Nat) → Nat → Option Nat
  | [], _ => none
  | (b, n) :: r, v => if v < n then some (b + v) else rangeAt r (v - n)

/-- VATROOT: the start of range 0 (R251). -/
def Tenant.vatRoot (t : Tenant) : Nat := (t.ranges.headD (0, 0)).1
/-- PARTMAP: the ownership table at range 0 + 64 KiB (R251). -/
def Tenant.partMap (t : Tenant) : Nat := t.vatRoot + 0x10000

/-- A gang by its key. -/
def State.gang? (s : State) (k : Nat) : Option Gang := s.gangs.find? (fun g => g.key = k)

/-- Change a gang. -/
def State.onGang (s : State) (k : Nat) (f : Gang → Gang) : State :=
  { s with gangs := s.gangs.map (fun g => if g.key = k then f g else g) }

/-- Whether the member at a core is being saved, so that its copies are suspended (R177). -/
def State.savingAt (s : State) (c : CoreId) : Bool := ((s.core c).gang.bind s.gang?).any (fun g => g.phase = .saving)

/-- The binding in which a core is the worker (R219). -/
def State.workerBinding (s : State) (c : CoreId) : Option Binding := s.bindings.find? (fun b => b.worker = c)
/-- The binding in which a core is the lifeguard (R219). -/
def State.guardBinding (s : State) (c : CoreId) : Option Binding := s.bindings.find? (fun b => b.guard = c)

/-- Change the binding of a worker. -/
def State.onBinding (s : State) (worker : CoreId) (f : Binding → Binding) : State :=
  { s with bindings := s.bindings.map (fun b => if b.worker = worker then f b else b) }

/-! ## Slices, translation homes and packets -/

/-- A slice; one that is not listed holds nothing. -/
def State.slice (s : State) (id : CoreId) : Slice := (assoc? id s.slices).getD {}
/-- Replace a slice. -/
def State.setSlice (s : State) (id : CoreId) (x : Slice) : State := { s with slices := assocSet id x s.slices }
/-- Change a slice. -/
def State.onSlice (s : State) (id : CoreId) (f : Slice → Slice) : State := s.setSlice id (f (s.slice id))
/-- A translation home; one that is not listed holds nothing. -/
def State.thome (s : State) (id : CoreId) : THome := (assoc? id s.thomes).getD {}
/-- Change a translation home. -/
def State.onTHome (s : State) (id : CoreId) (f : THome → THome) : State :=
  { s with thomes := assocSet id (f (s.thome id)) s.thomes }

/-- A packet in flight. -/
def State.packet (s : State) (id : Nat) : Option Packet := s.net.find? (fun p => p.id = id)
/-- A packet leaves the mesh. -/
def State.dropPacket (s : State) (id : Nat) : State := { s with net := s.net.filter (fun p => p.id ≠ id) }
/-- A packet enters the mesh (R94): its virtual network and priority class. -/
def State.sendPacket (s : State) (vnet pri : BitVec 2) (b : Body) : State :=
  { s with net := s.net ++ [{ id := s.nextPkt, vnet := vnet, pri := pri, body := b }], nextPkt := s.nextPkt + 1 }

/-- A packet enters the mesh in the place of another, with its class and with what its prefetch has met (R95, R345). -/
def State.sendOn (s : State) (p : Packet) (vnet : BitVec 2) (b : Body) : State :=
  { s with net := s.net ++ [{ id := s.nextPkt, vnet := vnet, pri := p.pri, acquired := p.acquired, body := b }], nextPkt := s.nextPkt + 1 }

/-- One more on a saturating doubleword (R254). -/
def satInc (w : Word) : Word := if w = 0xFFFFFFFFFFFFFFFF#64 then w else w + 1#64

/-- One more on a health counter (R254). -/
def State.health (s : State) (i : Nat) : State :=
  let v := s.parlour.health
  let v' := if h : i < 100 then v.set i (satInc v[i]) else v
  { s with parlour := { s.parlour with health := v' } }

/-- Wake the contexts of a core whose wait satisfies a test: each issues its instruction again. -/
def Core.wake (c : Core) (p : WaitKind → Bool) : Core :=
  let up (x : Context) : Context := if x.st = .waiting && p x.op.wait then { x with st := .ready } else x
  { c with ctx0 := up c.ctx0, ctx1 := up c.ctx1, ctx2 := up c.ctx2, ctx3 := up c.ctx3 }

/-- Wake contexts of a core of the module. -/
def State.wake (s : State) (id : CoreId) (p : WaitKind → Bool) : State := s.onCore id (fun c => c.wake p)

/-- Whether an instruction of a context has an answer coming, or one that has come and not been used, whatever it now waits for: a load, an
atomic, a SPAWN, a SHOOT or a translation (R177, R355). -/
def Context.owed (x : Context) : Bool :=
  (x.st = .waiting || x.st = .ready)
  && ((match x.op.wait with | .translation | .fill | .reply | .spawnAnswer => true | _ => false)
      || (x.op.phase = 9 && (x.op.result.isSome || x.op.status.isSome || x.op.fault.isSome)))

/-- A context of a gang that is saved stops issuing (R177): a parked one restarts at its trapping instruction, and one whose
instruction has an answer coming stops once that instruction has ended, for which it waits for no room in the log. -/
def Context.stop (x : Context) : Context :=
  if x.st = .free || x.st = .saving then x
  else if x.owed then (if x.st = .waiting && x.op.wait = .lag then { x with st := .ready } else x)
  else match x.st, x.op.wait with
    | .parked, _ => { x with st := .saving, op := {} }
    | .waiting, .fetch => { x with st := .saving, op := { elapsed := x.op.elapsed } }
    | .waiting, _ => { x with st := .saving, op := { x.op with leaf := none } }
    | _, _ => { x with st := .saving, op := { x.op with leaf := none, wait := .none } }

/-- Every context of a core stops issuing (R177); the upcalls of the parked ones are dropped with them. -/
def Core.stopAll (c : Core) : Core :=
  { c with ctx0 := c.ctx0.stop, ctx1 := c.ctx1.stop, ctx2 := c.ctx2.stop, ctx3 := c.ctx3.stop
           svcq := c.svcq.filter (fun t => t.index ≠ 254#8) }

/-- Whether a context is saved while it waits in an episode: what comes of the episode before its image is written still ends its instruction
(R177, R326). -/
def Context.savedInEpisode (x : Context) : Bool := x.st = .saving && (match x.op.wait with | .group _ => true | _ => false)

/-- Give a waiting instruction its answer: the context issues it again if the activation is still the one that asked. -/
def State.answer (s : State) (r : Req) (f : OpState → OpState) : State :=
  if r.bg then s else
  s.onCtx r.core r.ctx (fun x =>
    if (x.st = .waiting || x.savedInEpisode) && x.act.serial = r.serial then { x with st := .ready, op := f x.op }
    else if x.act.serial = r.serial && x.st ≠ .free then { x with op := f x.op }
    else x)

end Sys2Proof.Machine
end

