-- ==== Sys2Proof/Machine/Home.lean ====
section
/-! DEFINITION. The homes of memory: HBM with its keys and poison (R116, R238), the slices that hold lines of vats under the
write policies and shares of R120 to R123, replicas, retirement, resizing and offline shares (R124, R128 to R130), and host
and peer memory (R244, R246). -/
namespace Sys2Proof.Machine

/-! ## HBM -/

/-- Whether some cells hold every byte of the 64-byte line. -/
def wholeLine (cells : List Host.Cell) (line : Nat) : Bool :=
  (List.range 64).all (fun i => cells.any (fun c => c.1 = 64 * line + i))

/-- The key under which a tenant's lines of one encryption state are written: 0 for plain lines (R116). -/
def keyFor (t : Tenant) (e : Bool) : Nat := if e then t.key else 0

/-- A free byte (R116: what a read of an encrypted line without its key shows is not stated; log entry 12). -/
def freeByteAt (tick a : Nat) : Byte := (Config.freeWord (2 ^ 64 * (tick + 1) + a)).setWidth 8

/-- The other bytes of a line that is written in part under another key than it holds: free (R116; log entry 12). -/
def State.mixedCells (s : State) (key : Nat) (cells : List Host.Cell) (line : Nat) : List Host.Cell :=
  if wholeLine cells line || (assoc? line s.hbmKey).all (· = key) then []
  else ((List.range 64).map (64 * line + ·)).filterMap (fun a =>
    if cells.any (fun c => c.1 = a) then none else some (a, freeByteAt s.tick (2 ^ 60 + a)))

/-- Write bytes to HBM under a key. A whole line clears the line's poison, and a partial write leaves it (R238); a page without poison is
no longer counted (R241). -/
def State.hbmWrite (s : State) (key : Nat) (cells : List Host.Cell) : State :=
  let lines := distinct (cells.map (fun c => c.1 / 64))
  let poison := s.hbmPoison.filter (fun l => !(lines.contains l && wholeLine cells l))
  { s with
    hbm := (s.hbm.writeCells (lines.flatMap (s.mixedCells key cells))).writeCells cells
    hbmPoison := poison
    hbmKey := lines.foldl (fun m l => assocSet l key m) s.hbmKey
    parlour := { s.parlour with poisonedPages := s.parlour.poisonedPages.filter (fun p => poison.any (fun l => l / 64 = p)) } }

/-- Lines of HBM become poisoned (R234): the pages that had no poison are counted, and a stack with more than 4,096 asks for a
replacement (R241, R254). -/
def State.poisonLines (s : State) (lines : List Nat) : State :=
  let fresh := (distinct (lines.map (· / 64))).filter (fun p => !s.parlour.poisonedPages.contains p)
  let pages := fresh ++ s.parlour.poisonedPages
  let many := fresh.any (fun p => 4096 < (pages.filter (fun q => q / 2 ^ 25 = p / 2 ^ 25)).length)
  let s1 := fresh.foldl (fun s _ => s.health 98) s
  { s1 with hbmPoison := distinct (lines ++ s1.hbmPoison)
            parlour := { s1.parlour with poisonedPages := pages, state := if many then 3 else s1.parlour.state } }

/-- Lines of HBM that satisfy a test are zeroed by the parlour and lose their poison; a page without poison is no longer counted (R241, R254). -/
def State.clearPoison (s : State) (p : Nat → Bool) : State :=
  let poison := s.hbmPoison.filter (fun l => !p l)
  { s with hbmPoison := poison
           parlour := { s.parlour with poisonedPages := s.parlour.poisonedPages.filter (fun q => poison.any (fun l => l / 64 = q)) } }

/-- The bytes of one 64-byte line of HBM as a requester with a key reads them, and whether they are poisoned: a line whose
integrity tag does not match delivers an uncorrectable error (R116). -/
def State.hbmLine (s : State) (key line : Nat) : Memory × Bool :=
  let data := s.hbm.slice (64 * line) 64
  let bad := s.hbmPoison.contains line
  match assoc? line s.hbmKey with
  | none => (data, bad)
  | some k =>
    if k = key then (data, bad)
    else if key ≠ 0 then (data, true)
    else ((List.range 64).foldl (fun m i => m.set (64 * line + i) (freeByteAt s.tick (64 * line + i))) [], bad)

/-- Read `k` lines of HBM one after another, with a poison bit for each. -/
def State.hbmLines (s : State) (key line : Nat) : Nat → Memory × Nat
  | 0 => ([], 0)
  | k + 1 =>
    let (d, p) := s.hbmLine key line
    let (r, q) := State.hbmLines s key (line + 1) k
    (d ++ r, (if p then 1 else 0) + 2 * q)

/-! ## Lines in slices -/

/-- The line of a tenant's vat that a slice holds at an aligned address. -/
def Slice.line? (sl : Slice) (tn vat base : Nat) : Option SLine :=
  sl.lines.find? (fun l => l.tenant = tn && l.vat = vat && l.pa = base)

/-- Take a line out of a slice. -/
def Slice.without (sl : Slice) (tn vat base : Nat) : Slice :=
  { sl with lines := sl.lines.filter (fun l => !(l.tenant = tn && l.vat = vat && l.pa = base)) }

/-- The dirty bytes of a slice line. -/
def SLine.dirtyCells (l : SLine) : List Host.Cell :=
  ((List.range (2 ^ l.lg)).filter (fun i => l.dirty.getLsbD i)).map (fun i => (l.pa + i, l.data.get (l.pa + i)))

/-- The 64-byte lines of a slice line that are poisoned. -/
def SLine.badLines (l : SLine) : List Nat := ((List.range (2 ^ (l.lg - 6))).filter (fun i => l.poison.getLsbD i)).map (fun i => l.pa / 64 + i)

/-- Whether a physical address lies in a range of the tenant (R251). -/
def Tenant.owns (t : Tenant) (pa : Nat) : Bool := t.ranges.any (fun r => r.1 ≤ pa && pa < r.1 + r.2)

/-- Whether an HBM address belongs to another tenant than the one that uses it (R5). DESIGN CHOICE: a leaf may name such a frame, and no rule names
a fault for it; its reads then give free bytes and its writes are discarded, so that nothing reaches the other tenant's memory (log entry 89). -/
def State.foreign (s : State) (t : Tenant) (pa : Nat) : Bool :=
  !t.owns pa && s.tenants.any (fun u => u.id ≠ t.id && u.owns pa)

/-- Free bytes, where a tenant reads what is no memory of its own (R5; log entry 89). -/
def State.freeBytes (s : State) (pa n : Nat) : List Byte :=
  (List.range n).map (fun i => (Config.freeWord (2 ^ 110 * (s.tick + 1) + pa + i)).setWidth 8)

/-- Write a line's dirty bytes to HBM, with its poison (R121, R234, R384); a clean line is not written, nor one of another tenant's memory (R5). -/
def State.writeBackLine (s : State) (l : SLine) : State :=
  match s.tenant l.tenant with
  | none => s
  | some t =>
    if l.dirty = 0#256 || s.foreign t l.pa then s else (s.hbmWrite (keyFor t l.e) l.dirtyCells).poisonLines l.badLines

/-- A share gives a line up: it is written back, and HBM takes its poison, dirty or not (R130). -/
def State.giveUpLine (s : State) (l : SLine) : State :=
  if (s.tenant l.tenant).any (fun t => s.foreign t l.pa) then s else (s.writeBackLine l).poisonLines l.badLines

/-- The lines in the groups of ways of a home's set, whichever generation of the vat has put them there (R121, R128). -/
def Slice.linesIn (sl : Slice) (h : Home) : List SLine :=
  sl.lines.filter (fun l => l.bank = h.bank && l.set = h.set && h.groups.contains l.group)

/-- The lowest group of a home that holds no line of its set. -/
def Slice.freeGroup? (sl : Slice) (h : Home) : Option Nat := h.groups.find? (fun g => !(sl.linesIn h).any (fun l => l.group = g))

/-- Make room in a home's set and name the group: a free one, or that of the least recently used line, which is evicted (R121). -/
def State.makeRoom (s : State) (h : Home) : State × Nat :=
  let sl := s.slice h.slice
  match sl.freeGroup? h, (sl.linesIn h).getLast? with
  | some g, _ => (s, g)
  | none, some v => ((s.writeBackLine v).onSlice h.slice (fun sl => sl.without v.tenant v.vat v.pa), v.group)
  | none, none => (s, 0)

/-- Make a line most recently used, or least recently used in a vat whose policy is streaming (R121). -/
def Slice.place (sl : Slice) (l : SLine) (stream : Bool) : Slice :=
  let r := (sl.without l.tenant l.vat l.pa).lines
  { sl with lines := if stream then r ++ [l] else l :: r }

/-- Put a line into its home, most recently or least recently used (R121). -/
def State.install (s : State) (v : Vat) (h : Home) (l : SLine) (stream : Bool) : State :=
  let (s1, g) := s.makeRoom h
  s1.onSlice h.slice (fun sl => sl.place { l with share := h.share, gen := v.cur.gen, bank := h.bank, group := g, set := h.set } stream)

/-- Whether some ways of a bank of a slice are offline (R130). -/
def Slice.waysOff (sl : Slice) (bank : BitVec 3) (ways : BitVec 16) : Bool := sl.offline.any (fun o => o.1 = bank && o.2 &&& ways ≠ 0#16)

/-- Whether a home share is offline (R130). -/
def State.isOffline (s : State) (v : Vat) (h : Home) : Bool :=
  (v.cur.shares[h.share]?).any (fun sh => (s.slice h.slice).waysOff sh.bank sh.ways)

/-- The home of a line under the vat's old generation during a resize, for a request whose home is now `h` (R128); replicas are moved die by
die (R129). -/
def oldHome (v : Vat) (pl : BitVec 2) (die pa : Nat) (h : Home) : Option Home :=
  let replicated := (placement v v.cur pl).toNat = 3
  v.old.bind (fun g => homeUnder v g pl (if replicated then dieOf h.slice else die) pa replicated)

/-- The dies whose accesses to a line the vat's old generation sends to a slice: under placement 01 they may be several (R122, R128). -/
def servedDies (dies : List Nat) (v : Vat) (pl : BitVec 2) (pa : Nat) (slice : CoreId) : List Nat :=
  dies.filter (fun d => (v.old.bind (fun g => homeUnder v g pl d pa false)).any (fun o => o.slice = slice))

/-- Whether every die that an old home serves now has the new home given, so that the line can go there with its dirty bytes (R129); a replica
serves its own die. -/
def movesWhole (dies : List Nat) (v : Vat) (pl : BitVec 2) (pa : Nat) (src : CoreId) (h : Home) : Bool :=
  (placement v v.cur pl).toNat = 3 || (servedDies dies v pl pa src).all (fun d => homeUnder v v.cur pl d pa false = some h)

/-- Move a line with its dirty bytes, its stamps and its address waits to its home under the present generation (R129). A home that is offline, or
that holds the line already, takes no data: the line is written back (R130). DESIGN CHOICE: where the line serves dies whose homes now differ
(placement 01), it goes there written back, and every other home finds HBM current; and a moved line is its new set's most recently used one,
whatever the vat's policy (R129 is silent on both; log entry 71). -/
def State.moveLine (s : State) (tn : Nat) (v : Vat) (base : Nat) (src : CoreId) (h : Home) : State :=
  match (s.slice src).line? tn v.index base with
  | none => s
  | some l =>
    let inLine (a : Nat) : Bool := base ≤ a && a < base + 2 ^ v.lg
    let stamps := ((s.slice src).stamps ++ (s.slice src).newStamps).filter (fun st => inLine st.xl.pa)
    let waits := (s.slice src).waits.filter (fun w => inLine w.xl.pa)
    let s1 := s.onSlice src (fun sl =>
      { sl.without tn v.index base with
        stamps := sl.stamps.filter (fun st => !inLine st.xl.pa), newStamps := sl.newStamps.filter (fun st => !inLine st.xl.pa)
        waits := sl.waits.filter (fun w => !inLine w.xl.pa) })
    let s2 := s1.onSlice h.slice (fun sl => { sl with newStamps := sl.newStamps ++ stamps, waits := sl.waits ++ waits })
    if s2.isOffline v h then s2.giveUpLine l
    else if ((s2.slice h.slice).line? tn v.index base).isSome then s2.writeBackLine l
    else if movesWhole ((s.tenant tn).elim [] Tenant.dies) v l.pl base src h then s2.install v h l false
    else (s2.writeBackLine l).install v h { l with dirty := 0#256 } false

/-- A dual probe (R128): during a resize, the new home of a line that does not hold it takes it from the old home, if that one does. -/
def State.probe (s : State) (tn : Nat) (v : Vat) (pl : BitVec 2) (die pa : Nat) (h : Home) : State :=
  let base := pa / 2 ^ v.lg * 2 ^ v.lg
  if v.state ≠ 1 || ((s.slice h.slice).line? tn v.index base).any (fun l => l.gen = v.cur.gen) then s
  else match oldHome v pl die pa h with
    | some o => s.moveLine tn v base o.slice h
    | none => s

/-- Bring a line into its home slice from HBM, and touch it (R121). DESIGN CHOICE: a hit in a streaming vat does not touch it (log entry 93). -/
def State.bring (s : State) (t : Tenant) (v : Vat) (xl : Xl) (h : Home) : State :=
  let base := xl.pa / 2 ^ v.lg * 2 ^ v.lg
  let stream := v.wpol = 3#2
  match (s.slice h.slice).line? t.id v.index base with
  | some l => if stream then s else s.onSlice h.slice (fun sl => sl.place l false)
  | none =>
    let (data, bad) := s.hbmLines (keyFor t xl.e) (base / 64) (2 ^ v.lsz.toNat)
    s.install v h { tenant := t.id, vat := v.index, share := h.share, set := h.set, pa := base, lg := v.lg, pl := xl.pl, e := xl.e
                    data := data, poison := BitVec.ofNat 4 bad } stream

/-- How an access to an HBM line is served: in a slice, where a retiring vat's line still lies, or at HBM (R124, R130). -/
inductive Served where
  | slice (v : Vat) (h : Home)
  | stays (v : Vat) (src : CoreId)
  | memory
  deriving DecidableEq, Repr

/-- How a home serves an access to a line of a vat (R124, R130). -/
def State.servedBy (s : State) (tn : Nat) (v : Vat) (h : Home) (pa : Nat) : Served :=
  if v.state = 2 then
    (if ((s.slice h.slice).line? tn v.index (pa / 2 ^ v.lg * 2 ^ v.lg)).isSome then .stays v h.slice else .memory)
  else if s.isOffline v h then .memory
  else .slice v h

/-- The vat and the home of an access to an HBM frame (R122, R123). -/
def Tenant.homeFor (t : Tenant) (xl : Xl) (die : Nat) (load : Bool) : Option (Vat × Home) :=
  (t.liveVat xl.vat).bind (fun v => (homeUnder v v.cur xl.pl die xl.pa load).map (fun h => (v, h)))

/-- Where an access to an HBM frame is served for a requester on a die (R122 to R124, R130). -/
def State.servedAt (s : State) (t : Tenant) (xl : Xl) (die : Nat) (load : Bool) : Served :=
  (t.homeFor xl die load).elim .memory (fun p => s.servedBy t.id p.1 p.2 xl.pa)

/-- The state once an access's home has probed the old home of its line (R128). -/
def State.probed (s : State) (t : Tenant) (xl : Xl) (die : Nat) (load : Bool) : State :=
  (t.homeFor xl die load).elim s (fun p => s.probe t.id p.1 xl.pl die xl.pa p.2)

/-- The slice that is an access's home, which keeps its stamps and waits whether or not it holds data (R130, R131); an
attachment's router for host and peer frames (R115). -/
def State.homeOf (s : State) (tn : Nat) (xl : Xl) (die : Nat) (load : Bool) : CoreId :=
  match xl.region with
  | .host => hostAttachment xl.pa
  | .peer => blulinRouter (((s.tenant tn).bind (fun t => assoc? (fld xl.pa 44 6) t.windows)).elim 0 (fun w => fld w.toNat 56 7))
  | .hbm =>
    ((s.tenant tn).bind (fun t => (t.liveVat xl.vat).bind (fun v => homeUnder v v.cur xl.pl die xl.pa load))).elim
      (mkCore (xl.pa / 2 ^ 37 % 32) (xl.pa % 2 ^ 37 / 256 % 24) 0 0) (·.slice)

/-- The scope of an access: the narrowest that contains the core and the home (R131). -/
def State.scopeOfHome (s : State) (core : CoreId) (xl : Xl) (load : Bool) : Scope :=
  match xl.region with
  | .hbm => scopeOf core (s.homeOf (s.tenantNo core) xl (dieOf core) load)
  | _ => 3#2

/-! ## Reading and writing at the home -/

/-- The host bus address of a host frame (R114, R244). -/
def busOf (t : Tenant) (pa : Nat) : Nat := t.aperture + pa % 2 ^ 48

/-- The key of a peer byte: the peer module, the tenant there and its physical address (R114, R246). -/
def peerKey (t : Tenant) (pa : Nat) : Nat :=
  ((assoc? (fld pa 44 6) t.windows).elim 0 (fun w => fld w.toNat 28 20)) * 2 ^ 44 + pa % 2 ^ 44

/-- Whether a peer refuses a request (R246): its own grant list, which the module does not know, decides. DESIGN CHOICE: free for each request
(log entry 28). -/
def State.peerDenies (s : State) (t : Tenant) (xl : Xl) : Bool :=
  xl.region = .peer && (Config.freeWord (2 ^ 113 * (s.tick + 1) + peerKey t xl.pa / 2 ^ 44)).getLsbD 0

/-- Host memory once every posted write has reached it. -/
def State.hostView (s : State) : Memory := s.parlour.posted.foldl (fun m p => m.writeCells p.cells) s.hostMem

/-- The posted writes reach host memory: a read does not pass them (R245). -/
def State.pushHost (s : State) : State :=
  { s with hostMem := s.hostView, parlour := { s.parlour with posted := s.parlour.posted.map (fun p => { p with cells := [] }) } }

/-- An atomic of host memory has completed there, so its write is not a posted one (R244, R245). -/
def State.hostDone (s : State) (xl : Xl) : State := if xl.region = .host then s.pushHost else s

/-- Post a write at a host port; the port issues its zero-length read after it, unless one is outstanding (R245). -/
def State.post (s : State) (port : Nat) (cells : List Host.Cell) : State :=
  { s with parlour := { s.parlour with posted := s.parlour.posted
      ++ [{ port := port, cells := cells, asked := !s.parlour.posted.any (fun p => p.port = port) }] } }

/-- Read `n` bytes of a line at its home: the state with the line brought in, the bytes and whether any is poisoned (R121,
R132, R236). -/
def State.readHome (s : State) (t : Tenant) (die : Nat) (xl : Xl) (n : Nat) (load : Bool) : State × List Byte × Bool :=
  match xl.region with
  | .host => (s.pushHost, s.hostView.read (busOf t xl.pa) n, s.parlour.linkDown.contains t.aport)
  | .peer => (s, s.peerMem.read (peerKey t xl.pa) n, false)
  | .hbm =>
    if s.foreign t xl.pa then (s, s.freeBytes xl.pa n, false) else
    let fromLine (s1 : State) (v : Vat) (src : CoreId) : State × List Byte × Bool :=
      let base := xl.pa / 2 ^ v.lg * 2 ^ v.lg
      match (s1.slice src).line? t.id v.index base with
      | none => (s1, [], false)
      | some l => (s1, l.data.read xl.pa n, l.poison.getLsbD ((xl.pa - base) / 64))
    let p := s.probed t xl die load
    match p.servedAt t xl die load with
    | .slice v h => fromLine (p.bring t v xl h) v h.slice
    | .stays v src => fromLine p v src
    | .memory =>
      let (m, bad) := p.hbmLine (keyFor t xl.e) (xl.pa / 64)
      (p, m.read xl.pa n, bad)

/-- Write cells of one line into a slice line and mark them dirty; a whole 64-byte line clears its poison, and a poisoned
write poisons it (R234, R238, R384). -/
def SLine.write (l : SLine) (cells : List Host.Cell) (poison dirty : Bool) : SLine :=
  let mask := cells.foldl (fun m c => m ||| (1#256 <<< (c.1 - l.pa))) 0#256
  let sub := ((cells.head?).elim 0 (fun c => (c.1 - l.pa) / 64))
  let p := if poison then l.poison ||| (1#4 <<< sub)
           else if (cells.head?).any (fun c => wholeLine cells (c.1 / 64)) then l.poison &&& ~~~(1#4 <<< sub)
           else l.poison
  { l with data := l.data.writeCells cells, dirty := if dirty then l.dirty ||| mask else l.dirty, poison := p }

/-- Change the line that a slice holds. -/
def Slice.onLine (sl : Slice) (tn vat base : Nat) (f : SLine → SLine) : Slice :=
  { sl with lines := sl.lines.map (fun l => if l.tenant = tn && l.vat = vat && l.pa = base then f l else l) }

/-- Poison or write a line of HBM directly. -/
def State.memWrite (s : State) (t : Tenant) (e : Bool) (cells : List Host.Cell) (poison : Bool) : State :=
  let s1 := s.hbmWrite (keyFor t e) cells
  if poison then s1.poisonLines (cells.map (fun c => c.1 / 64)) else s1

/-- Write cells into the line that a slice holds, and under write-through and write-around to HBM as well (R121). DESIGN CHOICE: a
write-around write that hits does not move the line in its set's order (log entry 93). -/
def State.writeHeld (s : State) (t : Tenant) (v : Vat) (xl : Xl) (slice : CoreId) (cells : List Host.Cell) (poison : Bool) : State :=
  let held (dirty : Bool) : State := s.onSlice slice (fun sl =>
    sl.onLine t.id v.index (xl.pa / 2 ^ v.lg * 2 ^ v.lg) (fun l => { l.write cells poison dirty with e := xl.e }))
  if v.wpol = 1#2 || v.wpol = 2#2 then (held false).memWrite t xl.e cells poison else held true

/-- Write cells of one line at one slice under the vat's write policy (R121): all but write-around allocate the line. -/
def State.writeAtSlice (s : State) (t : Tenant) (v : Vat) (xl : Xl) (h : Home) (cells : List Host.Cell) (poison : Bool) : State :=
  (if v.wpol = 2#2 then s else s.bring t v xl h).writeHeld t v xl h.slice cells poison

/-- Write cells of one HBM line as its home serves them (R121, R124, R130). -/
def State.writeServed (s : State) (t : Tenant) (xl : Xl) (cells : List Host.Cell) (poison : Bool) : Served → State
  | .slice v h => s.writeAtSlice t v xl h cells poison
  | .stays v src => s.writeHeld t v xl src cells poison
  | .memory => s.memWrite t xl.e cells poison

/-- Write cells of one line at their home, or for host and peer frames at the memory outside (R121, R124, R130, R150). -/
def State.writeHome (s : State) (t : Tenant) (die : Nat) (xl : Xl) (cells : List Host.Cell) (poison : Bool) : State :=
  match xl.region with
  | .host =>
    if s.parlour.linkDown.contains t.aport then s
    else s.post t.aport (cells.map (fun c => (busOf t c.1, c.2)))
  | .peer => { s with peerMem := s.peerMem.writeCells (cells.map (fun c => (peerKey t c.1, c.2))) }
  | .hbm =>
    if s.foreign t xl.pa then s else
    let p := s.probed t xl die false; p.writeServed t xl cells poison (p.servedAt t xl die false)

/-- Write cells at a further replica of placement 11, wherever it now lies on the die of a slice (R122, R124, R128, R130, R149, R384). -/
def State.writeReplica (s : State) (t : Tenant) (xl : Xl) (slice : CoreId) (cells : List Host.Cell) (poison : Bool) : State :=
  if s.foreign t xl.pa then s else
  match (t.liveVat xl.vat).bind (fun v => (replicaOn v v.cur xl.pl (dieOf slice) xl.pa).map (fun h => (v, h))) with
  | some (v, h) => let p := s.probe t.id v xl.pl (dieOf slice) xl.pa h; p.writeServed t xl cells poison (p.servedBy t.id v h xl.pa)
  | none => s

/-- The replicas that a store still has to reach after the primary (R149). -/
def State.otherReplicas (t : Tenant) (xl : Xl) : List CoreId :=
  match xl.region with
  | .hbm => (t.liveVat xl.vat).elim [] (fun v => replicas v v.cur xl.pl xl.pa)
  | _ => []

/-- A physical address as the units reach it: vat 0 under placement 00 (R159, R251). One that names no memory of the tenant is not reached
(log entry 89). -/
def physXl (pa : Nat) : Xl := { pa := pa, vat := 0, pl := 0#2, region := (regionOf pa).getD .hbm }

/-- Whether a physical address that a supervisor has given names memory of its tenant (R5, R114). DESIGN CHOICE: a unit's read elsewhere gives
a free value and its write is discarded (the manual states a fault for a leaf's frame only; log entry 89). -/
def Tenant.reaches (t : Tenant) (pa : Nat) : Bool :=
  match regionOf pa with
  | some .hbm => t.owns pa
  | some .host => true
  | some .peer => (assoc? (fld pa 44 6) t.windows).any (fun w => w.getLsbD 63)
  | none => false

/-- Bytes of one line of physical memory read by a unit at their home; where they name no memory of the tenant they are free (R5; log entry 89). -/
def State.readUnit (s : State) (t : Tenant) (pa n : Nat) : State × List Byte × Bool :=
  if t.reaches pa then s.readHome t t.homeDie (physXl pa) n true
  else (s, s.freeBytes pa n, false)

/-- A doubleword of physical memory read by a unit. -/
def State.readPhys (s : State) (t : Tenant) (pa : Nat) : State × Word × Bool :=
  let (s1, bs, bad) := s.readUnit t pa 8
  (s1, BitVec.ofNat 64 (leOf bs), bad)

/-- Some doublewords of physical memory read by a unit, line by line. -/
def State.readPhysN (s : State) (t : Tenant) (pa : Nat) : Nat → State × List Word × Bool
  | 0 => (s, [], false)
  | n + 1 =>
    let (s1, w, bad) := s.readPhys t pa
    let (s2, r, bad') := State.readPhysN s1 t (pa + 8) n
    (s2, w :: r, bad || bad')

/-! ## Vat records (R119) -/

/-- The share entry of a share (R117). -/
def Share.word (sh : Share) : Word :=
  headerForm sh.slice ||| BitVec.ofNat 64 (sh.bank.toNat * 65536 + sh.ways.toNat)

/-- The share that an entry describes (R117). -/
def shareOf (w : Word) : Share :=
  { slice := coreIn w, bank := BitVec.ofNat 3 (fld w.toNat 16 3), ways := BitVec.ofNat 16 (fld w.toNat 0 16) }

/-- The eight doublewords of a vat's record (R119). -/
def Vat.record (v : Vat) : List Word :=
  let flag (b : Bool) : Nat := if b then 1 else 0
  let o : VatGen := v.old.getD {}
  let busy := v.old.isSome
  let on (n : Nat) : Nat := if busy then n else 0
  let nv (g : VatGen) : Nat := flag g.named.isSome
  let named (g : VatGen) : Nat := (g.named.getD 0#20).toNat
  let on1 := named o
  if !v.valid then [BitVec.ofNat 64 (v.cur.gen.toNat * 2 ^ 32), 0#64, 0#64, 0#64, 0#64, 0#64, 0#64, 0#64]
  else
    [ BitVec.ofNat 64 (2 ^ 63 + v.cur.gen.toNat * 2 ^ 32 + v.lsz.toNat * 16 + v.wpol.toNat * 4 + v.dpl.toNat),
      BitVec.ofNat 64 (nv v.cur * 2 ^ 52 + named v.cur * 2 ^ 32 + v.cur.shares.length),
      BitVec.ofNat 64 v.cur.list,
      BitVec.ofNat 64 v.dies.toNat,
      BitVec.ofNat 64 (on o.list),
      BitVec.ofNat 64 (on (o.gen.toNat * 2 ^ 48 + o.shares.length * 2 ^ 30
        + (on1 % 32 * 2 ^ 25 + on1 / 32 % 32 * 2 ^ 20 + on1 / 1024 % 32 * 2 ^ 15) + nv o * 2 ^ 9) + v.state),
      0#64, 0#64 ]


end Sys2Proof.Machine
end

