-- ==== Sys2Proof/Machine/Sync.lean ====
section
/-! DEFINITION. The sync-line tables of the slices: scope stamps and their drains (R147, R148), and the address-wait tables
with their tests (R375, R376). Every write performed at a home goes through `State.perform`, which tests the waits. -/
namespace Sys2Proof.Machine

/-! ## Scope stamps -/

/-- Whether a stamp lies on the line of an address: the slice's line, which has the size of its vat (R120, R147). -/
def Stamp.on (st : Stamp) (pa : Nat) : Bool := st.xl.pa / 2 ^ st.lg = pa / 2 ^ st.lg

/-- The stamp of a line, in the table or waiting for a place. -/
def Slice.stamp? (sl : Slice) (pa : Nat) : Option Stamp := (sl.newStamps ++ sl.stamps).find? (·.on pa)

/-- A core lies outside a stamp's scope when the narrowest scope containing it and the releaser is wider (R147). -/
def Stamp.outside (st : Stamp) (core : CoreId) : Bool := st.scope.toNat < (scopeOf st.core core).toNat

/-- The stamp that an acquiring core must have drained before a home answers it (R147). -/
def State.blockingStamp (s : State) (slice core : CoreId) (pa : Nat) : Option Stamp :=
  ((s.slice slice).stamp? pa).filter (fun st => st.outside core)

/-- Whether a drain for a stamp is already on its way. -/
def State.draining (s : State) (slice : CoreId) (st : Stamp) : Bool :=
  s.net.any (fun p => match p.body with
    | .drain _ sl a _ _ => sl = slice && st.on a
    | _ => false)

/-- Send a stamp's releaser the request to drain, unless one is on its way. DESIGN CHOICE: the request has priority class 0 (R95 is silent; log
entry 104). -/
def State.sendDrain (s : State) (slice : CoreId) (st : Stamp) (sc : Scope) (drop : Bool) : State :=
  if s.draining slice st then s else s.sendPacket 0#2 0#2 (.drain st.core slice st.xl.pa sc drop)

/-- The table of 64 retires its oldest stamp: its releaser is drained to mod (R148). -/
def State.retireStamp (s : State) (slice : CoreId) : State :=
  match (s.slice slice).stamps with
  | [] => s
  | st :: _ => s.sendDrain slice st 2#2 true

/-- Ask a stamp's releaser to drain (R147, R148); for a stamp that still waits for its place the table first retires its oldest. -/
def State.askDrain (s : State) (slice : CoreId) (st : Stamp) (sc : Scope) (drop : Bool) : State :=
  if (s.slice slice).newStamps.contains st then s.retireStamp slice else s.sendDrain slice st sc drop

/-- An event whose unit meets a stamp on its walk (R147, R159): the stamp's releaser is asked to drain, and the event leaves everything else as it
is, to take place once the stamp is drained. -/
def State.attempt (s : State) (f : State → State) : State :=
  if (f s).blocked = s.blocked then f s
  else
    match (f s).blocked with
    | none => f s
    | some (slice, st, sc) => s.askDrain slice st sc false

/-- The stamps that wait take the places that the table of 64 has free, the oldest first (R148). -/
def Slice.admitStamps (sl : Slice) : Slice :=
  let k := 64 - sl.stamps.length
  { sl with stamps := sl.stamps ++ sl.newStamps.take k, newStamps := sl.newStamps.drop k }

/-- The stamps that wait take the free places, and where some still wait the full table retires its oldest stamp: its releaser is drained
to mod (R148). -/
def State.placeStamps (s : State) (slice : CoreId) : State :=
  let s1 := s.onSlice slice Slice.admitStamps
  if (s1.slice slice).newStamps.isEmpty then s1 else s1.retireStamp slice

/-- Leave a stamp at the home slice; a later one to the same line replaces it (R147). DESIGN CHOICE: one that finds the table full waits for
its place while the oldest is retired, and an acquire of its line waits with it; its write does not wait, or two cores' drains could wait
for each other (R148; log entry 34). -/
def State.putStamp (s : State) (slice core : CoreId) (xl : Xl) (sc : Scope) : State :=
  let tn := s.tenantNo core
  let st : Stamp := { tenant := tn, xl := xl, lg := ((s.tenant tn).bind (fun t => t.liveVat xl.vat)).elim 6 Vat.lg, core := core, scope := sc }
  (s.onSlice slice (fun sl =>
    { sl with stamps := sl.stamps.filter (fun x => !st.on x.xl.pa), newStamps := sl.newStamps.filter (fun x => !st.on x.xl.pa) ++ [st] })).placeStamps slice

/-! ## Address waits -/

/-- The comparison of WAITA (R280): signed for LT and GE. -/
def waitCmp (cmp : BitVec 3) (x y : Word) : Bool :=
  match cmp.toNat with
  | 0 => x = y
  | 1 => x ≠ y
  | 2 => x.slt y
  | 3 => !x.slt y
  | 4 => x.ult y
  | _ => !x.ult y

/-- The value that a test compares: sign-extended for LT and GE, zero-extended otherwise (R280). -/
def waitExtend (cmp : BitVec 3) (n v : Nat) : Word :=
  if cmp = 2#3 || cmp = 3#3 then sextBytes n v else BitVec.ofNat 64 v

/-- The test of an entry on the bytes read for it (R375). -/
def WaitEntry.test (e : WaitEntry) (bytes : List Byte) : Bool :=
  waitCmp e.cmp (waitExtend e.cmp e.size (leOf bytes) &&& e.mask) (e.expected &&& e.mask)

/-- The scope at which an entry's requester acquires from a releaser: sys from another module (R138, R246). -/
def WaitEntry.scopeFrom (w : WaitEntry) (core : CoreId) : Scope := if w.peer.isSome then 3#2 else scopeOf core w.req.core

/-- The stamp that must be drained before an entry that holds is answered (R147). -/
def State.waitBlock (s : State) (slice : CoreId) (w : WaitEntry) : Option Stamp :=
  ((s.slice slice).stamp? w.xl.pa).filter (fun st => st.scope.toNat < (w.scopeFrom st.core).toNat)

/-- End an entry: its context goes on with its answer, and another module's answer leaves (R246, R375). -/
def State.endWait (s : State) (w : WaitEntry) (status : Nat) (f : OpState → OpState) : State :=
  match w.peer with
  | none => s.answer w.req f
  | some p => { s with parlour := { s.parlour with waitReplies := s.parlour.waitReplies ++ [(p.1, p.2.1, status)] } }

/-- Answer the satisfied entries of a slice whose line no stamp blocks; the others wait for their drain (R147, R375). -/
def State.answerHits (s : State) (slice : CoreId) : State :=
  let ready (w : WaitEntry) : Bool := w.hit && (s.waitBlock slice w).isNone
  let done := (s.slice slice).waits.filter ready
  let s1 := s.onSlice slice (fun sl => { sl with waits := sl.waits.filter (fun w => !ready w) })
  done.foldl (fun s w => s.endWait w 0 (fun o => { o with status := some 0 })) s1

/-- What a kill by poison reports (R236). -/
def poisonTrap (addr : Word) : TrapInfo := { cause := .uncorrectable, addr := addr }
/-- The kill of an atomic that consumes poison, which is a write access (R165, R236). -/
def poisonAtomic (addr : Word) : TrapInfo := { cause := .uncorrectable, write := true, addr := addr }

/-- Test the entries of a slice that overlap written bytes, in order (R375, R376). -/
def State.testWaits (s : State) (tn : Nat) (slice : CoreId) (lo n : Nat) : State :=
  let overlap (w : WaitEntry) : Bool := !w.hit && w.xl.pa < lo + n && lo < w.xl.pa + w.size
  let one (s : State) (w : WaitEntry) : State :=
    match s.tenant tn with
    | none => s
    | some t =>
      let (s1, bytes, bad) := s.readHome t (dieOf w.req.core) w.xl w.size false
      if bad then
        (s1.onSlice slice (fun sl => { sl with waits := sl.waits.filter (fun u => u ≠ w) })).endWait w 3
          (fun o => { o with fault := some (poisonTrap (BitVec.ofNat 64 w.xl.pa)) })
      else if w.test bytes then
        let s2 := s1.onSlice slice (fun sl =>
          { sl with waits := sl.waits.map (fun u => if u = w then { u with hit := true } else u) })
        match s2.waitBlock slice w with
        | some st => s2.askDrain slice st (w.scopeFrom st.core) false
        | none => s2
      else s1
  (((s.slice slice).waits.filter overlap).foldl one s).answerHits slice

/-- Test the entries held at a peer (R246, R376). -/
def State.testPeerWaits (s : State) (tn : Nat) (lo n : Nat) : State :=
  match s.tenant tn with
  | none => s
  | some t =>
    let met (w : WaitEntry) : Bool :=
      w.xl.pa < lo + n && lo < w.xl.pa + w.size && w.test (s.peerMem.read (peerKey t w.xl.pa) w.size)
    let done := s.peerWaits.filter met
    done.foldl (fun s w => s.answer w.req (fun o => { o with status := some 0 }))
      { s with peerWaits := s.peerWaits.filter (fun w => !met w) }

/-- Withdraw the entries of an activation (R375, R376). -/
def State.withdrawWaits (s : State) (core : CoreId) (ctx : CtxId) : State :=
  let mine (w : WaitEntry) : Bool := w.req.core = core && w.req.ctx = ctx
  { s with
    slices := s.slices.map (fun p => (p.1, { p.2 with waits := p.2.waits.filter (fun w => !mine w) }))
    peerWaits := s.peerWaits.filter (fun w => !mine w) }

/-! ## Performing writes -/

/-- Perform a write of one line at its home and test the waits on its bytes (R132, R375). -/
def State.perform (s : State) (t : Tenant) (die : Nat) (xl : Xl) (cells : List Host.Cell) (poison : Bool) : State :=
  let s1 := s.writeHome t die xl cells poison
  match cells.head?, cells.getLast? with
  | some a, some z =>
    match xl.region with
    | .hbm => s1.testWaits t.id (s.homeOf t.id xl die false) a.1 (z.1 + 1 - a.1)
    | .peer => s1.testPeerWaits t.id a.1 (z.1 + 1 - a.1)
    | .host => s1
  | _, _ => s1

/-- Acknowledge a write to its sender (R134). -/
def State.sendAck (s : State) (r : Req) (sc : Scope) : State := s.sendPacket 1#2 r.pri (.ack r sc)

/-- Whether a packet is a forwarded write of a line. -/
def Packet.forwards (p : Packet) (pa : Nat) : Bool :=
  match p.body with | .forward _ xl _ _ _ _ => xl.pa / 64 = pa / 64 | _ => false

/-- Whether a packet is a forwarded write of a line that has still to reach the replica on a slice's die. -/
def Packet.forwardsTo (p : Packet) (pa : Nat) (slice : CoreId) : Bool :=
  p.forwards pa && (match p.body with | .forward _ _ _ _ rest _ => rest.any (fun d => dieOf d = dieOf slice) | _ => false)

/-- Perform a forwarded write at every replica that it has still to reach (R149). -/
def State.forwardNow (s : State) (p : Packet) : State :=
  match p.body with
  | .forward r xl cells poison rest sc =>
    let s1 := s.dropPacket p.id
    ((s1.ownerOf r.core).elim s1 (fun t => rest.foldl (fun s d => s.writeReplica t xl d cells poison) s1)).sendAck r sc
  | _ => s

/-- Whether a packet is a forwarded write of a core to a line. -/
def Packet.forwardsOf (p : Packet) (core : CoreId) (pa : Nat) : Bool :=
  p.forwards pa && (match p.body with | .forward r _ _ _ _ _ => r.core = core | _ => false)

/-- A forwarded write goes on with the replicas that it still has to reach, in its place among the writes of its line, as a new packet in the mesh; the
last one acknowledges it (R95, R149). -/
def State.forwardOn (s : State) (p : Packet) (r : Req) (xl : Xl) (cells : List Host.Cell) (poison : Bool) (rest : List CoreId) (sc : Scope) : State :=
  if rest.isEmpty then (s.dropPacket p.id).sendAck r sc
  else { s with net := s.net.map (fun q => if q.id = p.id then { id := q.id, vnet := q.vnet, pri := q.pri, body := .forward r xl cells poison rest sc } else q) }

/-- Perform a forwarded write at its next replicas, through the one on a die (R149). -/
def State.forwardThrough (s : State) (die : Nat) (p : Packet) : State :=
  match p.body with
  | .forward r xl cells poison rest sc =>
    if !rest.any (fun d => dieOf d = die) then s
    else
      let before := rest.takeWhile (fun d => dieOf d ≠ die)
      let now := rest.take (before.length + 1)
      ((s.ownerOf r.core).elim s (fun t => now.foldl (fun s d => s.writeReplica t xl d cells poison) s)).forwardOn p r xl cells poison
        (rest.drop (before.length + 1)) sc
  | _ => s

/-- A core's own writes of a line reach the replica that it reads before its read does (R133): so do the forwards of the line that stand
before them there (R149). -/
def State.ownForwards (s : State) (core : CoreId) (pa : Nat) : State :=
  if s.net.any (fun p => p.forwardsOf core pa) then (s.net.filter (fun p => p.forwards pa)).foldl (fun s p => s.forwardThrough (dieOf core) p) s else s

/-- Perform a write at every other replica at once, behind the writes of its line that are on their way to them (R122, R149, R384). -/
def State.toReplicas (s : State) (t : Tenant) (xl : Xl) (cells : List Host.Cell) (poison : Bool) : State :=
  match State.otherReplicas t xl with
  | [] => s
  | l => l.foldl (fun s d => s.writeReplica t xl d cells poison) ((s.net.filter (fun p => p.forwards xl.pa)).foldl State.forwardNow s)

/-- Perform a write of one line at its home and at every other replica. -/
def State.performAll (s : State) (t : Tenant) (die : Nat) (xl : Xl) (cells : List Host.Cell) (poison : Bool) : State :=
  (s.perform t die xl cells poison).toReplicas t xl cells poison

/-- Perform a unit's write at a physical address; one that names no memory of the tenant is discarded (R5; log entry 89). -/
def State.performUnit (s : State) (t : Tenant) (pa : Nat) (bytes : List Byte) (poison : Bool) : State :=
  if t.reaches pa then s.perform t t.homeDie (physXl pa) (cellsAt pa bytes) poison else s

/-- Perform doublewords of physical memory by a unit, a release at sys, and test the waits (R82, R127, R170). -/
def State.performPhys (s : State) (t : Tenant) (pa : Nat) : List Word → State
  | [] => s
  | w :: r => State.performPhys (s.performUnit t pa (leBytesOf 8 w.toNat) false) t (pa + 8) r

/-- Write a vat's record as a release at sys, so that a WAITA on it may end (R127). -/
def State.publishVat (s : State) (tn i : Nat) : State :=
  match (s.tenant tn).bind (fun t => (t.vat? i).map (fun v => (t, v))) with
  | some (t, v) => s.performPhys t (t.vatRoot + 64 * i) v.record
  | none => s

end Sys2Proof.Machine
end

