-- ==== Sys2Proof/Machine/Walk.lean ====
section
/-! DEFINITION. Translation: page-table entries and walks (R154 to R159, R382), the translation homes with their leaf and walk
caches (R161, R286, R287), and the check of a translated access (R156, R160). -/
namespace Sys2Proof.Machine

/-! ## Entries -/

/-- Whether an entry covers an address of a tenant. -/
def PageEntry.covers (e : PageEntry) (tn va : Nat) : Bool := e.tenant = tn && va / 2 ^ e.lg = e.va / 2 ^ e.lg

/-- Whether an entry overlaps a range of addresses. -/
def PageEntry.overlaps (e : PageEntry) (lo n : Nat) : Bool :=
  e.va / 2 ^ e.lg * 2 ^ e.lg < lo + n && lo < e.va / 2 ^ e.lg * 2 ^ e.lg + 2 ^ e.lg

/-- The same page of the same tenant. -/
def PageEntry.same (a b : PageEntry) : Bool := a.tenant = b.tenant && a.lg = b.lg && a.va / 2 ^ a.lg = b.va / 2 ^ b.lg

/-- The translated address of an entry (R157). -/
def PageEntry.xl (e : PageEntry) (va : Nat) : Xl :=
  let pa := e.pa / 2 ^ e.lg * 2 ^ e.lg + va % 2 ^ e.lg
  { pa := pa, vat := e.vat, pl := e.pl, e := e.e, region := (regionOf pa).getD .hbm }

/-- Why a leaf cannot serve its frame: no memory there, E set outside HBM, a window-table entry that is not valid, or a vat
that is not valid (R114, R116, R124, R246). DESIGN CHOICE: a large page is tested at the address that is accessed, not over its whole frame
(log entry 94). -/
def frameFault (t : Tenant) (e : PageEntry) (va : Nat) : Bool :=
  let pa := e.pa / 2 ^ e.lg * 2 ^ e.lg + va % 2 ^ e.lg
  match regionOf pa with
  | none => true
  | some .hbm => (t.liveVat e.vat).isNone
  | some .host => e.e
  | some .peer => e.e || !((assoc? (fld pa 44 6) t.windows).any (fun w => w.getLsbD 63))

/-- The leaf checks of R156 on an entry, in order; level 5 marks the translation without tables of R154, which serves
supervisor mode only. -/
def leafFault (t : Tenant) (e : PageEntry) (va : Nat) (k : Access) (user : Bool) : Option Cause :=
  if e.level = 5#3 then (if user then some .pageNp else none)
  else if frameFault t e va then some .pageRsvd
  else if (user && !e.u) || (k = .write && !e.w) || (k = .fetch && !e.x) then some .pageProt
  else none

/-- The translation without tables while PTROOT V = 0 (R154): a 2 MiB leaf of the tenant's ranges through vat 0. -/
def identityEntry (t : Tenant) (va : Nat) : Option PageEntry :=
  (rangeAt t.ranges (va / 2 ^ 21 * 2 ^ 21)).map (fun pa =>
    { tenant := t.id, va := va / 2 ^ 21 * 2 ^ 21, lg := 21, pa := pa, level := 5#3, u := false, w := true, x := true,
      d := true, e := false, vat := 0, pl := 0#2 })

/-! ## The walk -/

/-- A leaf PTE as an entry (R155, R157, R286). -/
def leafEntry (t : Tenant) (pte : Nat) (n va : Nat) (d : Bool) : PageEntry :=
  let lg := if n = 1 then (if pte.testBit 7 then 16 else 12) else 12 + 9 * (n - 1)
  { tenant := t.id, va := va / 2 ^ lg * 2 ^ lg, lg := lg, pa := fld pte 12 40 * 2 ^ 12 / 2 ^ lg * 2 ^ lg,
    level := BitVec.ofNat 3 n, u := pte.testBit 4, w := pte.testBit 2, x := pte.testBit 3, d := d, e := pte.testBit 62,
    vat := fld pte 52 10, pl := BitVec.ofNat 2 (fld pte 8 2) }

/-- What one PTE gives at a level: a fault, the next table, or a leaf (R156). -/
inductive PteStep where
  | fault (c : Cause)
  | table (pa : Nat)
  | leaf
  deriving DecidableEq, Repr

/-- The checks of R156 on a PTE before the leaf's own, in order. -/
def pteStep (pte n : Nat) : PteStep :=
  if !pte.testBit 0 then .fault .pageNp
  else if pte.testBit 63 || fld pte 10 2 ≠ 0 then .fault .pageRsvd
  else if !pte.testBit 1 then
    (if n = 1 || fld pte 2 8 ≠ 0 || fld pte 52 11 ≠ 0 then .fault .pageRsvd else .table (fld pte 12 40 * 2 ^ 12))
  else if 4 ≤ n || (pte.testBit 7 && n ≠ 1) || (n = 2 && fld pte 12 9 ≠ 0) || (n = 3 && fld pte 12 18 ≠ 0) then .fault .pageRsvd
  else .leaf

/-- The walk cache's prefix of an address at a level (R161). -/
def walkPrefix (va n : Nat) : Nat := va % 2 ^ 57 / 2 ^ (12 + 9 * (n - 1))

/-- Walk from level `n` (R156, R158, R159, R382): the state after the reads and the setting of A and D, the answer, and the
walk-cache entries of the pointer PTEs read. A prefetch sets neither and needs A = 1 (R345). -/
def State.walkFrom (s : State) (t : Tenant) (va : Nat) (k : Access) (user pref : Bool) (table : Nat) :
    Nat → State × XlAnswer × List WalkEntry
  | 0 => (s, .fault .pageRsvd 0#3, [])
  | n + 1 =>
    let lvl := BitVec.ofNat 3 (n + 1)
    let at_ := table + 8 * fld va (12 + 9 * n) 9
    let (s1, w, bad) := s.readPhys t at_
    let pte := w.toNat
    if bad then (s1, .poison lvl, [])
    else
      match pteStep pte (n + 1) with
      | .fault c => (s1, .fault c lvl, [])
      | .table pa =>
        let (s2, a, l) := State.walkFrom s1 t va k user pref pa n
        (s2, a, { tenant := t.id, level := n + 1, pfx := walkPrefix va (n + 1), table := pa } :: l)
      | .leaf =>
        let e := leafEntry t pte (n + 1) va (k = .write || pte.testBit 6)
        match leafFault t e va k user with
        | some c => (s1, .fault c lvl, [])
        | none =>
          if pref && !pte.testBit 5 then (s1, .nothing, [])
          else
          let set := if k = .write then (if pte.testBit 6 then 0 else 0x60) else (if pte.testBit 5 then 0 else 0x20)
          let s2 := if set = 0 then s1 else s1.performPhys t at_ [w ||| BitVec.ofNat 64 set]
          (s2, .leaf e, [])

/-- The deepest level at which a translation home's walk caches let a walk start, with the table there (R161). -/
def THome.start (h : THome) (t : Tenant) (va : Nat) : Nat → Nat × Nat
  | 0 => (fld t.ptroot.toNat 12 40 * 2 ^ 12, 5)
  | k + 1 =>
    -- level n = 5 - k, tried from 2 upward
    let n := 5 - k
    match h.walks.find? (fun w => w.tenant = t.id && w.level = n && w.pfx = walkPrefix va n) with
    | some w => (w.table, n - 1)
    | none => THome.start h t va k

/-- Install walk-cache entries, 64 a level (R161). -/
def THome.putWalks (h : THome) : List WalkEntry → THome
  | [] => h
  | w :: r =>
    let lvl := h.walks.filter (fun x => x.level = w.level)
    let others := h.walks.filter (fun x => x.level ≠ w.level)
    THome.putWalks { h with walks := lruPut (fun x => x.tenant = w.tenant && x.pfx = w.pfx) 64 w lvl ++ others } r

/-- Install a leaf, 512 in all (R161). DESIGN CHOICE: the new one goes to the front, the last one leaves, and a hit moves none (log entry 93). -/
def THome.putLeaf (h : THome) (e : PageEntry) : THome := { h with leaves := lruPut (fun x => x.same e) 512 e h.leaves }

/-- What a translation home's leaf cache answers at once, if it covers the address; a write through an entry with D = 0 walks
again (R158, R161). -/
def THome.hit (h : THome) (t : Tenant) (va : Nat) (k : Access) (user : Bool) : Option XlAnswer :=
  match h.leaves.find? (fun e => e.covers t.id va) with
  | none => none
  | some e =>
    if k = .write && !e.d then none
    else match leafFault t e va k user with
      | some c => some (.fault c e.level)
      | none => some (.leaf e)

/-- The stamp that a walk meets first and that its reading unit lies outside, with the slice that holds it (R147, R159): `fuel` is the level. -/
def State.walkStamp (s : State) (t : Tenant) (home : CoreId) (va table : Nat) : (fuel : Nat) → Option (CoreId × Stamp)
  | 0 => none
  | n + 1 =>
    let at_ := table + 8 * fld va (12 + 9 * n) 9
    let slice := s.homeOf t.id (physXl at_) t.homeDie false
    match s.blockingStamp slice home at_ with
    | some st => some (slice, st)
    | none =>
      let (s1, w, bad) := s.readPhys t at_
      match (if bad then PteStep.leaf else pteStep w.toNat (n + 1)) with
      | .table pa => State.walkStamp s1 t home va pa n
      | _ => none

/-- The stamp that has to be drained before a walk at a translation home (R159): its reads are acquires. -/
def State.walkBlock (s : State) (t : Tenant) (home : CoreId) (va : Nat) : Option (CoreId × Stamp) :=
  if t.ptroot.getLsbD 0 then s.walkStamp t home va ((s.thome home).start t va 4).1 ((s.thome home).start t va 4).2 else none

/-- Walk at a translation home and install what R287 says, unless a SHOOT has overtaken the walk (R163); a prefetch for writing whose
leaf has W = 0 installs no leaf (R345). -/
def State.walkAt (s : State) (t : Tenant) (home : CoreId) (va : Nat) (k : Access) (user pref wr once : Bool) : State × XlAnswer :=
  if !t.ptroot.getLsbD 0 then
    match identityEntry t va with
    | none => (s, .fault .pageNp 5#3)
    | some e =>
      match leafFault t e va k user with
      | some c => (s, .fault c 5#3)
      | none => (if once || (pref && wr && !e.w) then s else s.onTHome home (fun h => h.putLeaf e), .leaf e)
  else
    let (table, n) := (s.thome home).start t va 4
    let (s1, a, ws) := s.walkFrom t va k user pref table n
    if once then (s1, a)
    else match a with
      | .leaf e => (s1.onTHome home (fun h => if pref && wr && !e.w then h.putWalks ws else (h.putWalks ws).putLeaf e), a)
      | _ => (s1.onTHome home (fun h => h.putWalks ws), a)

/-- The whole answer of the translation service of a die, for units that wait for it: launch units, the host window, the
parlour, the engines and the log unit (R154, R161). A walk that meets a stamp waits for its drain (R159): what the unit then did is
undone by `State.attempt` (log entry 102). A window address is not walked (R156). DESIGN CHOICE: it fails with cause WINDOW and level 0 (no rule
names a unit's fault there; log entry 116). -/
def State.xlateNow (s : State) (tn die va : Nat) (k : Access) (user : Bool) : State × XlAnswer :=
  if inWindow va then (s, .fault .window 0#3) else
  match s.tenant tn with
  | none => (s, .fault .pageNp 5#3)
  | some t =>
    let home := xlateHome die va
    match (s.thome home).hit t va k user with
    | some a => (s, a)
    | none =>
      match s.walkBlock t home va with
      | some (slice, st) => ({ s with blocked := some (slice, st, scopeOf st.core home) }, .nothing)
      | none => s.walkAt t home va k user false false false

/-! ## Reading and writing virtual memory by a unit -/

/-- Why a unit's access to virtual memory failed: the cause, the level and the address; poison is UNCORRECTABLE (R382, R383). -/
structure UnitFault where
  cause : Cause
  level : BitVec 3 := 0#3
  addr : Nat
  write : Bool := false
  deriving DecidableEq, Repr

/-- Translate for a unit. -/
def State.unitXl (s : State) (tn die va : Nat) (k : Access) (user : Bool) : State × Except UnitFault Xl :=
  match s.xlateNow tn die va k user with
  | (s1, .leaf e) => (s1, .ok (e.xl va))
  | (s1, .fault c l) => (s1, .error { cause := c, level := l, addr := va, write := k = .write })
  | (s1, .poison l) => (s1, .error { cause := .uncorrectable, level := l, addr := va, write := k = .write })
  | (s1, .nothing) => (s1, .error { cause := .pageNp, addr := va, write := k = .write })

/-- The number of bytes from an address to the end of its 64-byte line, at most `n`. -/
def lineRest (va n : Nat) : Nat := Nat.min n (64 - va % 64)

/-- Read bytes of virtual memory line by line for a unit on a die; `fuel` bounds the lines. -/
def State.unitRead (s : State) (tn die : Nat) (user : Bool) : (fuel va n : Nat) → State × Except UnitFault (List Byte)
  | 0, _, _ => (s, .ok [])
  | f + 1, va, n =>
    if n = 0 then (s, .ok [])
    else
      match s.tenant tn, s.unitXl tn die va .read user with
      | some t, (s1, .ok xl) =>
        let k := lineRest va n
        let (s2, bs, bad) := s1.readHome t die xl k true
        if s1.peerDenies t xl then (s1, .error { cause := .window, addr := va })
        else if bad then (s2, .error { cause := .uncorrectable, addr := va })
        else
          match State.unitRead s2 tn die user f (va + k) (n - k) with
          | (s3, .ok r) => (s3, .ok (bs ++ r))
          | (s3, .error e) => (s3, .error e)
      | _, (s1, .error e) => (s1, .error e)
      | none, (s1, _) => (s1, .error { cause := .pageNp, addr := va })

/-- Read doublewords of virtual memory for a unit. -/
def State.unitDwords (s : State) (tn die : Nat) (user : Bool) (va n : Nat) : State × Except UnitFault (List Word) :=
  match s.unitRead tn die user (n / 8 + 2) va (8 * n) with
  | (s1, .ok bs) => (s1, .ok ((List.range n).map (fun i => BitVec.ofNat 64 (leOf ((bs.drop (8 * i)).take 8)))))
  | (s1, .error e) => (s1, .error e)

/-- Write bytes of virtual memory line by line for a unit; a translation that fails ends the writing there. -/
def State.unitWrite (s : State) (tn die : Nat) (user : Bool) : (fuel va : Nat) → List Byte → State × Option UnitFault
  | 0, _, _ => (s, none)
  | f + 1, va, bs =>
    if bs.isEmpty then (s, none)
    else
      match s.tenant tn, s.unitXl tn die va .write user with
      | some t, (s1, .ok xl) =>
        let k := lineRest va bs.length
        if s1.peerDenies t xl then (s1, some { cause := .window, addr := va, write := true })
        else State.unitWrite (s1.performAll t die xl (cellsAt xl.pa (bs.take k)) false) tn die user f (va + k) (bs.drop k)
      | _, (s1, .error e) => (s1, some e)
      | none, (s1, _) => (s1, some { cause := .pageNp, addr := va, write := true })

end Sys2Proof.Machine
end

