-- ==== Sys2Proof/Machine/Cache.lean ====
section
/-! DEFINITION. The L1 data memory of a core: cached lines with byte masks in the ways that are not pinned (R106 to R109), the
write packets that leave it with their counts (R134), and the release and acquire steps that act on it (R137, R138). -/
namespace Sys2Proof.Machine

/-! ## Write packets and their counts -/

/-- One more write of a context, or of the core's background, outstanding (R134). -/
def State.countWrite (s : State) (r : Req) (sc : Scope) : State :=
  if r.bg then s.onCore r.core (fun c => { c with background := c.background.inc sc })
  else s.onCtx r.core r.ctx (fun x => { x with unack := x.unack.inc sc })

/-- The write is acknowledged: the counter of the context that sent it, or the background counter once its activation has
ended, falls (R134); waits on counters are tested again. -/
def State.creditWrite (s : State) (r : Req) (sc : Scope) : State :=
  let s1 :=
    if r.bg || (s.ctxAt r.core r.ctx).act.serial ≠ r.serial then
      s.onCore r.core (fun c => { c with background := c.background.dec sc })
    else s.onCtx r.core r.ctx (fun x => { x with unack := x.unack.dec sc })
  s1.wake r.core (fun w => w == WaitKind.counters)

/-- The request of a context. -/
def State.reqOf (s : State) (core : CoreId) (k : CtxId) : Req :=
  { core := core, ctx := k, serial := (s.ctxAt core k).act.serial, pri := (s.ctxAt core k).act.pri }
/-- A background request of a core. DESIGN CHOICE: no activation issues it, and it has priority class 0 (R95 is silent; log entry 104). -/
def bgReq (core : CoreId) : Req := { core := core, ctx := 0#2, serial := 0, bg := true }

/-- Send a write of bytes from a virtual address on to its home and count it (R134). -/
def State.sendWrite (s : State) (r : Req) (xl : Xl) (va : Nat) (cells : List Host.Cell) (poison : Bool) (stamp : Option Scope) : State :=
  let sc := s.scopeOfHome r.core xl false
  (s.countWrite r sc).sendPacket 0#2 r.pri (.write r xl va cells poison stamp sc)

/-! ## Lines -/

/-- The set of an address (R106, R108). -/
def l1Set (pa : Nat) : Nat := pa / 64 % 64

/-- Whether a slot of local memory is pinned; slot `n` is the line at OFF 64 n (R106, R107, R110). -/
def Core.pinned (c : Core) (slot : Nat) : Bool := c.pinLU.getLsbD slot || c.pinBy.getLsbD slot

/-- The line's dirty bytes. -/
def L1Line.dirtyCells (l : L1Line) : List Host.Cell :=
  ((List.range 64).filter (fun i => l.dirty.getLsbD i)).map (fun i => (l.xl.pa + i, l.data.get (l.xl.pa + i)))

/-- The virtual address of the line's first dirty byte. -/
def L1Line.dirtyVa (l : L1Line) : Nat := l.va + (l.dirtyCells.head?).elim 0 (fun c => c.1 - l.xl.pa)

/-- The line of L1 that holds a physical line (R108). -/
def Core.l1Line? (c : Core) (pa : Nat) : Option L1Line := c.l1.find? (fun l => l.xl.pa / 64 = pa / 64)

/-- A translation of the line's base address. -/
def Xl.base (x : Xl) : Xl := { x with pa := x.pa / 64 * 64 }

/-- The byte mask of `n` bytes at an address within its line. -/
def byteMask (pa n : Nat) : BitVec 64 := BitVec.ofNat 64 ((2 ^ n - 1) * 2 ^ (pa % 64))

/-- Whether the counter that a request's writes go to takes a write of each of some scopes (R134): no counter goes above 65,535. -/
def State.takes (s : State) (r : Req) (out : List Scope) : Bool :=
  let held := if r.bg then (s.core r.core).background else (s.ctxAt r.core r.ctx).unack
  out.all (fun sc => held.at sc + out.count sc ≤ 65535)

/-- Whether the counter that a request's writes go to takes a write-back of each dirty line that satisfies a test, and one more write of a
scope (R134). -/
def State.roomFor (s : State) (r : Req) (p : L1Line → Bool) (more : Option Scope) : Bool :=
  s.takes r ((((s.core r.core).l1.filter (fun l => p l && l.dirty ≠ 0#64)).map (fun l => s.scopeOfHome r.core l.xl false)) ++ more.toList)

/-- Bytes of a line have been stored: a poisoned one is sound again once each of its bytes has been (R234, R238). -/
def L1Line.freshen (l : L1Line) (mask : BitVec 64) : L1Line :=
  if l.poison && l.since ||| mask ≠ 0xFFFFFFFFFFFFFFFF#64 then { l with since := l.since ||| mask } else { l with poison := false, since := 0#64 }

/-- A line is poisoned where it stands (R234). -/
def L1Line.strike (l : L1Line) : L1Line := { l with poison := true, since := 0#64 }

/-- Write back the dirty bytes of the lines that satisfy a test; the lines stay, clean (R137). -/
def State.l1WriteBack (s : State) (r : Req) (p : L1Line → Bool) : State :=
  let out := (s.core r.core).l1.filter (fun l => p l && l.dirty ≠ 0#64)
  let s1 := out.foldl (fun s l => s.sendWrite r l.xl l.dirtyVa l.dirtyCells l.poison none) s
  s1.onCore r.core (fun c => { c with l1 := c.l1.map (fun l => if p l then { l with dirty := 0#64 } else l) })

/-- Invalidate every byte that is not dirty in the lines that satisfy a test (R138). -/
def Core.l1Invalidate (c : Core) (p : L1Line → Bool) : Core :=
  { c with l1 := (c.l1.map (fun l => if p l then { l with valid := l.dirty } else l)).filter (fun l => l.valid ≠ 0#64) }

/-- Drop lines whole. -/
def Core.l1Drop (c : Core) (p : L1Line → Bool) : Core := { c with l1 := c.l1.filter (fun l => !p l) }

/-- Write back and drop the lines that satisfy a test (R110, R151, R323). -/
def State.l1Flush (s : State) (r : Req) (p : L1Line → Bool) : State := (s.l1WriteBack r p).onCore r.core (fun c => c.l1Drop p)

/-- The lines of an address's set. -/
def Core.l1InSet (c : Core) (pa : Nat) : List L1Line := c.l1.filter (fun l => l1Set l.xl.pa = l1Set pa)

/-- The lowest way of an address's set that is not pinned and holds no line (R108). -/
def Core.freeWay? (c : Core) (pa : Nat) : Option Nat :=
  (List.range 8).find? (fun w => !c.pinned (w * 64 + l1Set pa) && !(c.l1InSet pa).any (fun l => l.way = w))

/-- Make room in a set and name the way: the lowest unpinned way that holds no line, or that of the least recently used line,
whose dirty bytes are written back in the background (R108, R134). -/
def State.l1Room (s : State) (core : CoreId) (pa : Nat) : State × Nat :=
  match (s.core core).freeWay? pa, ((s.core core).l1InSet pa).getLast? with
  | some w, _ => (s, w)
  | none, some v => (s.l1Flush (bgReq core) (fun l => l.xl.pa = v.xl.pa), v.way)
  | none, none => (s, 7)

/-- A line cached through another translation of the same frame is written back and dropped before the frame is used through
this one. DESIGN CHOICE: its write-back is counted in the background counters (R134 names none; log entry 76). -/
def State.l1Agree (s : State) (core : CoreId) (xl : Xl) : State :=
  match (s.core core).l1Line? xl.pa with
  | some l => if l.xl = xl.base then s else s.l1Flush (bgReq core) (fun m => m.xl.pa = l.xl.pa)
  | none => s

/-- Whether the background counter takes what `State.l1Agree` writes back (R134). -/
def State.agreeRoom (s : State) (core : CoreId) (xl : Xl) : Bool :=
  ((s.core core).l1Line? xl.pa).all (fun l => l.xl = xl.base || s.roomFor (bgReq core) (fun m => m.xl.pa = l.xl.pa) none)

/-- Whether the background counter takes what the installation of a line replaces (R134). -/
def State.installRoom (s : State) (core : CoreId) (xl : Xl) : Bool :=
  s.agreeRoom core xl && (match (s.core core).l1Line? xl.pa, (s.core core).freeWay? xl.pa, ((s.core core).l1InSet xl.pa).getLast? with
    | none, none, some v => s.roomFor (bgReq core) (fun l => l.xl.pa = v.xl.pa) none
    | _, _, _ => true)

/-- The poison of a line that is filled around its dirty bytes (R108, R234): what the fill brings takes the place of every other byte, sound or poisoned,
and dirty bytes that were poisoned stay so. -/
def L1Line.refilled (l : L1Line) (bad : Bool) : L1Line :=
  let was := l.poison && l.dirty ≠ 0#64
  let kept := if was then l.since &&& l.dirty else l.dirty
  ({ l with poison := was || bad, since := kept } : L1Line).freshen (if bad then 0#64 else ~~~l.dirty)

/-- Fill a line around its dirty bytes, or install it, most recently used or for streaming least recently used (R108). -/
def State.l1Fill (s : State) (core : CoreId) (xl : Xl) (va : Nat) (bytes : List Byte) (poison stream : Bool) : State :=
  let base := xl.base
  let merge (l : L1Line) : L1Line :=
    { l.refilled poison with
      data := ((cellsAt base.pa bytes).filter (fun c => !l.dirty.getLsbD (c.1 - base.pa))).foldl (fun m c => m.set c.1 c.2) l.data
      valid := 0xFFFFFFFFFFFFFFFF#64, cls := s.scopeOfHome core xl true }
  match (s.core core).l1Line? base.pa with
  | some _ => s.onCore core (fun c => { c with l1 := c.l1.map (fun l => if l.xl.pa = base.pa then merge l else l) })
  | none =>
    let (s1, way) := s.l1Room core base.pa
    let l : L1Line := merge { xl := base, va := va / 64 * 64, way := way, cls := 0#2 }
    s1.onCore core (fun c => { c with l1 := if stream then c.l1 ++ [l] else l :: c.l1 })

/-- Store into L1: a miss allocates the line without fetching it (R108). -/
def State.l1Store (s : State) (core : CoreId) (xl : Xl) (va : Nat) (cells : List Host.Cell) : State :=
  let base := xl.base
  let mask := cells.foldl (fun m c => m ||| (1#64 <<< (c.1 - base.pa))) 0#64
  let put (l : L1Line) : L1Line :=
    { l.freshen mask with data := l.data.writeCells cells, valid := l.valid ||| mask, dirty := l.dirty ||| mask }
  let s1 := s.l1Agree core xl
  match (s1.core core).l1Line? base.pa with
  | some l => s1.onCore core (fun c => { c with l1 := put l :: (c.l1Drop (fun m => m.xl.pa = base.pa)).l1 })
  | none =>
    let (s2, way) := s1.l1Room core base.pa
    let l : L1Line := put { xl := base, va := va / 64 * 64, way := way, cls := s.scopeOfHome core xl false }
    s2.onCore core (fun c => { c with l1 := l :: c.l1 })

/-- Update an L1 copy in place where the bytes go to the home themselves (R108): they are valid and no longer dirty. -/
def Core.l1Update (c : Core) (pa : Nat) (cells : List Host.Cell) : Core :=
  let mask := cells.foldl (fun m x => m ||| (1#64 <<< (x.1 - pa / 64 * 64))) 0#64
  { c with l1 := c.l1.map (fun l => if l.xl.pa / 64 = pa / 64 then
      { l.freshen mask with data := l.data.writeCells cells, valid := l.valid ||| mask, dirty := l.dirty &&& ~~~mask } else l) }

/-- Those of some bytes that are not dirty in L1. -/
def Core.cleanCells (c : Core) (cells : List Host.Cell) : List Host.Cell :=
  cells.filter (fun x => !(c.l1Line? x.1).any (fun l => l.dirty.getLsbD (x.1 % 64)))

/-- Mark a line most recently used (R108). -/
def Core.l1Touch (c : Core) (pa : Nat) : Core :=
  match c.l1Line? pa with
  | some l => { c with l1 := l :: (c.l1Drop (fun m => m.xl.pa = l.xl.pa)).l1 }
  | none => c

/-- Whether a line's distance class lies within a scope (R109, R137). -/
def L1Line.within (sc : Scope) (l : L1Line) : Bool := l.cls.toNat ≤ sc.toNat

/-! ## Release and acquire -/

/-- Step 2 of a release: write back the dirty bytes of the lines of the scope (R137). -/
def State.releaseLines (s : State) (r : Req) (sc : Scope) : State := s.l1WriteBack r (fun l => l.within sc)

/-- Whether the counters take the write-backs of a release by the issuing instruction, taken once, before phase `ph` (R134). -/
def State.releaseRoom (s : State) (sc : Scope) (ph : Nat) : Bool :=
  ph ≤ s.cx.op.phase || s.roomFor (s.reqOf s.meId s.me.cur) (fun l => l.within sc) none

/-- The request and the address of a prefetch's translation that a packet carries (R345). -/
def Packet.prefMiss? (p : Packet) : Option (Req × Nat) :=
  match p.body with
  | .xlateReq r _ va _ _ true _ | .walk r _ va _ _ true _ | .xlateAns r va _ true _ _ => some (r, va)
  | _ => none

/-- The request and the address of a prefetch that a packet belongs to: its translation or its fill (R345). -/
def Packet.pref? (p : Packet) : Option (Req × Nat) :=
  match p.body with
  | .fill r _ va _ false => if r.bg then some (r, va) else none
  | _ => p.prefMiss?

/-- Whether a packet belongs to a prefetch of a context (R345). -/
def Packet.prefetch (core : CoreId) (k : CtxId) (p : Packet) : Bool := p.pref?.any (fun q => q.1.core = core && q.1.ctx = k)

/-- The request of a steer miss that a packet carries (R161, R288). -/
def Packet.miss? (p : Packet) : Option Req :=
  match p.body with
  | .xlateReq r .. | .walk r .. | .xlateAns r .. => some r
  | _ => none

/-- Whether a steer miss of the issuing context is outstanding, of a prefetch or of an activation that has ended, so that it issues no access to a
paged address (R288). -/
def State.missOut (s : State) : Bool := s.net.any (fun p => p.miss?.any (fun r => r.core = s.meId && r.ctx = s.me.cur))

/-- Whether a packet carries a change of a pipe that the activation in a context is bound to, to the far end (R346). -/
def Core.tells (c : Core) (k : CtxId) (p : Packet) : Bool :=
  match p.body with
  | .pipe dst q gang _ => c.gang = some gang && (List.range 8).any (fun j => (c.ctx k).qbound.getLsbD j
      && ((c.pipes.toList[j]?).join).any (fun e => e.far = dst && e.farQ = q))
  | _ => false

/-- Steps 1 and 3 of a release: the context's prefetches have been filled and its advances have reached the far ends of its pipes, and its
counters and the core's background counters are zero for the scope and every narrower one (R137, R152, R345). -/
def State.settled (s : State) (core : CoreId) (k : CtxId) (sc : Scope) : Bool :=
  let c := s.core core
  (c.ctx k).unack.clear sc && c.background.clear sc && !s.net.any (fun p => p.prefetch core k || c.tells k p)

/-- Steps 1 and 3 of a release by an instruction: the context's earlier release stores are performed as well (R137). -/
def State.released (s : State) (core : CoreId) (k : CtxId) (sc : Scope) : Bool :=
  s.settled core k sc && (s.ctxAt core k).rel.isEmpty

/-- A prefetch of a context that is on its way as the context acquires: its line is invalidated once it has arrived (R345). -/
def Packet.passAcquire (core : CoreId) (k : CtxId) (sc : Scope) (p : Packet) : Packet :=
  if p.prefetch core k then { p with acquired := some (p.acquired.elim sc (Scope.max sc)) } else p

/-- Acquire by a context: invalidate what is not dirty in the lines of the scope (R138), and in those of the context's prefetches once they have
arrived (R345). -/
def State.acquireLines (s : State) (core : CoreId) (k : CtxId) (sc : Scope) : State :=
  ({ s with net := s.net.map (Packet.passAcquire core k sc) }).onCore core (fun c => c.l1Invalidate (fun l => l.within sc))

/-- Whether a core has nothing outstanding at a scope in any context (R147). -/
def Core.drained (c : Core) (sc : Scope) : Bool := c.background.clear sc && allCtx.all (fun k => (c.ctx k).unack.clear sc)

/-- All of a core's counters are zero at every scope (R177, R279). -/
def Core.quietWrites (c : Core) : Bool :=
  c.background.clear 3#2 && allCtx.all (fun k => (c.ctx k).unack.clear 3#2 && (c.ctx k).rel.isEmpty)

/-- Send packets with the place in the issue order that a release store took when it retired (R103). -/
def State.sendingAs (s : State) (place : Nat) (f : State → State) : State := { f { s with nextPkt := place } with nextPkt := s.nextPkt }

/-! ## What is on its way to a home -/

/-- Whether a packet is a write or an atomic of a core to a line, still to be performed (R133). -/
def Packet.writesLine (core : CoreId) (pa : Nat) (p : Packet) : Bool :=
  match p.body with
  | .write r xl _ _ _ _ _ => r.core = core && xl.pa / 64 = pa / 64
  | .atomic r xl .. => r.core = core && xl.pa / 64 = pa / 64
  | .aqReq r xl _ _ _ _ => r.core = core && xl.pa / 64 = pa / 64
  | _ => false

end Sys2Proof.Machine
end

