-- ==== Sys2Proof/Machine/Log.lean ====
section
/-! DEFINITION. The log unit (R222 to R224, R232, R233): the bytes of a record, the room under the lag limit, the ring in the
lifeguard's local memory and the replay buffer. -/
namespace Sys2Proof.Machine

/-- The code of a trap cause (R166). -/
def causeCode : Cause → Nat
  | .none => 0 | .illegal => 1 | .priv => 2 | .align => 3 | .pageNp => 4 | .pageProt => 5 | .pageRsvd => 6 | .window => 7
  | .atomicPath => 8 | .divzero => 9 | .pipeBroken => 10 | .accOrphan => 11 | .singular => 12 | .format => 13
  | .vatShare => 14 | .engineFault => 15 | .lgViolation => 16 | .waitTimeout => 17 | .uncorrectable => 18 | .trap => 19
  | .breakpoint => 20

/-- What an instruction or event gives the log unit: a record type, a size code, an address for the types that have one, and
the rest of the body (R223, R224). -/
structure LogItem where
  type : Nat
  size : Nat := 0
  addr : Option Word := none
  body : List Byte := []
  dirty : Bool := false
  aq : Bool := false
  deriving DecidableEq, Repr

/-- The address mode and its bytes: the narrowest that gives the address exactly (R223). -/
def addrMode (base addr : Word) : Nat × List Byte :=
  let d := (addr - base).toInt
  if -128 ≤ d && d < 128 then (1, leBytesOf 1 (addr - base).toNat)
  else if -32768 ≤ d && d < 32768 then (2, leBytesOf 2 (addr - base).toNat)
  else (3, leBytesOf 8 addr.toNat)

/-- The bytes of a record (R223). -/
def recordBytes (b : Binding) (pc : Word) (i : LogItem) : List Byte :=
  let (mode, addr) := (i.addr.map (addrMode b.logBase)).getD (0, [])
  let head := if i.addr.isSome then i.type * 16 + mode * 4 + i.size else i.type * 16
  BitVec.ofNat 8 head :: (if b.p then leBytesOf 4 pc.toNat else []) ++ addr ++ i.body

/-- The bytes that a record takes with the PAD before it: a record never crosses a 64-byte boundary (R223). -/
def padBefore (wp len : Nat) : Nat := if wp % 64 + len ≤ 64 then 0 else 64 - wp % 64

/-- Whether the record is logged at all (R224). -/
def Binding.logs (b : Binding) (type : Nat) : Bool :=
  type = 0 || type = 6 || type = 7 || type = 8 || b.filter.getLsbD type

/-- Whether a record fits under the lag limit as the worker knows the read pointer, behind every held record (R222, R233). -/
def Binding.fits (b : Binding) (len : Nat) : Bool :=
  b.heldTrap.isEmpty && b.total + padBefore b.wp len + len - b.seenTotal ≤ b.lag

/-- Bytes of the ring from an offset, wrapping. -/
def ringBytes (m : Memory) (off size pos : Nat) (n : Nat) : List Byte :=
  (List.range n).map (fun i => m.get (off + (pos + i) % size))

/-- A plain write of the log unit to the replay buffer within one line, counted in the worker's background counter (R232); where the
buffer's page does not translate, it is not made, and while the counter has no room it waits, which is `none` (R134). -/
def State.writeReplay (s : State) (worker : CoreId) (va : Nat) (bytes : List Byte) : Option State :=
  match s.unitXl (s.tenantNo worker) (dieOf worker) va .write false with
  | (s1, .ok xl) =>
    if s1.takes (bgReq worker) [s1.scopeOfHome worker xl false] then some (s1.sendWrite (bgReq worker) xl va (cellsAt xl.pa bytes) false none)
    else none
  | (s1, .error _) => some s1

/-- Copy what is new in the ring to the replay buffer piece by piece, each within a 64-byte segment (R232); `n` bytes are left. A piece that waits
for room in the counter is copied when the log unit works on (R134). DESIGN CHOICE: what
a containment record has copied of a segment is not copied again when the segment is full: the copy goes on from there (log entry 113). -/
def State.copyPieces (s : State) (worker guard : CoreId) : (fuel n : Nat) → State
  | 0, _ => s
  | fuel + 1, n =>
    match s.workerBinding worker with
    | none => s
    | some b =>
      if n = 0 || b.ovf then s
      else if b.bufLen.toNat ≤ b.bufUsed then s.onBinding worker (fun x => { x with ovf := true })
      else
        let size := 2 ^ b.rsz
        let m := Nat.min n (64 - b.segStart % 64)
        let bytes := ringBytes (s.core guard).localMem b.ringOff size (b.segStart % size) m
        match s.writeReplay worker ((b.bufVa.toNat + b.bufUsed) % 2 ^ 57) bytes with
        | none => s
        | some s1 =>
          if s1.blocked ≠ s.blocked then s.attempt (fun _ => s1) else State.copyPieces (s1.onBinding worker (fun x =>
            { x with bufUsed := x.bufUsed + m, segStart := x.segStart + m, ovf := decide (x.bufLen.toNat ≤ x.bufUsed + m) })) worker guard fuel (n - m)

/-- Copy what the replay buffer is due (R232). -/
def State.copyDue (s : State) (b : Binding) : State :=
  if b.d then s.copyPieces b.worker b.guard ((b.copyTo - b.segStart) / 64 + 2) (b.copyTo - b.segStart) else s

/-- Whether what the replay buffers of some cores' bindings are due has been copied (R232): a gang neither ends nor is saved before. -/
def State.copied (s : State) (mine : CoreId → Bool) : Bool :=
  s.bindings.all (fun b => !b.d || b.ovf || decide (b.copyTo ≤ b.segStart) || !(mine b.worker || mine b.guard))

/-- Copy what is new in the ring to the replay buffer, up to the last completed segment or up to the write pointer (R232); what a stamp on
the walk holds up follows when the log unit works on. -/
def State.copyReplay (s : State) (b : Binding) (whole : Bool) : State :=
  let b' := { b with copyTo := Nat.max b.copyTo (if whole then b.total else b.total / 64 * 64) }
  (s.onBinding b.worker (fun _ => b')).copyDue b'

/-- Write a record of an activation into the ring and advance the write pointer (R222 to R224). -/
def State.appendLog (s : State) (b : Binding) (k : CtxId) (serial : Nat) (pc : Word) (i : LogItem) : State :=
  let bytes := recordBytes b pc i
  let size := 2 ^ b.rsz
  let pad := padBefore b.wp bytes.length
  let start := (b.wp + pad) % size
  let s1 := s.onCore b.guard (fun c =>
    let m1 := if pad = 0 then c.localMem else c.localMem.set (b.ringOff + b.wp % size) 0xF0#8
    { c with localMem := m1.write (b.ringOff + start) bytes })
  let b' : Binding :=
    { b with
      wp := (start + bytes.length) % size, total := b.total + pad + bytes.length, nextLog := (b.nextLog + 1) % 2 ^ 32
      logBase := i.addr.getD (if i.type = 0 then 0#64 else b.logBase)
      history := b.history ++ [{ seq := b.nextLog, type := i.type, pc := pc, addr := i.addr.getD 0#64, dirty := i.dirty, aq := i.aq,
                                  ctx := k, serial := serial }] }
  let s2 := s1.onBinding b.worker (fun _ => b')
  s2.copyReplay b' (i.type = 6 || i.type = 7)

/-- The request of an activation, or the core's background once the activation has ended (R134). -/
def State.liveReq (s : State) (core : CoreId) (k : CtxId) (serial : Nat) : Req :=
  if (s.ctxAt core k).act.serial = serial && (s.ctxAt core k).st ≠ .free then { core := core, ctx := k, serial := serial } else bgReq core

/-- The log unit's advances of the write pointer (R222): each is a release at the narrowest scope that holds both cores (R137), so
the worker's dirty lines of that scope leave it, and the lifeguard sees the records once the worker's counters are zero and its earlier
release stores are performed. -/
def State.showLog (s0 : State) (b : Binding) : State :=
  let s := s0.copyDue b
  if b.shown = b.total then s
  else
    let sc := scopeOf b.worker b.guard
    let r := (b.history.getLast?).elim (bgReq b.worker) (fun h => s.liveReq b.worker h.ctx h.serial)
    if !s.roomFor r (fun l => l.within sc) none then s else
    let s1 := s.releaseLines r sc
    if (s1.core b.worker).drained sc && allCtx.all (fun k => ((s1.core b.worker).ctx k).rel.isEmpty) then
      (s1.onBinding b.worker (fun x => { x with shown := x.total })).wake b.guard (fun w => w == WaitKind.ring)
    else s1

/-- Every log unit of the module works on (R222); a step does so before its turn. -/
def State.showLogs (s : State) : State := s.bindings.foldl State.showLog s

/-- Whether the log lets an instruction of a context retire: nothing is logged for it, or its record fits (R222). -/
def State.logRoom (s : State) (core : CoreId) (k : CtxId) (i : LogItem) : Bool :=
  if k = 3#2 then true
  else match s.workerBinding core with
    | none => true
    | some b => !b.logs i.type || b.fits (recordBytes b (s.ctxAt core k).pc i).length

/-- Log an instruction of a context whose record fits (R224). -/
def State.log (s : State) (core : CoreId) (k : CtxId) (i : LogItem) : State :=
  if k = 3#2 then s
  else match s.workerBinding core with
    | none => s
    | some b => if b.logs i.type then s.appendLog b k (s.ctxAt core k).act.serial (s.ctxAt core k).pc i else s

/-- The log item of a kept record. -/
def HeldRec.item (h : HeldRec) : LogItem := { type := h.type, size := h.size, addr := h.addr, body := h.body, dirty := h.dirty, aq := h.aq }

/-- Write a record of an activation that ends, or keep it until it fits (R222, R233). -/
def State.logHeld (s : State) (worker : CoreId) (h : HeldRec) : State :=
  match s.workerBinding worker with
  | none => s
  | some b =>
    if b.fits (recordBytes b h.pc h.item).length then s.appendLog b h.ctx h.serial h.pc h.item
    else s.onBinding worker (fun x => { x with heldTrap := x.heldTrap ++ [h] })

/-- Log an instruction that has its answer and ends before its gang's save, in its place among the records (R177, R222, R355). DEDUCED: no
lifeguard of a gang that has stopped issuing makes room, so that its record is kept until it fits, as a kill's is (log entry 105). -/
def State.logLater (s : State) (core : CoreId) (k : CtxId) (i : LogItem) : State :=
  s.logHeld core { type := i.type, body := i.body, pc := (s.ctxAt core k).pc, ctx := k, serial := (s.ctxAt core k).act.serial, dirty := i.dirty
                   size := i.size, addr := i.addr, aq := i.aq }

/-- The body of an activation's ACT record (R224). -/
def Act.actBody (a : Act) : List Byte :=
  leBytesOf 8 (match a.source with | .task _ arg _ => arg.toNat | _ => a.header.toNat)

/-- Log a trap or a kill, behind the ACT record where that is still due (R224, R278); a kill's record that does not fit is kept and
written first when it fits (R233). DESIGN CHOICE: so is the record of a trap that ends its activation (log entry 112). -/
def State.logTrap (s : State) (core : CoreId) (k : CtxId) (code : Nat) (pc : Word) : State :=
  let a := (s.ctxAt core k).act
  let h (type : Nat) (body : List Byte) : HeldRec := { type := type, body := body, pc := pc, ctx := k, serial := a.serial, dirty := a.dirtied }
  if k = 3#2 then s
  else
    let s1 := if a.begun then s else s.logHeld core (h 0 a.actBody)
    s1.logHeld core (h 8 (BitVec.ofNat 8 code :: leBytesOf 8 pc.toNat))

/-- The number that a record still waiting will take, behind those that the log unit keeps (R229). -/
def Binding.waitingSeq (b : Binding) : Nat := (b.nextLog + b.heldTrap.length) % 2 ^ 32

/-- The replay buffer's copies and the ring end with the binding, and verdicts and read-pointer advances on their way are discarded
(R337); a context that waits for a verdict or for room has its wait decided (R221). -/
def State.endBinding (s : State) (b : Binding) : State :=
  let decided (x : Context) : Context :=
    match x.op.wait with
    | .verdict _ => { x with op := { x.op with aux := 0 } }
    | _ => x
  let s0 := if b.template then s else s.onCore b.guard (fun c => { c with ringLen := 0 })
  let s1 := { s0 with bindings := s0.bindings.filter (fun x => x.worker ≠ b.worker)
                      net := s0.net.filter (fun p => match p.body with
                        | .verdict w _ _ | .readPointer w _ _ => w ≠ b.worker
                        | _ => true) }
  let s2 := s1.onCore b.worker (fun c =>
    { c with ctx0 := decided c.ctx0, ctx1 := decided c.ctx1, ctx2 := decided c.ctx2, ctx3 := decided c.ctx3 })
  (s2.wake b.worker (fun w => match w with | .verdict _ | .lag | .startLag => true | _ => false)).wake b.guard (fun w => w == WaitKind.ring)

end Sys2Proof.Machine
end

