-- ==== Sys2Proof/Machine/Ops.lean ====
section
/-! DEFINITION. What every instruction and event shares: retiring, waiting, fault records (R170), taking a trap with its upcall
or trap end (R165 to R168, R171), kills (R229, R236, R237), the end of an activation (R35, R51, R64, R134), queues and pails
(R43 to R46, R49), and the start of an activation (R31). -/
namespace Sys2Proof.Machine

/-- What every meaning answers. -/
abbrev Answer := Host.Outcome State Fault Refusal

/-! ## Retiring and waiting -/

/-- Retire the instruction of the issuing context: the PC moves past its words and the context can issue again (R30, R262). -/
def State.retire (s : State) (words : Nat) : State :=
  s.onCx (fun x => { x with pc := x.pc + BitVec.ofNat 64 (4 * words), op := {}, st := .ready })

/-- Retire to a target: a jump, whose PC is where the next fetch takes place (R262). -/
def State.retireTo (s : State) (pc : Word) : State := s.onCx (fun x => { x with pc := pc, op := {}, st := .ready })

/-- The issuing context waits; its instruction issues again from the phase given (R30). -/
def State.await (s : State) (w : WaitKind) (timed : Bool) (phase : Nat) : State :=
  s.onCx (fun x => { x with st := .waiting, op := { x.op with wait := w, timed := timed, phase := phase } })

/-- Whether a timed wait of the context has run out (R69, R70): a WAITLIM of 0 at once. -/
def Context.timedOut (x : Context) : Bool := x.waitlim.toNat ≤ x.op.elapsed.toNat

/-! ## Fault records -/

/-- Hand a fault record to the tenant's home launch unit, which writes it in its turn (R170). -/
def State.reportTo (s : State) (tn : Nat) (r : FaultRec) : State := s.onTenant tn (fun t => { t with records := t.records ++ [r] })

/-- A record that an activation of a core caused (R170). -/
def State.report (s : State) (core : CoreId) (k : CtxId) (cause : Cause) (flags : BitVec 8) (pc addr : Word) : State :=
  let a := (s.ctxAt core k).act
  s.reportTo (s.tenantNo core)
    { cause := cause, flags := flags, core := core, low8 := BitVec.ofNat 32 (a.handler.toNat * 256 + k.toNat), w10 := pc, w18 := addr }

/-- A record that no activation caused: flag [20] is set (R383). -/
def State.reportBare (s : State) (tn : Nat) (cause : Cause) (write : Bool) (core : CoreId) (w10 w18 : Word) : State :=
  s.reportTo tn { cause := cause, flags := if write then 0x18#8 else 0x10#8, core := core, w10 := w10, w18 := w18 }

/-- The FAULTCAUSE word of a trap (R165). -/
def TrapInfo.word (i : TrapInfo) : Word :=
  let bit (b : Bool) (n : Nat) : Nat := if b then 2 ^ n else 0
  BitVec.ofNat 64 (causeCode i.cause + bit i.deferred 8 + bit i.write 9 + bit i.fetch 10 + i.level.toNat * 2 ^ 11)

/-- The record flags of a FAULTCAUSE word: [17] deferred and [19] write (R170). -/
def recordFlags (cause : Word) : BitVec 8 :=
  (if cause.getLsbD 8 then 2#8 else 0#8) ||| (if cause.getLsbD 9 then 8#8 else 0#8)

/-- The cause that a code names (R166). -/
def causeOf (code : Nat) : Cause :=
  match code with
  | 1 => .illegal | 2 => .priv | 3 => .align | 4 => .pageNp | 5 => .pageProt | 6 => .pageRsvd | 7 => .window | 8 => .atomicPath
  | 9 => .divzero | 10 => .pipeBroken | 11 => .accOrphan | 12 => .singular | 13 => .format | 14 => .vatShare | 15 => .engineFault
  | 16 => .lgViolation | 17 => .waitTimeout | 18 => .uncorrectable | 19 => .trap | 20 => .breakpoint | _ => .none

/-! ## Pails and queues -/

/-- The entry of the handler table, if it is valid (R47). -/
def Core.entry? (c : Core) (i : BitVec 8) : Option Handler := c.handlers.find? (fun h => h.index = i)

/-- The pails' bytes: P pails of 128 bytes (R42). -/
def Core.pailBytes (c : Core) : Nat := 128 * c.pails.length
/-- The offset of the service pail (R42). -/
def Core.servicePail (c : Core) : Nat := c.pailBytes + 2048

/-- A self-window address (R42, R102). -/
def selfWindow (off : Nat) : Word := BitVec.ofNat 64 (0x01FF0FC000000000 + off)

/-- Change a pail. -/
def Core.onPail (c : Core) (i : Nat) (f : Pail → Pail) : Core :=
  match c.pails[i]? with
  | some p => { c with pails := c.pails.set i (f p) }
  | none => c

/-- A pail is freed: it is being cleared until its cleared event (R43), and its kill count is cleared (R237). -/
def Core.freePail (c : Core) (i : Nat) : Core := c.onPail i (fun _ => { st := .freed })

/-- A task enters the run queue at the tail of its priority, and the dispatcher will scan (R46, R91). -/
def Core.enqueue (c : Core) (t : Task) : Core := { c with runq := c.runq ++ [t], scan := true }

/-- The higher of two priorities (R46). -/
def maxPri (a b : BitVec 2) : BitVec 2 := if a.toNat < b.toNat then b else a

/-- The default priority of an entry, or 0 where it is not valid. -/
def Core.entryPri (c : Core) (i : BitVec 8) : BitVec 2 := ((c.entry? i).map (·.pri)).getD 0#2

/-- A counter has changed: waits for it and IDLE are tested again (R308, R331). -/
def Core.counterMoved (c : Core) : Core := c.wake (fun w => match w with | .idle | .counterZero _ => true | _ => false)

/-- A context leaves state ready, so no YIELD waits for it any longer (R378). -/
def Core.unyield (c : Core) (k : CtxId) : Core :=
  let off (x : Context) : Context := { x with yieldOn := x.yieldOn &&& ~~~(1#4 <<< k.toNat) }
  { c with ctx0 := off c.ctx0, ctx1 := off c.ctx1, ctx2 := off c.ctx2, ctx3 := off c.ctx3 }

/-- A counter fires: its bound task enters the run queue and B is cleared (R53). A core that drops its gang's tasks drops it
(R49). DESIGN CHOICE: a counter that fires again while an earlier task of it still waits queues a second task with the same place
(R46 is silent; log entry 86). -/
def Core.fire (c : Core) (i : BitVec 5) : Core :=
  let k := c.counters[i.toNat]
  let c1 := { c with counters := c.counters.set i.toNat { k with b := false } }
  if c.dropTasks then c1
  else c1.enqueue { place := .counter i.toNat, pri := c.entryPri k.handler, handler := k.handler, arg := k.arg }

/-- A decrement of a join counter (R53): below zero the count becomes 0, E is set and the task is unbound. -/
def Core.decrement (c : Core) (i : BitVec 5) (n : Nat) : Core :=
  let k := c.counters[i.toNat]
  if k.count < n then ({ c with counters := c.counters.set i.toNat { k with count := 0, e := true, b := false } } : Core).counterMoved
  else
    let c1 := ({ c with counters := c.counters.set i.toNat { k with count := k.count - n } } : Core).counterMoved
    if k.count = n && 0 < n && k.b then c1.fire i else c1

/-- A service task enters the service queue (R49). -/
def Core.serve (c : Core) (t : SvcTask) : Core := { c with svcq := c.svcq ++ [t] }

/-- A service task of the gang reaches the core: one that drops its gang's tasks drops it (R49). -/
def Core.offer (c : Core) (t : SvcTask) : Core := if c.dropTasks then c else c.serve t

/-! ## The end of an activation -/

/-- Drop the unreleased entries of an activation (R58). -/
def Core.dropHeld (c : Core) (k : CtxId) (serial : Nat) : Core :=
  { c with outbox := c.outbox.filter (fun e => e.released || !(e.ctx = k && e.serial = serial)) }

/-- The priority of the activation that issued the message of an outbox entry (R95). -/
def State.slotPri (s : State) (core : CoreId) (slot : Nat) : BitVec 2 := ((s.core core).outbox.find? (fun e => e.slot = slot)).elim 0#2 (·.actPri)

/-- The counter that holds the fill count of pipe `j` (R81). -/
def pipeCounter (j : Nat) : Nat := (28 + j) % 32

/-- Change the counter of a pipe. -/
def Core.onFill (c : Core) (p : PipeEnd) (f : Counter → Counter) : Core :=
  ({ c with counters := c.counters.set (pipeCounter p.index) (f (c.counters.toList[pipeCounter p.index]?.getD {})) (by
      unfold pipeCounter; omega) } : Core).counterMoved

/-- A closing or breaking of a pipe discards the early notices that its consumer holds (R380). -/
def Core.dropEarly (c : Core) (p : PipeEnd) : Core := if p.producer then c else c.onFill p (fun k => { k with early := 0 })

/-- A pipe end departs: its far end learns that it is closed or broken, after every earlier change (R64), and a consumer's early
notices are discarded (R380). A closed end takes no more instructions (R346); a broken one shows its state to an activation that is bound
to it later, and never returns to open (R62, R64). The departure has the priority of the activation whose end it is (R95); at a core that is lost it
has none. -/
def State.departPipe (s : State) (core : CoreId) (q : BitVec 3) (closed : Bool) (pri : BitVec 2) : State :=
  match (s.core core).pipes[q.toNat] with
  | none => s
  | some p =>
    if p.closedHere || (!closed && p.state = 2) then s
    else
      let own : PipeEnd := if closed then { p with closedHere := true } else { p with state := 2 }
      (s.onCore core (fun c => ({ c with pipes := c.pipes.set q.toNat (some own) } : Core).dropEarly p)).sendPacket 1#2 pri
        (.depart p.far p.farQ ((s.core core).gang.getD 0) closed)

/-- The pipe ends bound to an entry activation that ends without QCLOSE break (R64). -/
def State.breakPipes (s : State) (core : CoreId) (k : CtxId) : State :=
  let x := s.ctxAt core k
  if x.act.entry then
    (List.range 8).foldl (fun s q => if x.qbound.getLsbD q then s.departPipe core (BitVec.ofNat 3 q) false x.act.pri else s) s
  else s

/-- A refusal or reduction fault that no FENCE has reported goes to the supervisor's queue when its activation ends (R103,
R141). -/
def State.reportDeferred (s : State) (core : CoreId) (k : CtxId) : State :=
  let x := s.ctxAt core k
  x.deferred.foldl (fun s d => s.report core k d.info.cause (recordFlags ({ d.info with deferred := true } : TrapInfo).word) x.pc d.info.addr) s

/-- What is left of a context when its activation ends: its queues of engine commands and its release stores go on (R35, R137,
R318), the vector commands with the tiles that they read. -/
def Context.emptied (x : Context) : Context :=
  { mq := x.mq, vq := x.vq.map (fun q => if q.kept.isSome then q else { q with kept := some x.t }), cq := x.cq, rel := x.rel }

/-- End the activation of a context, for any reason (R35, R64, R134, R226, R375): its registers are unbound, its write counts
move to the background, its pipes depart, and the context is free. -/
def State.clearActivation (s : State) (core : CoreId) (k : CtxId) : State :=
  let s1 := ((s.reportDeferred core k).breakPipes core k).withdrawWaits core k
  let serial := (s.ctxAt core k).act.serial
  let s2 := s1.onCore core (fun c =>
    let x := c.ctx k
    { (((c.dropHeld k serial).setCtx k x.emptied).unyield k).wake (fun w => w == WaitKind.outbox) with
      background := c.background.add x.unack, scan := true })
  { s2 with bindings := s2.bindings.map (fun b => if b.guard = core && b.reader = some (k, serial) then { b with reader := none } else b) }

/-- Free the pail of an activation, if it has one (R43, R168). -/
def Core.freeActPail (c : Core) (a : Act) : Core :=
  match a.source with
  | .pail i => c.freePail i
  | _ => c

/-- A trap end of a context's activation (R168): the record of its FAULTCAUSE, FAULTADDR and FAULTPC, the held messages
dropped, the pail freed, no bound task queued again, and the context released. -/
def State.trapEndOf (s : State) (core : CoreId) (k : CtxId) : State :=
  let x := s.ctxAt core k
  let s1 := s.report core k (causeOf (x.faultCause.toNat % 256)) (recordFlags x.faultCause) x.faultPc x.faultAddr
  let s2 := s1.onCore core (fun c => c.freeActPail x.act)
  s2.clearActivation core k

/-- When the service context is free and the service queue is empty, every parked context ends with a trap end (R51). -/
def State.endParked (s : State) (core : CoreId) : State :=
  let c := s.core core
  if c.ctx3.st = .free && c.svcq.isEmpty then
    ordinary.foldl (fun s k => if (s.ctxAt core k).st = .parked then s.trapEndOf core k else s) s
  else s

/-- End an activation and, if it was the service context's, what follows for the parked ones (R51). -/
def State.endActivation (s : State) (core : CoreId) (k : CtxId) : State := (s.clearActivation core k).endParked core

/-- A trap end, with what follows (R51, R168). -/
def State.trapEnd (s : State) (core : CoreId) (k : CtxId) : State := (s.trapEndOf core k).endParked core

/-! ## Taking a trap -/

/-- The causes that start the fault upcall in contexts 0 to 2 (R167). -/
def recoverable : Cause → Bool
  | .pageNp | .pageProt | .pageRsvd | .singular | .pipeBroken | .waitTimeout | .accOrphan | .format | .divzero => true
  | _ => false

/-- Take a trap in a context of a core (R165, R167, R168, R171): FAULTCAUSE, FAULTADDR and FAULTPC are written and the trap is
logged; then a recoverable cause of an ordinary context parks it and queues handler 254, and every other trap ends the
activation, as a recoverable one does where entry 254 is not valid (R49). -/
def State.trapAt (s : State) (core : CoreId) (k : CtxId) (i : TrapInfo) : State :=
  let s1 := s.logTrap core k (causeCode i.cause) (s.ctxAt core k).pc
  let s2 := s1.onCtx core k (fun x => { x with faultCause := i.word, faultAddr := i.addr, faultPc := x.pc, op := {}, st := .ready })
  if k ≠ 3#2 && recoverable i.cause && ((s2.core core).entry? 254#8).isSome then
    (s2.onCtx core k (fun x => { x with st := .parked })).onCore core (fun c =>
      c.serve { index := 254#8, g3 := BitVec.ofNat 64 k.toNat, g4 := BitVec.ofNat 64 (causeCode i.cause), g5 := i.addr,
                g6 := (c.ctx k).pc, cause := i.word })
  else s2.trapEnd core k

/-- The context whose fault registers a context reads: during an upcall the parked one (R171). -/
def Core.faultCtx (c : Core) (k : CtxId) : Context :=
  if k = 3#2 then
    match (c.ctx k).act.svc with
    | some t => if t.index = 254#8 then c.ctx (BitVec.ofNat 2 t.g3.toNat) else c.ctx k
    | none => c.ctx k
  else c.ctx k

/-- A trap of the issuing context. -/
def State.trap (s : State) (i : TrapInfo) : State := s.trapAt s.meId s.me.cur i

/-- A trap that has no address. -/
def State.trapPlain (s : State) (c : Cause) : State := s.trap { cause := c }

/-! ## Kills -/

/-- Cancel the copy commands of an activation (R312): those that have not started are dropped, and the one that the engine executes
stops where it is; one already handed back has stopped. -/
def cancelIn (serial : Nat) (l : List CopyCmd) : List CopyCmd :=
  (l.filter (fun q => q.handed || q.started || q.serial ≠ serial)).map (fun q =>
    if q.started && q.serial = serial then { q with cancelled := true } else q)

/-- Cancel the copy commands of a context's activation (R312). -/
def Core.cancelCopies (c : Core) (k : CtxId) (serial : Nat) : Core :=
  let x := c.ctx k
  c.setCtx k { x with cq := cancelIn serial x.cq }

/-- A kill that redelivers nothing, before what follows for the parked contexts (R45): the pail is freed. -/
def State.killOnly (s : State) (core : CoreId) (k : CtxId) (code : Nat) : State :=
  let x := s.ctxAt core k
  let s1 := s.logTrap core k code x.pc
  (s1.onCore core (fun c => (c.cancelCopies k x.act.serial).freeActPail x.act)).clearActivation core k

/-- A kill that redelivers nothing: a lifeguard fail or a host kill (R45, R229), with what follows (R51). -/
def State.killPlain (s : State) (core : CoreId) (k : CtxId) (code : Nat) : State := (s.killOnly core k code).endParked core

/-- A core becomes suspect (R237). -/
def State.suspect (s : State) (core : CoreId) : State :=
  if s.parlour.suspect.contains core then s
  else { s with parlour := { s.parlour with suspect := s.parlour.suspect ++ [core] } }

/-- A kill for an uncorrectable error at an instruction (R45, R236, R237): a pail with NRD = 0 is retained and queued again at once, a bound or
reserved task is queued again, until the third kill, which frees it and makes the core suspect. FAULTCAUSE, FAULTADDR and FAULTPC
are written as for a trap (R165, R382). DESIGN CHOICE: a retained pail is queued again at the priority of the activation that it was, which for a
spawned child is its parent's (R355), and not at the higher of the header's PRI and the entry's default (R46 is silent; log entry 106). -/
def State.killAt (s : State) (core : CoreId) (k : CtxId) (i : TrapInfo) (pc : Word) : State :=
  let x := s.ctxAt core k
  let c := s.core core
  let kills := match x.act.source with
    | .pail p => (c.pails[p]?).elim 0 (·.kills)
    | .task _ _ n => n
    | .service => (x.act.svc.map (·.kills)).getD 0
  let third := 2 ≤ kills
  let nrd := match x.act.source with | .pail _ => x.act.header.getLsbD 16 | _ => false
  let again := !third && !nrd && (x.act.source ≠ .service || x.act.svc.isSome)
  let s0 := s.onCtx core k (fun x => { x with faultCause := i.word, faultAddr := i.addr, faultPc := pc })
  let s1 := s0.logTrap core k 18 pc
  let s2 := s1.report core k .uncorrectable (recordFlags i.word ||| (if again then 0#8 else 4#8)) pc i.addr
  let s3 := if third then s2.suspect core else s2
  let s4 := s3.onCore core (fun c =>
    let c1 := c.cancelCopies k x.act.serial
    match x.act.source with
    | .pail p =>
      if again then
        (c1.onPail p (fun q => { q with st := .queued, kills := kills + 1 })).enqueue
          { place := .pail p, pri := x.act.pri, handler := x.act.handler }
      else c1.freePail p
    | .task h a _ =>
      if again then c1.enqueue { place := .context k, pri := c1.entryPri h, handler := h, arg := a, kills := kills + 1 } else c1
    | .service =>
      match x.act.svc with
      | some t => if again then c1.offer { t with kills := kills + 1 } else c1
      | none => c1)
  s4.endActivation core k

/-- A kill for an uncorrectable error at the instruction where the context stands. -/
def State.killUncorrectable (s : State) (core : CoreId) (k : CtxId) (i : TrapInfo) : State := s.killAt core k i (s.ctxAt core k).pc

/-- A fault of the issuing instruction: a trap, or for poison a kill (R236). -/
def State.faultOut (s : State) (i : TrapInfo) : State :=
  if i.cause = .uncorrectable then s.killUncorrectable s.meId s.me.cur i else s.trap i

/-! ## The start of an activation -/

/-- The header of a delivered message has the pail's first doubleword (R42). -/
def Core.pailDword (c : Core) (i w : Nat) : Word := c.localMem.dword (128 * i + 8 * w)

/-- The start values of the registers that R31 lists, for one activation. -/
def startRegs (g1 g2 g3 g4 g5 g6 g28 stack : Word) : Vector Word 32 :=
  ((((((((Vector.replicate 32 0#64).set 1 g1).set 2 g2).set 3 g3).set 4 g4).set 5 g5).set 6 g6).set 28 g28).set 29 stack |>.set 30 stack

/-- Start an activation in a context (R31): its start block, its handler's PC, the gang's mode and an acquire at the scope
given (R143). -/
def State.startIn (s : State) (core : CoreId) (k : CtxId) (a : Act) (pc g1 g2 g3 g4 g5 g6 : Word) (qb : BitVec 8)
    (acq : Scope) : State :=
  let s1 := s.onCore core (fun c =>
    let x := c.ctx k
    let y : Context :=
      { x.emptied with
        st := .ready, pc := pc, act := { a with serial := c.serial }, sup := c.sup, qbound := qb
        g := startRegs g1 g2 g3 g4 g5 g6 (selfWindow c.regionOff) c.stackTop[k.toNat] }
    { c.setCtx k y with serial := c.serial + 1 })
  s1.acquireLines core k acq

/-- A wait is answered by an event of the outside: the context issues its instruction again. -/
def State.ready (s : State) (core : CoreId) (k : CtxId) : State :=
  s.onCtx core k (fun x => if x.st = .waiting then { x with st := .ready } else x)

end Sys2Proof.Machine
end

