-- ==== Sys2Proof/Machine/Serve.lean ====
section
/-! DEFINITION. What homes do with the requests that reach them: writes, replica forwarding, atomics, AQ and line fills (R121,
R132, R141, R147 to R149, R245, R294, R297), each after the earlier writes of the same core to the same line (R133). -/
namespace Sys2Proof.Machine

/-- The value that an atomic writes, or none where a CAS fails (R294). Integer comparisons are at `n` bytes. -/
def amoValue (aop n old v cmp : Nat) : Option Nat :=
  let m := 2 ^ (8 * n)
  let o := old % m
  let w := v % m
  let less : Bool := (sextBytes n o).slt (sextBytes n w)
  let f (g : Lane → Lane → FOut) : Nat := (g (BitVec.ofNat 32 o) (BitVec.ofNat 32 w)).v.toNat
  match aop with
  | 0 => some ((o + w) % m)
  | 1 => some w
  | 2 => some (o &&& w)
  | 3 => some (o ||| w)
  | 4 => some (o ^^^ w)
  | 5 => some (if less then o else w)
  | 6 => some (if less then w else o)
  | 7 => some (Nat.min o w)
  | 8 => some (Nat.max o w)
  | 9 => some (f (fAdd 0#3))
  | 10 => some (f fMin)
  | 11 => some (f fMax)
  | _ => if o = cmp % m then some w else none

/-- The value that an AQ writes: read, fetch-add, fetch-or, swap (R61, R297). -/
def aqValue (op : Nat) (old v : Word) : Option Word :=
  match op with | 0 => none | 1 => some (old + v) | 2 => some (old ||| v) | _ => some v

/-- Keep the deferred faults of a context in issue order (R103). -/
def deferInsert (d : Deferred) : List Deferred → List Deferred
  | [] => [d]
  | e :: r => if d.order < e.order then d :: e :: r else e :: deferInsert d r

/-- Remember a fault of an activation for its next FENCE (R103, R141, R296); once the activation has ended, the fault goes to the
supervisor's queue. -/
def State.deferAt (s : State) (r : Req) (i : TrapInfo) (sc : Option Scope) (order : Nat) : State :=
  let x := s.ctxAt r.core r.ctx
  if !r.bg && x.act.serial = r.serial then
    s.onCtx r.core r.ctx (fun x => { x with deferred := deferInsert { info := i, scope := sc, order := order } x.deferred })
  else s.report r.core r.ctx i.cause (recordFlags ({ i with deferred := true } : TrapInfo).word) 0#64 i.addr

/-- The place in the issue order of an instruction that issues before the next packet is sent (R103). -/
def State.orderNow (s : State) : Nat := 2 * s.nextPkt

/-- The place in the issue order of a write for its refusal (R103): that of its TST, or that of its packet. -/
def State.orderOf (s : State) (r : Req) (id : Nat) : Nat :=
  (((s.ctxAt r.core r.ctx).vq.find? (fun q => q.sent.contains id)).map (·.order)).getD (2 * id + 1)

/-- A destination refuses a write (R103, R363): it writes nothing, and its fault waits for a FENCE. -/
def State.refuse (s : State) (id : Nat) (r : Req) (i : TrapInfo) (sc : Scope) : State :=
  (s.deferAt r i (some sc) (s.orderOf r id)).onCtx r.core r.ctx (fun x =>
    { x with vq := x.vq.map (fun q => if q.sent.contains id then { q with refused := q.refused ++ [id] } else q) })

/-- Remember that a peer has refused a write (R103, R246): it writes nothing, and is acknowledged. -/
def State.peerRefused (s : State) (id : Nat) (r : Req) (va : Nat) (sc : Scope) : State :=
  ((s.dropPacket id).refuse id r { cause := .window, write := true, addr := BitVec.ofNat 64 va } 3#2).sendAck r sc

/-- The write is performed: one to host memory, which its port has posted last, is acknowledged by its flush (R245), a replicated one
goes on to the other replicas (R149), and every other one is acknowledged. -/
def State.settle (s : State) (t : Tenant) (r : Req) (xl : Xl) (cells : List Host.Cell) (poison : Bool) (sc : Scope) : State :=
  match xl.region with
  | .host =>
    match s.parlour.posted.getLast? with
    | some p =>
      if s.parlour.linkDown.contains t.aport then s.sendAck r sc
      else { s with parlour := { s.parlour with posted := s.parlour.posted.dropLast ++ [{ p with ack := some (r, sc) }] } }
    | none => s.sendAck r sc
  | _ =>
    match State.otherReplicas t xl with
    | [] => s.sendAck r sc
    | rest => s.sendPacket 0#2 r.pri (.forward r xl cells poison rest sc)

/-- The stamp that a release at a scope leaves: none at sys, and none at an attachment (R147). -/
def stampFor (xl : Xl) (stamp : Option Scope) : Option Scope :=
  match xl.region with
  | .hbm => stamp.filter (fun sc => sc ≠ 3#2)
  | _ => none

/-- Leave the stamp that a release leaves at a home (R147). -/
def State.leaveStamp (s : State) (home core : CoreId) (xl : Xl) (stamp : Option Scope) : State :=
  (stampFor xl stamp).elim s (fun sc => s.putStamp home core xl sc)

/-- Serve a write at its home, a release's stamp with it, so that what waits at the address meets the stamp (R121, R147, R375). -/
def State.serveWrite (s : State) (id : Nat) (r : Req) (xl : Xl) (va : Nat) (cells : List Host.Cell) (poison : Bool)
    (stamp : Option Scope) (sc : Scope) : State :=
  match s.ownerOf r.core with
  | none => (s.dropPacket id).sendAck r sc
  | some t =>
    if s.peerDenies t xl then s.peerRefused id r va sc
    else
    let s1 := (s.dropPacket id).leaveStamp (s.homeOf t.id xl (dieOf r.core) false) r.core xl stamp
    (s1.perform t (dieOf r.core) xl cells poison).settle t r xl cells poison sc

/-- Serve a forwarded write at the next replica, behind the earlier forwards of its line to that replica (R122, R149). -/
def State.serveForward (s : State) (p : Packet) (r : Req) (xl : Xl) (cells : List Host.Cell) (poison : Bool) (rest : List CoreId)
    (sc : Scope) : State :=
  match s.ownerOf r.core, rest with
  | some t, d :: rest =>
    if s.net.any (fun q => q.id < p.id && q.forwardsTo xl.pa d) then s
    else (s.writeReplica t xl d cells poison).forwardOn p r xl cells poison rest sc
  | _, _ => (s.dropPacket p.id).sendAck r sc

/-- The core name of a request from outside the module: it names no core, so its answer leaves the module. -/
def outsideReq : Req := { core := 0xFFFFF#20, ctx := 0#2, serial := 0, bg := true }

/-- Answer an outside request: 0 with its bytes, 1 refused, 2 no room in the wait table (R375), 3 poisoned. -/
def State.peerAnswer (s : State) (status : Nat) (data : List Byte) : State :=
  { s with parlour := { s.parlour with peerReply := some (status, data) } }

/-- Give a returning atomic its old value. One that acquires and has met a stamp whose scope its core lies outside is answered only once the stamp's
releaser has drained (R147): its read-modify-write keeps its place in the arrival order of its line, and its answer is held (R71, R141). -/
def State.answerAtomic (s : State) (r : Req) (home : CoreId) (block : Option Stamp) (n : Nat) (old : Word) : State :=
  match block with
  | none => s.answer r (fun o => { o with result := some old })
  | some st =>
    (s.askDrain home st (scopeOf st.core r.core) false).sendPacket 1#2 r.pri (.atomicAns r home st (scopeOf st.core r.core) n old true)

/-- The answer of an atomic that is held for a drain: it leaves once the drain is done, which is asked for again where it is not on its way (R147). -/
def State.giveHeld (s : State) (id : Nat) (r : Req) (home : CoreId) (st : Stamp) (sc : Scope) (n : Nat) (old : Word) (due : Bool) : State :=
  if due then s.askDrain home st sc false
  else if r.core = outsideReq.core then (s.dropPacket id).peerAnswer 0 (leBytesOf n old.toNat)
  else (s.dropPacket id).answer r (fun o => { o with result := some old })

/-- Serve an atomic at its home as one read-modify-write (R141, R294), in the order of arrival at its line (R71). -/
def State.serveAtomic (s : State) (id : Nat) (r : Req) (xl : Xl) (va : Word) (aop : BitVec 4) (dword : Bool) (operand compare : Word)
    (ret : Bool) (stamp acq : Option Scope) (sc : Scope) : State :=
  match s.ownerOf r.core with
  | none => (s.dropPacket id).sendAck r sc
  | some t =>
    let die := dieOf r.core
    let home := s.homeOf t.id xl die false
    if s.peerDenies t xl then
      (if ret then (s.dropPacket id).answer r (fun o => { o with fault := some { cause := .window, write := true, addr := va } })
       else s.peerRefused id r va.toNat sc)
    else
    let block := if acq.isSome then s.blockingStamp home r.core xl.pa else none
    let n := if dword then 8 else 4
    let (s1, bytes, bad) := (s.dropPacket id).readHome t die xl n false
    if bad then
      (if ret then s1.answer r (fun o => { o with fault := some (poisonAtomic va) }) else s1.sendAck r sc)
    else
      let old := leOf bytes
      let s2 := s1.leaveStamp home r.core xl stamp
      let s3 := match amoValue aop.toNat n old operand.toNat compare.toNat with
        | some v => (s2.perform t die xl (cellsAt xl.pa (leBytesOf n v)) false).hostDone xl
        | none => s2
      let cells := match amoValue aop.toNat n old operand.toNat compare.toNat with
        | some v => cellsAt xl.pa (leBytesOf n v)
        | none => []
      if ret then (s3.toReplicas t xl cells false).answerAtomic r home block n (BitVec.ofNat 64 old)
      else if xl.region = .host then s3.sendAck r sc
      else s3.settle t r xl cells false sc

/-- Serve an AQ at its home and send its answer; a poisoned line is not written and its poison answers (R297). DESIGN CHOICE: one that a peer
refuses writes nothing and has no answer (R246; log entry 28). -/
def State.serveAq (s : State) (id : Nat) (r : Req) (xl : Xl) (va : Nat) (desc operand : Word) (sc : Scope) : State :=
  match s.ownerOf r.core with
  | none => s.dropPacket id
  | some t =>
    if s.peerDenies t xl then s.peerRefused id r va sc
    else
    let die := dieOf r.core
    let op := fld desc.toNat 21 3
    let (s1, bytes, bad) := (s.dropPacket id).readHome t die xl 8 false
    let old : Word := BitVec.ofNat 64 (leOf bytes)
    let s2 := match (if bad then none else aqValue op old operand) with
      | some v => (s1.performAll t die xl (cellsAt xl.pa (leBytesOf 8 v.toNat)) false).hostDone xl
      | none => s1
    s2.sendPacket 1#2 r.pri (.aqAns r desc old bad sc)

/-- Serve one write, atomic or AQ request. -/
def State.serveOne (s : State) (p : Packet) : State :=
  match p.body with
  | .write r xl va cells poison stamp sc => s.serveWrite p.id r xl va cells poison stamp sc
  | .atomic r xl va aop dword operand compare ret stamp acq sc =>
    s.serveAtomic p.id r xl va aop dword operand compare ret stamp acq sc
  | .aqReq r xl va desc operand sc => s.serveAq p.id r xl va desc operand sc
  | _ => s

/-- Perform every write of a core to a line that is on its way, in order, up to a packet id (R133). -/
def State.serveLine (s : State) (core : CoreId) (pa upTo : Nat) : State :=
  (s.net.filter (fun p => p.id ≤ upTo && p.writesLine core pa)).foldl State.serveOne s

/-- Perform every write of a core to a line that is on its way, at the home or the replica that the core reads, before the core reads it
there (R133). -/
def State.ownWrites (s : State) (core : CoreId) (pa : Nat) : State := (s.serveLine core pa s.nextPkt).ownForwards core pa

/-- A prefetch's line that has arrived, where its context has acquired meanwhile: what is not dirty in it is invalidated, as the acquire would have (R138,
R345). -/
def State.afterFill (s : State) (core : CoreId) (xl : Xl) (acquired : Option Scope) : State :=
  acquired.elim s (fun sc => s.onCore core (fun c => c.l1Invalidate (fun l => l.within sc && l.xl.pa / 64 = xl.pa / 64)))

/-- Serve a line fill: the bytes come from the home as it stands after the core's own writes, those behind the fill among them, so that no
later streaming store is undone (R108, R133). -/
def State.serveFill (s : State) (id : Nat) (r : Req) (xl : Xl) (va : Nat) (stream ifetch : Bool) : State :=
  match s.ownerOf r.core with
  | none => s.dropPacket id
  | some t =>
    let s1 := s.ownWrites r.core xl.pa
    if s1.peerDenies t xl then
      (s1.dropPacket id).answer r (fun o => { o with fault := some { cause := .window, fetch := ifetch, addr := BitVec.ofNat 64 va } })
    else
      let base := xl.base
      let (s2, bytes, bad) := (s1.dropPacket id).readHome t (dieOf r.core) base 64 true
      let s3 :=
        if ifetch then
          s2.onCore r.core (fun c =>
            { c with il1 := lruPut (fun l : ILine => l.pa = base.pa) 128 { pa := base.pa, data := (cellsAt base.pa bytes).filter (fun c => c.2 ≠ 0#8), poison := bad } c.il1 })
        else ((s2.l1Agree r.core xl).l1Fill r.core xl va bytes bad stream).afterFill r.core xl ((s.packet id).bind (·.acquired))
      s3.answer r (fun o => o)

end Sys2Proof.Machine
end

