-- ==== Sys2Proof/Machine/Operands.lean ====
section
/-! DEFINITION. How an instruction reaches its operands: its destination under R34, its address with the checks of R97, R103
and R156, loads, stores and atomics through L1, at homes, in local memory and over the window (R104, R105, R108, R134 to R142),
and the log under the lag limit (R222). Each operation takes what the instruction does next; where it stops, the trap or the
wait is taken instead. -/
namespace Sys2Proof.Machine

/-! ## Destinations -/

/-- Go on only if the activation may write the register (R34); otherwise ILLEGAL, before any effect. -/
def State.withDest (s : State) (d : BitVec 5) (f : State → State) : State :=
  if s.cx.mayG d then f s else s.trapPlain .illegal

/-- Write a register and retire an instruction of some words. -/
def State.finish (s : State) (d : BitVec 5) (v : Word) (words : Nat) : State := (s.onCx (fun x => x.setG d v)).retire words

/-- A register-only instruction of one word: write the result under R34 and retire. -/
def State.result (s : State) (d : BitVec 5) (v : Word) : State := s.withDest d (fun s => s.finish d v 1)

/-- Supervisor mode or PRIV (R258, R263). -/
def State.withPriv (s : State) (f : State → State) : State := if s.cx.sup then f s else s.trapPlain .priv

/-! ## Logging -/

/-- The activation has performed a store, atomic, AQ, pipe advance or engine command since its last clean containment (R229). -/
def State.dirty (s : State) : State := s.onCx (fun x => { x with act := { x.act with dirtied := true } })

/-- A lifeguard fail acts on an activation (R229): the LG_VIOLATION record, and a kill without redelivery, whose TRAP record takes the
number of an ACT record that still waits. -/
def State.lgFail (s : State) (core : CoreId) (k : CtxId) (type seq : Nat) (pc addr : Word) (late : Bool) : State :=
  let a := (s.ctxAt core k).act
  let s1 := s.reportTo (s.tenantNo core)
    { cause := .lgViolation, flags := if late then 1#8 else 0#8, core := core,
      low8 := BitVec.ofNat 32 (seq % 65536 * 65536 + a.handler.toNat * 256 + type * 4 + k.toNat), w10 := pc, w18 := addr }
  (s1.onCtx core k (fun x => { x with act := { x.act with begun := true } })).killPlain core k 16

/-- Go on once the log has room for the instruction's record, and log it (R222); a lag wait longer than WAITLIM is a fail of
type 15, late where the waiting record itself is one of a store, an atomic or an engine command (R229). What has its answer as its gang is
saved does not wait (R177, R355). -/
def State.withLog (s : State) (i : LogItem) (f : State → State) : State :=
  if s.logRoom s.meId s.me.cur i then f (s.log s.meId s.me.cur { i with dirty := i.dirty || s.cx.act.dirtied })
  else if s.savingAt s.meId && s.cx.op.phase = 9 then f (s.logLater s.meId s.me.cur { i with dirty := i.dirty || s.cx.act.dirtied })
  else if s.cx.timedOut then
    s.lgFail s.meId s.me.cur 15 ((s.workerBinding s.meId).elim 0 Binding.waitingSeq) s.cx.pc 0#64 (i.dirty || s.cx.act.dirtied)
  else s.await .lag true s.cx.op.phase

/-! ## Local memory -/

/-- The areas of local memory (R105). -/
inductive Area where
  | pail | spill | servicePail | ring | shared | closed
  deriving DecidableEq, Repr

/-- The area of a local offset (R42, R105, R107); a line of the ring that UNPIN has released is pinned no longer (R111). -/
def Core.area (c : Core) (off : Nat) : Area :=
  if c.gang.isNone || 0x7000 ≤ off then .closed
  else if off < c.pailBytes then .pail
  else if off < c.pailBytes + 2048 then .spill
  else if off < c.pailBytes + 2176 then .servicePail
  else if c.ringOff ≤ off && off < c.ringOff + c.ringLen && c.pinned (off / 64) then .ring
  else if c.regionOff ≤ off && off < c.regionEnd then .shared
  else if c.pinBy.getLsbD (off / 64) then .shared
  else .closed

/-- Whether a self access may reach an offset (R105); atomics reach only the shared areas. -/
def Core.selfOpen (c : Core) (off : Nat) (atomic : Bool) : Bool :=
  match c.area off with
  | .closed => false
  | .shared => true
  | _ => !atomic

/-- Whether another core of the tenant may reach an offset (R105). -/
def Core.otherOpen (c : Core) (off : Nat) : Bool := c.area off = .shared

/-- Read local memory: the spill region reads zero (R33). -/
def Core.localRead (c : Core) (off n : Nat) : Nat := if c.area off = .spill then 0 else c.localMem.value off n
/-- Write local memory: stores to the spill region are discarded (R33); a whole line written is free of poison (R238). -/
def Core.localWrite (c : Core) (off n v : Nat) : Core :=
  if c.area off = .spill then c
  else
    { c with
      localMem := c.localMem.store off n v
      localPoison := if n = 64 && off % 64 = 0 then c.localPoison.filter (fun d => d / 8 ≠ off / 64) else c.localPoison }
/-- Poison bytes of local memory (R234, R297). -/
def Core.poisonLocal (c : Core) (off n : Nat) : Core :=
  { c with localPoison := distinct ((List.range ((off + n + 7) / 8 - off / 8)).map (fun i => off / 8 + i) ++ c.localPoison) }
/-- Whether one of `n` bytes of local memory is poisoned; poison is kept by doubleword (R234, R297). -/
def Core.localBad (c : Core) (off n : Nat) : Bool :=
  n ≠ 0 && (List.range ((off + n + 7) / 8 - off / 8)).any (fun i => c.localPoison.contains (off / 8 + i))

/-! ## Addresses -/

/-- The 57-bit address of a base and an offset; the tag bits take no part (R97). -/
def addrOf (base off : Word) : Nat := (base + off).toNat % 2 ^ 57

/-- What a window address names, or none where R103 makes it a WINDOW fault (R102). -/
def windowTarget (me : CoreId) (va : Nat) : Option Tgt :=
  let die := fld va 38 6
  let off := va % 2 ^ 15
  if fld va 44 4 ≠ 0 || fld va 15 8 ≠ 0 then none
  else if die = 63 then (if fld va 23 15 ≠ 0 then none else some (.self off))
  else if 32 ≤ die then none
  else
    let c := mkCore die (fld va 33 5) (fld va 28 5) (fld va 23 5)
    if !namesCore c then none
    else if c = me then some (.self off)
    else some (.core c off)

/-- A fault at an address. -/
def faultAt (c : Cause) (va : Nat) (k : Access) (level : BitVec 3) : TrapInfo :=
  { cause := c, level := level, fetch := k = .fetch, write := k = .write, addr := BitVec.ofNat 64 va }

/-- The steer entry that covers an address (R160). -/
def Core.steer? (c : Core) (tn va : Nat) : Option PageEntry := c.steer.find? (fun e => e.covers tn va)

/-- Install a steer entry, most recently used of 32 (R160). -/
def Core.putSteer (c : Core) (e : PageEntry) : Core := { c with steer := lruPut (fun x => x.same e) 32 e c.steer }

/-- Touch the vat-record cache of 8 (R160). -/
def Core.putVat (c : Core) (i : Nat) : Core := { c with vatCache := lruPut (fun x => x = i) 8 i c.vatCache }

/-- Ask the translation home of the core's die; the context waits for the answer (R161, R288). -/
def State.askXl (s : State) (va : Nat) (k : Access) (pref : Bool) : State :=
  let r := s.reqOf s.meId s.me.cur
  let s1 := s.sendPacket 0#2 r.pri (.xlateReq r (s.tenantNo s.meId) va k (!s.cx.sup) pref false)
  if pref then s1 else s1.await .translation false s.cx.op.phase

/-- Translate a paged address of the issuing context (R156, R160, R163): the answer that has just arrived, or the steer table;
on a miss the context waits, and before one that is still out (R288). -/
def State.withXlOr (s : State) (va : Nat) (k : Access) (bad : State → TrapInfo → State) (f : State → Xl → State) : State :=
  if s.missOut then s.await .counters false s.cx.op.phase else
  match s.ownerOf s.meId with
  | none => bad s (faultAt .pageNp va k 5#3)
  | some t =>
    let usable (e : PageEntry) : Bool := e.covers t.id va && (k ≠ .write || e.d)
    match (s.cx.op.leaf.filter usable).orElse (fun _ => (s.me.steer? t.id va).filter usable) with
    | none => s.askXl va k false
    | some e =>
      match leafFault t e va k (!s.cx.sup) with
      | some c => bad s (faultAt c va k e.level)
      | none =>
        f (s.onMe (fun c => (if c.steer.any (fun x => x.same e) then c.putSteer e else c).putVat e.vat)) (e.xl va)

/-- Translate, trapping on a fault. -/
def State.withXl (s : State) (va : Nat) (k : Access) (f : State → Xl → State) : State := s.withXlOr va k State.trap f

/-- Reach a target: the checks of R103 for the window, and for a paged address ALIGN and then translation (R97, R263). A fault
of the translation, or one that an answer has brought, goes to `bad`. DEDUCED: a window address that is malformed and misaligned raises WINDOW,
in the order of R103, although R334 and R356 write ALIGN first (log entry 115). -/
def State.withTargetOr (s : State) (va n : Nat) (k : Access) (atomic : Bool) (bad : State → TrapInfo → State)
    (f : State → Tgt → State) : State :=
  match s.cx.op.fault with
  | some i => bad s i
  | none =>
    if inWindow va then
      match windowTarget s.meId va with
      | none => s.trap (faultAt .window va k 0#3)
      | some t =>
        if va % n ≠ 0 then s.trap (faultAt .align va k 0#3)
        else match t with
          | .self off => if s.me.selfOpen off atomic then f s t else s.trap (faultAt .window va k 0#3)
          | _ => f s t
    else if va % n ≠ 0 then s.trap (faultAt .align va k 0#3)
    else s.withXlOr va k bad (fun s xl => f s (.paged xl))

/-- Reach a target, trapping on every fault; poison kills (R236). -/
def State.withTarget (s : State) (va n : Nat) (k : Access) (atomic : Bool) (f : State → Tgt → State) : State :=
  s.withTargetOr va n k atomic State.faultOut f

/-- Translate a paged address without alignment (R323). -/
def State.withPage (s : State) (va : Nat) (k : Access) (f : State → Xl → State) : State :=
  match s.cx.op.fault with
  | some i => s.faultOut i
  | none => s.withXl va k f

/-! ## Loads -/

/-- How a load reads: through L1, as a streaming load, or as an acquire at a scope (R334). -/
inductive LoadMode where
  | plain | stream | acquire (sc : Scope)
  deriving DecidableEq, Repr

/-- The place that an access reaches, by which the same bytes are known through every address that names them (R133): a local offset, a core with
its offset, or a physical address. -/
def relKey (t : Tgt) : Nat :=
  match t with
  | .self off => off
  | .core c off => 2 ^ 20 * (c.toNat + 1) + off
  | .paged xl => 2 ^ 60 + xl.pa

/-- Bytes of the context's own release stores that are still to be performed, over what a load read at a place (R133, R137). -/
def overRel (rels : List RelStore) (key : Nat) (bytes : List Byte) : List Byte :=
  (List.range bytes.length).map (fun i =>
    rels.foldl (fun b r =>
      let lo := relKey r.tgt
      if lo ≤ key + i && key + i < lo + r.size then BitVec.ofNat 8 (r.value.toNat / 256 ^ (key + i - lo)) else b) (bytes[i]?.getD 0#8))

/-- Whether bytes at a place overlap a release store still to be performed. -/
def Context.relOverlaps (x : Context) (key n : Nat) : Bool :=
  x.rel.any (fun r => relKey r.tgt < key + n && key < relKey r.tgt + r.size)

/-- Send a window access to its owner (R104, R142). -/
def State.sendWindow (s : State) (r : Req) (dst : CoreId) (off va : Nat) (op : WinOp) : State :=
  s.sendPacket 0#2 r.pri (.window dst r off (BitVec.ofNat 64 va) op (scopeOf r.core dst))

/-- Whether one of `n` bytes at an address is a dirty byte of a line that is poisoned (R234, R236). -/
def Core.dirtyBad (c : Core) (pa n : Nat) : Bool := (c.l1Line? pa).any (fun l => l.poison && l.dirty &&& byteMask pa n ≠ 0#64)

/-- The dirty bytes of L1 over bytes read at the home (R133, R138). -/
def Core.overDirty (c : Core) (pa : Nat) (bytes : List Byte) : List Byte :=
  match c.l1Line? pa with
  | none => bytes
  | some l => (List.range bytes.length).map (fun i =>
      if l.dirty.getLsbD ((pa + i) % 64) then l.data.get (pa + i) else bytes[i]?.getD 0#8)

/-- Go on once no release store of the context to the bytes is still to be performed (R133, R137). -/
def State.afterRel (s : State) (key n : Nat) (f : State → State) : State :=
  if s.cx.relOverlaps key n then s.await .counters false s.cx.op.phase else f s

/-- A read that is sent away and answered, as phase 9, goes behind the context's own release stores to its bytes (R133, R137). -/
def State.beforeRead (s : State) (key n : Nat) (send : State → State) : State :=
  if s.cx.op.phase = 9 then s.await .reply false 9 else s.afterRel key n (fun s => (send s).await .reply false 9)

/-- Read at the home of a paged address as an acquire load does (R138, R147): a stamp whose scope the core lies outside is
drained first; host memory answers by a packet (R245). -/
def State.loadAtHome (s : State) (xl : Xl) (va n : Nat) (f : State → List Byte → State) : State :=
  let r := s.reqOf s.meId s.me.cur
  match s.ownerOf s.meId with
  | none => s.trap (faultAt .pageNp va .read 5#3)
  | some t =>
    if s.me.dirtyBad xl.pa n then s.faultOut (poisonTrap (BitVec.ofNat 64 va))
    else match s.cx.op.result with
    | some v => f s (s.me.overDirty xl.pa (leBytesOf n v.toNat))
    | none =>
      if xl.region = .host then
        s.beforeRead (relKey (.paged xl)) n (fun s => s.sendPacket 0#2 r.pri (.hostRead r (busOf t xl.pa) n))
      else
        let home := s.homeOf t.id xl (dieOf s.meId) true
        if s.peerDenies t xl then s.trap (faultAt .window va .read 0#3)
        else match s.blockingStamp home s.meId xl.pa with
        | some st => (s.askDrain home st (scopeOf st.core s.meId) false).await .reply false s.cx.op.phase
        | none =>
          let (s2, bytes, bad) := (s.ownWrites s.meId xl.pa).readHome t (dieOf s.meId) xl n true
          if bad then s2.faultOut (poisonTrap (BitVec.ofNat 64 va)) else f s2 (s2.me.overDirty xl.pa bytes)

/-- Read through L1 (R108, R136): a miss fetches the line, and the context waits for its fill. DESIGN CHOICE: a streaming load that hits does not
make the line recently used (R108 is silent; log entry 109). -/
def State.loadThroughL1 (s : State) (xl : Xl) (va n : Nat) (stream : Bool) (f : State → List Byte → State) : State :=
  let r := s.reqOf s.meId s.me.cur
  if !s.agreeRoom s.meId xl then s.await .counters false s.cx.op.phase else
  let s1 := s.l1Agree s.meId xl
  let m := byteMask xl.pa n
  match (s1.me.l1Line? xl.pa).filter (fun l => l.valid &&& m = m) with
  | some l =>
    if l.poison then s1.faultOut (poisonTrap (BitVec.ofNat 64 va))
    else f (if stream then s1 else s1.onMe (fun c => c.l1Touch xl.pa)) (l.data.read xl.pa n)
  | none => (s1.sendPacket 0#2 r.pri (.fill r xl va stream false)).await .fill false s1.cx.op.phase

/-- Load `n` bytes at an address and go on with their little-endian value (R334), with the context's own release stores over it (R133); the spill
region gives zero whatever is stored there (R33). -/
def State.load (s : State) (va n : Nat) (mode : LoadMode) (f : State → Nat → State) : State :=
  s.withTarget va n .read false (fun s t =>
    let key := relKey t
    let laid (bs : List Byte) : Nat := leOf (overRel s.cx.rel key bs)
    match t with
    | .self off =>
      if s.me.localBad off n then s.faultOut (poisonTrap (BitVec.ofNat 64 va))
      else
        let v := if s.me.area off = .spill then s.me.localRead off n else laid (leBytesOf n (s.me.localRead off n))
        match mode with
        | .acquire sc => f (s.acquireLines s.meId s.me.cur sc) v
        | _ => f s v
    | .core dst off =>
      match s.cx.op.result with
      | some v =>
        (match mode with
        | .acquire sc => f (s.acquireLines s.meId s.me.cur sc) (laid (leBytesOf n v.toNat))
        | _ => f s (laid (leBytesOf n v.toNat)))
      | none =>
        s.beforeRead key n (fun s => s.sendWindow (s.reqOf s.meId s.me.cur) dst off va (.load n false))
    | .paged xl =>
      match mode with
      | .acquire sc => s.loadAtHome xl va n (fun s bs => f (s.acquireLines s.meId s.me.cur sc) (laid bs))
      | .plain => s.loadThroughL1 xl va n false (fun s bs => f s (laid bs))
      | .stream => s.loadThroughL1 xl va n true (fun s bs => f s (laid bs)))

/-! ## Stores -/

/-- Whether one more write of a scope may be counted (R134). -/
def State.countRoom (s : State) (sc : Scope) : Bool := s.cx.unack.at sc < 65535

/-- Go on once the counter of the scope has room (R134); the stall never times out. -/
def State.withCount (s : State) (sc : Scope) (f : State → State) : State :=
  if s.countRoom sc then f s else s.await .counters false s.cx.op.phase

/-- Whether the counters take the writes that a store of an order field sends when it issues: itself, the write-backs of a release, and
what its line replaces (R134, R137). -/
def State.storeRoom (s : State) (o sc : BitVec 2) (t : Tgt) : Bool :=
  if o = 1#2 then
    s.roomFor (s.reqOf s.meId s.me.cur) (fun l => l.within sc) none && (match t with | .paged xl => s.agreeRoom s.meId xl | _ => true)
  else match t with
    | .self _ => true
    | .core dst _ => s.countRoom (scopeOf s.meId dst)
    | .paged xl => if o = 2#2 then s.agreeRoom s.meId xl && s.countRoom (s.scopeOfHome s.meId xl false) else s.installRoom s.meId xl

/-- Go on once a store's writes may be counted (R134). -/
def State.withStoreRoom (s : State) (o sc : BitVec 2) (t : Tgt) (f : State → State) : State :=
  if s.storeRoom o sc t then f s else s.await .counters false s.cx.op.phase

/-- A plain store (R108, R136, R284): into local memory, over the window, or into L1. -/
def State.storePlain (s : State) (t : Tgt) (va n v : Nat) : State :=
  match t with
  | .self off => s.onMe (fun c => c.localWrite off n v)
  | .core dst off =>
    let r := s.reqOf s.meId s.me.cur
    (s.countWrite r (scopeOf s.meId dst)).sendWindow r dst off va (.store n (BitVec.ofNat 64 v))
  | .paged xl => s.l1Store s.meId xl va (cellsAt xl.pa (leBytesOf n v))

/-- A streaming store (R108): paged bytes go to the home, and an L1 copy is updated in place. -/
def State.storeStream (s : State) (t : Tgt) (va n v : Nat) : State :=
  match t with
  | .paged xl =>
    let cells := cellsAt xl.pa (leBytesOf n v)
    ((s.l1Agree s.meId xl).sendWrite (s.reqOf s.meId s.me.cur) xl va cells false none).onMe (fun c => c.l1Update xl.pa cells)
  | _ => s.storePlain t va n v

/-- A release store (R137): it retires now, with its place in the issue order (R103), its lines are written back, and it is performed when its
counters are zero. -/
def State.storeRelease (s : State) (t : Tgt) (va n v : Nat) (sc : Scope) : State :=
  let s1 := s.releaseLines (s.reqOf s.meId s.me.cur) sc
  let s2 := match t with
    | .paged xl => (s1.l1Agree s1.meId xl).onMe (fun c => c.l1Update xl.pa (cellsAt xl.pa (leBytesOf n v)))
    | _ => s1
  let w : RelStore :=
    { serial := s.cx.act.serial, scope := sc, va := va, size := n, value := BitVec.ofNat 64 v, tgt := t, place := s2.nextPkt
      pri := s.cx.act.pri }
  ({ s2 with nextPkt := s2.nextPkt + 1 }).onCx (fun x => { x with rel := x.rel ++ [w] })

/-! ## Atomics -/

/-- The atomics that host memory carries (R244). -/
def hostAtomic (aop : Nat) : Bool := aop = 0 || aop = 1 || aop = 12

/-- Remember a fault of the issuing context. -/
def State.defer (s : State) (i : TrapInfo) (sc : Option Scope) : State := s.deferAt (s.reqOf s.meId s.me.cur) i sc s.orderNow

/-- Before an atomic, the context's own dirty bytes of the line leave L1 and no copy stays (R108, R133). DESIGN CHOICE: the write-back is counted for
the context that issues the atomic (R134 names none; log entry 76). -/
def State.purgeLine (s : State) (xl : Xl) : State :=
  s.l1Flush (s.reqOf s.meId s.me.cur) (fun l => l.xl.pa / 64 = xl.pa / 64)

/-- Whether the counter takes the write-back of a line and one more write of a scope (R134). -/
def State.lineRoom (s : State) (pa : Nat) (more : Option Scope) : Bool :=
  s.roomFor (s.reqOf s.meId s.me.cur) (fun l => l.xl.pa / 64 = pa / 64) more

/-- Go on once a line may be written back, with one more write of a scope (R134). -/
def State.withLineRoom (s : State) (pa : Nat) (more : Option Scope) (f : State → State) : State :=
  if s.lineRoom pa more then f s else s.await .counters false s.cx.op.phase

/-- Steps 1 to 3 of a release by the issuing context (R137): the lines are written back once, at phase `ph`, when the counters have
room (R134), and the context waits until its counters are zero. -/
def State.withRelease (s : State) (sc : Scope) (ph : Nat) (f : State → State) : State :=
  if !s.releaseRoom sc ph then s.await .counters false s.cx.op.phase else
  let s1 := if s.cx.op.phase < ph then s.releaseLines (s.reqOf s.meId s.me.cur) sc else s
  if s1.released s1.meId s1.me.cur sc then f (s1.onCx (fun x => { x with op := { x.op with phase := Nat.max x.op.phase ph } }))
  else s1.await .counters false (Nat.max s1.cx.op.phase ph)

/-- End a wait with its status (R69): a status register takes the code; with g0 the bad codes trap. -/
def State.waitEnd (s : State) (d : BitVec 5) (code : Nat) (bad : Option Cause) : State :=
  if d ≠ 0#5 then s.finish d (BitVec.ofNat 64 code) 1
  else match bad with
    | none => s.retire 1
    | some c => s.trapPlain c

/-- The outstanding answer of a phase: the request has been sent and its answer has not come. -/
def State.awaitReply (s : State) : State := s.await .reply false 9

end Sys2Proof.Machine
end

