-- ==== Sys2Proof/Machine/Branch.lean ====
section
/-! DEFINITION. The meanings of the branches and jumps (R262, R298, R332, R333). A taken one is logged as BRANCH (R224). -/
namespace Sys2Proof.Machine

/-- The record of a taken branch: the signed 4-byte offset (R224, R333). -/
def branchItem (off : Word) : LogItem := { type := 9, body := leBytesOf 4 off.toNat }

/-- The byte offset of a word offset (R262). -/
def wordOffset (n : Nat) (o : BitVec n) : Word := o.signExtend 64 <<< 2

/-- Take a branch by an offset, logged. -/
def State.takeBranch (s : State) (off : Word) : State := s.withLog (branchItem off) (fun s => s.retireTo (s.cx.pc + off))

/-- Branch when a comparison of g[a] and g[b] holds (R298). -/
def State.branchIf (s : State) (p : Word → Word → Bool) (a b : BitVec 5) (o : BitVec 16) : State :=
  if p (s.cx.rg a) (s.cx.rg b) then s.takeBranch (wordOffset 16 o) else s.retire 1

/-- BEQ (R298). -/
def execBeq (a b : BitVec 5) (o : BitVec 16) (s : State) : Answer := .next (s.branchIf (fun x y => x == y) a b o)
/-- BNE (R298). -/
def execBne (a b : BitVec 5) (o : BitVec 16) (s : State) : Answer := .next (s.branchIf (fun x y => x != y) a b o)
/-- BLT (R298). -/
def execBlt (a b : BitVec 5) (o : BitVec 16) (s : State) : Answer := .next (s.branchIf (fun x y => x.slt y) a b o)
/-- BGE (R298). -/
def execBge (a b : BitVec 5) (o : BitVec 16) (s : State) : Answer := .next (s.branchIf (fun x y => !x.slt y) a b o)
/-- BLTU (R298). -/
def execBltu (a b : BitVec 5) (o : BitVec 16) (s : State) : Answer := .next (s.branchIf (fun x y => x.ult y) a b o)
/-- BGEU (R298). -/
def execBgeu (a b : BitVec 5) (o : BitVec 16) (s : State) : Answer := .next (s.branchIf (fun x y => !x.ult y) a b o)

/-- JMP (R332). -/
def execJmp (o : BitVec 26) (s : State) : Answer := .next (s.takeBranch (wordOffset 26 o))

/-- JAL (R332): g31 holds the link. -/
def execJal (o : BitVec 26) (s : State) : Answer :=
  .next (s.withDest 31#5 (fun s => s.withLog (branchItem (wordOffset 26 o)) (fun s =>
    (s.onCx (fun x => x.setG 31#5 (x.pc + 4#64))).retireTo (s.cx.pc + wordOffset 26 o))))

/-- JR (R333). -/
def execJr (a : BitVec 5) (s : State) : Answer :=
  .next (s.withLog (branchItem (s.cx.rg a - s.cx.pc)) (fun t => t.retireTo (s.cx.rg a)))

/-- JALR (R333): the target is read before the link is written. -/
def execJalr (d a : BitVec 5) (s : State) : Answer :=
  .next (s.withDest d (fun s => s.withLog (branchItem (s.cx.rg a - s.cx.pc)) (fun t =>
    (t.onCx (fun x => x.setG d (x.pc + 4#64))).retireTo (s.cx.rg a))))

end Sys2Proof.Machine
end

