-- ==== Sys2Proof/Machine/Pipe.lean ====
section
/-! DEFINITION. The meanings of the pipe instructions QWAIT, QFREE, QADV, QSTAT and QCLOSE (R62 to R68, R346, R347). -/
namespace Sys2Proof.Machine

/-- The fill count of a consumer end (R66). -/
def Core.fillOf (c : Core) (p : PipeEnd) : Nat := (c.counters.toList[pipeCounter p.index]?.getD {}).count

/-- The pipe end that a handle names, if the activation is bound to it (R62). -/
def State.pipeEnd? (s : State) (q : BitVec 3) : Option PipeEnd :=
  if s.cx.qbound.getLsbD q.toNat then s.me.pipes[q.toNat] else none

/-- Change a pipe end of the issuing core. -/
def State.onPipe (s : State) (q : BitVec 3) (f : PipeEnd → PipeEnd) : State :=
  s.onMe (fun c => { c with pipes := c.pipes.set q.toNat ((c.pipes[q.toNat]).map f) })

/-- Go on for an end that is bound to the activation and not closed here; otherwise ILLEGAL (R346). -/
def State.withPipe (s : State) (q : BitVec 3) (f : State → PipeEnd → State) : State :=
  match s.pipeEnd? q with
  | none => s.trapPlain .illegal
  | some p => if p.closedHere then s.trapPlain .illegal else f s p

/-- The count of a pipe instruction (R346). -/
def Context.pipeCount (x : Context) (a : BitVec 5) (i : BitVec 10) : Nat := if a = 0#5 then i.toNat else (x.rg a).toNat

/-- The scope of a pipe (R81). -/
def PipeEnd.scope (me : CoreId) (p : PipeEnd) : Scope := scopeOf me p.far

/-- A wait on an end (R346): satisfied, far end closed, broken, or WAITLIM over, in that order (R347). -/
def State.pipeWait (s : State) (q : BitVec 3) (p : PipeEnd) (d : BitVec 5) (have_ n : Nat) (acquire : Bool) : State :=
  if n = 0 then s.waitEnd d 0 none
  else if n ≤ have_ then (if acquire then s.acquireLines s.meId s.me.cur (p.scope s.meId) else s).waitEnd d 0 none
  else if p.state = 1 then s.waitEnd d 2 none
  else if p.state = 2 then s.waitEnd d 3 (some .pipeBroken)
  else if s.cx.timedOut then s.waitEnd d 1 (some .waitTimeout)
  else s.await (.pipe q) true 0

/-- QWAIT (R346): the consumer waits for filled slots and acquires. -/
def execQwait (q : BitVec 3) (a d : BitVec 5) (i : BitVec 10) (s : State) : Answer :=
  let n := s.cx.pipeCount a i
  .next (s.withDest d (fun s => s.withPipe q (fun s p =>
    if p.producer || p.slots < n then s.trapPlain .illegal else s.pipeWait q p d (s.me.fillOf p) n true)))

/-- QFREE (R346): the producer waits for credits. -/
def execQfree (q : BitVec 3) (a d : BitVec 5) (i : BitVec 10) (s : State) : Answer :=
  let n := s.cx.pipeCount a i
  .next (s.withDest d (fun s => s.withPipe q (fun s p =>
    if !p.producer || p.slots < n then s.trapPlain .illegal else s.pipeWait q p d p.credits n false)))

/-- The advance of an end by `n` slots, and the change that the far end is sent (R346, R380): a producer tells an open consumer only. -/
def State.advance (s : State) (q : BitVec 3) (p : PipeEnd) (n : Nat) : State :=
  let gang := s.me.gang.getD 0
  let tell (s : State) (m : PipeMsg) : State := s.sendPacket 1#2 s.cx.act.pri (.pipe p.far p.farQ gang m)
  let step (s : State) : State := s.onPipe q (fun e => { e with pos := (e.pos + n) % e.slots })
  if p.producer then
    let s1 := (step s).onPipe q (fun e => { e with credits := e.credits - n, reserved := if e.mode = 0 then e.reserved else e.reserved + n })
    if p.state = 0 then tell s1 (if p.mode = 0 then .fill n else .reserve n) else s1
  else tell ((step s).onMe (fun c => c.onFill p (fun k => { k with count := k.count - n }))) (.credits n)

/-- QADV (R346): a release at the pipe's scope, then the advance. -/
def execQadv (q : BitVec 3) (a : BitVec 5) (i : BitVec 10) (s : State) : Answer :=
  let n := s.cx.pipeCount a i
  .next (s.withPipe q (fun s p =>
    if n = 0 then s.retire 1
    else if (if p.producer then p.credits else s.me.fillOf p) < n then s.trapPlain .illegal
    else s.withRelease (p.scope s.meId) 1 (fun s => (s.dirty.advance q p n).retire 1)))

/-- The state word of an end (R68): CNT has eight bits. -/
def PipeEnd.word (c : Core) (p : PipeEnd) : Word :=
  BitVec.ofNat 64 ((if p.producer then 2 ^ 30 else 0) + p.state * 2 ^ 28 + p.lsz * 2 ^ 24 + p.slots * 2 ^ 16 + p.pos * 256
    + (if p.producer then p.credits else c.fillOf p) % 256)

/-- QSTAT (R68): it never traps on a handle. -/
def execQstat (q : BitVec 3) (d : BitVec 5) (s : State) : Answer :=
  .next (s.result d (match s.pipeEnd? q with | some p => p.word s.me | none => BitVec.ofNat 64 (3 * 2 ^ 28)))

/-- QCLOSE (R346): a release, then this end departs normally; a broken pipe stays broken (R347). -/
def execQclose (q : BitVec 3) (s : State) : Answer :=
  .next (s.withPipe q (fun s p =>
    s.withRelease (p.scope s.meId) 1 (fun s =>
      ((s.departPipe s.meId q true s.cx.act.pri).onPipe q (fun e => { e with state := if e.state = 0 then 1 else e.state })).retire 1)))

end Sys2Proof.Machine
end

