-- ==== Sys2Proof/WellFormed.lean ====
section
/-! DEFINITION. Which field values an instruction word may hold: the values and combinations that R264, R266, R267 and the
reference entries forbid make a word ILLEGAL, so no well-formed instruction holds them. -/
namespace Sys2Proof

/-- A rounding field is 0-3 or 7 (R194). -/
def roundingOk (r : Nat) : Bool := decide (r ≤ 3) || r == 7

/-- A row field is 0-7, or 15 for the whole tile (R264). -/
def rowOk (r : BitVec 4) : Bool := decide (r.toNat ≤ 7) || r == 15#4

/-- Format M: ord 11 is forbidden, and a scope other than 00 needs ord 01 (R264). -/
def memOrdOk (sc o : BitVec 2) : Bool := o != 3#2 && (o == 1#2 || sc == 0#2)

/-- Format A: size W or D; relaxed takes no scope; acq and acq-rel need a destination (R141, R264). -/
def amoOk (d : BitVec 5) (sc z o : BitVec 2) : Bool :=
  (z == 2#2 || z == 3#2) && (o != 0#2 || sc == 0#2) && (d != 0#5 || o == 0#2 || o == 2#2)

/-- The constructor is an instruction word, not an event. -/
def Instr.isWord : Instr → Bool
  | .add _ _ _ => true
  | .sub _ _ _ => true
  | .and _ _ _ => true
  | .or _ _ _ => true
  | .xor _ _ _ => true
  | .shl _ _ _ => true
  | .shr _ _ _ => true
  | .sar _ _ _ => true
  | .rotr _ _ _ => true
  | .slt _ _ _ => true
  | .sltu _ _ _ => true
  | .min _ _ _ => true
  | .max _ _ _ => true
  | .minu _ _ _ => true
  | .maxu _ _ _ => true
  | .addw _ _ _ => true
  | .subw _ _ _ => true
  | .addi _ _ _ => true
  | .andi _ _ _ => true
  | .ori _ _ _ => true
  | .xori _ _ _ => true
  | .slti _ _ _ => true
  | .sltiu _ _ _ => true
  | .shli _ _ _ => true
  | .shri _ _ _ => true
  | .sari _ _ _ => true
  | .rotri _ _ _ => true
  | .lih _ _ => true
  | .liw _ _ => true
  | .mul _ _ _ => true
  | .mulh _ _ _ => true
  | .mulhu _ _ _ => true
  | .div _ _ _ => true
  | .divu _ _ _ => true
  | .rem _ _ _ => true
  | .remu _ _ _ => true
  | .clz _ _ => true
  | .ctz _ _ => true
  | .popc _ _ => true
  | .sext _ _ _ => true
  | .zext _ _ _ => true
  | .bext _ _ _ => true
  | .bins _ _ _ => true
  | .fadd _ _ _ _ => true
  | .fsub _ _ _ _ => true
  | .fmul _ _ _ _ => true
  | .fdiv _ _ _ _ => true
  | .fsqrt _ _ _ => true
  | .fmin _ _ _ => true
  | .fmax _ _ _ => true
  | .feq _ _ _ => true
  | .flt _ _ _ => true
  | .fle _ _ _ => true
  | .fcvtif _ _ _ => true
  | .fcvtfi _ _ _ => true
  | .fclass _ _ => true
  | .ffma _ _ _ _ _ => true
  | .beq _ _ _ => true
  | .bne _ _ _ => true
  | .blt _ _ _ => true
  | .bge _ _ _ => true
  | .bltu _ _ _ => true
  | .bgeu _ _ _ => true
  | .jmp _ => true
  | .jal _ => true
  | .jr _ => true
  | .jalr _ _ => true
  | .ld _ _ _ _ _ _ => true
  | .lds _ _ _ _ _ _ => true
  | .st _ _ _ _ _ _ => true
  | .amoadd _ _ _ _ _ _ => true
  | .amoswp _ _ _ _ _ _ => true
  | .amoand _ _ _ _ _ _ => true
  | .amoor _ _ _ _ _ _ => true
  | .amoxor _ _ _ _ _ _ => true
  | .amomin _ _ _ _ _ _ => true
  | .amomax _ _ _ _ _ _ => true
  | .amominu _ _ _ _ _ _ => true
  | .amomaxu _ _ _ _ _ _ => true
  | .amofadd _ _ _ _ _ _ => true
  | .amofmin _ _ _ _ _ _ => true
  | .amofmax _ _ _ _ _ _ => true
  | .amocas _ _ _ _ _ _ => true
  | .fence _ _ => true
  | .flush _ => true
  | .inval _ => true
  | .pref _ _ => true
  | .pin _ _ _ => true
  | .unpin _ _ _ => true
  | .sflush _ => true
  | .waita _ _ _ _ _ _ => true
  | .send _ _ => true
  | .mcast _ _ _ => true
  | .spawn _ _ _ => true
  | .aq _ _ _ => true
  | .launch _ _ => true
  | .cntset _ _ _ => true
  | .cntadd _ _ _ => true
  | .cntwait _ _ => true
  | .exit => true
  | .contain => true
  | .yield => true
  | .gbar _ _ => true
  | .gred _ _ _ _ => true
  | .qwait _ _ _ _ => true
  | .qfree _ _ _ _ => true
  | .qadv _ _ _ => true
  | .qstat _ _ => true
  | .qclose _ => true
  | .trap _ => true
  | .eret _ => true
  | .rdsr _ _ => true
  | .wrsr _ _ => true
  | .idle => true
  | .brk _ => true
  | .shoot _ _ _ => true
  | .shootAll _ _ => true
  | .vatcfgDefine _ _ => true
  | .vatcfgResize _ _ => true
  | .vatcfgRetire _ _ => true
  | .lgbindBind _ _ => true
  | .lgbindUnbind _ _ => true
  | .grpcfg _ _ _ => true
  | .resume _ _ _ => true
  | .lgnext _ => true
  | .lgverd _ _ _ => true
  | .lgstat _ _ => true
  | .tld _ _ _ _ _ => true
  | .tldPipe _ _ _ _ => true
  | .tst _ _ _ _ _ => true
  | .tstPipe _ _ _ _ => true
  | .vadd _ _ _ _ _ => true
  | .vsub _ _ _ _ _ => true
  | .vmul _ _ _ _ _ => true
  | .vfma _ _ _ _ _ => true
  | .vmin _ _ _ _ _ => true
  | .vmax _ _ _ _ _ => true
  | .vabs _ _ _ _ => true
  | .vneg _ _ _ _ => true
  | .vdiv _ _ _ _ _ => true
  | .vrsqrt _ _ _ _ => true
  | .vexp2 _ _ _ _ => true
  | .vlog2 _ _ _ _ => true
  | .vcmp _ _ _ _ _ _ => true
  | .vsel _ _ _ _ _ => true
  | .vredsum _ _ _ _ => true
  | .vredmax _ _ _ _ => true
  | .vshuf _ _ _ _ _ => true
  | .viadd _ _ _ _ _ => true
  | .vimul _ _ _ _ _ => true
  | .vlogic _ _ _ _ _ _ => true
  | .vshift _ _ _ _ _ _ => true
  | .vcvt _ _ _ _ _ => true
  | .venc _ _ _ _ _ => true
  | .vdec _ _ _ _ _ => true
  | .tmov _ _ _ _ => true
  | .tzero _ _ => true
  | .tbcast _ _ _ _ => true
  | .text _ _ _ => true
  | .mma _ _ _ _ _ => true
  | .mmas _ _ _ _ _ _ => true
  | .mmai _ _ _ _ _ => true
  | .bld _ _ _ => true
  | .brot _ _ _ => true
  | .tblld _ _ _ => true
  | .ntblld _ => true
  | .cpy _ _ _ _ _ => true
  | .cpys _ _ _ _ _ _ => true
  | .cpyg _ _ _ _ _ _ => true
  | .gacc _ _ _ => true
  | .gelim _ _ _ _ => true
  | .gdamp _ _ _ _ _ => true
  | .gpack _ _ _ => true
  | .gunpk _ _ _ => true
  | .ewait _ => true
  | .estat _ _ => true
  | .handlerMessage => false
  | .depositMessage => false
  | .messageAcceptance => false
  | .messageRefusal => false
  | .refusalBackoffExpiry _ _ _ => false
  | .spawnRequest => false
  | .spawnAnswer => false
  | .aqRequest => false
  | .aqAnswer => false
  | .copyNotice => false
  | .latchArrival => false
  | .windowAccess => false
  | .atomicAtHome => false
  | .writeAtHome => false
  | .lineFill => false
  | .writeAcknowledgement => false
  | .releaseComplete _ _ => false
  | .stampDrain => false
  | .lifeguardVerdict => false
  | .logDeferredTrapRecord _ => false
  | .pipeFarEndUpdate => false
  | .pipeDeparture => false
  | .groupArrival => false
  | .groupEpisodeComplete => false
  | .waitlimExpiry _ _ => false
  | .idleExpiry _ _ => false
  | .dispatcherScan _ => false
  | .serviceAdmission _ => false
  | .pailCleared _ _ => false
  | .matrixCommandDone _ _ _ => false
  | .vectorCommandDone _ _ _ => false
  | .copyCommandDone _ _ => false
  | .copyHandback _ _ => false
  | .translationRequest => false
  | .pageWalk => false
  | .translationAnswer => false
  | .shootdownRequest => false
  | .shootdownAck => false
  | .vatResizeSweep _ _ _ => false
  | .dualProbe _ _ _ => false
  | .lineMove _ _ _ => false
  | .vatcfgCompletion _ _ => false
  | .shareOffline _ _ _ => false
  | .eccCorrected _ => false
  | .uncorrectableError _ => false
  | .timingReplay _ _ => false
  | .heartbeatTimeout _ => false
  | .memberLoss _ => false
  | .suspectSelfTest _ => false
  | .launchDoorbell _ _ => false
  | .launchPost => false
  | .launchNotice => false
  | .gangPlacement _ => false
  | .gangStart _ => false
  | .gangCompletion _ => false
  | .deadlineExpiry _ _ => false
  | .preemptStarvation _ => false
  | .preemptBudgetExpiry _ => false
  | .memberSave _ => false
  | .gangRestore _ => false
  | .faultRecord _ => false
  | .packetEscape => false
  | .packetAgeSaturation => false
  | .hostWindowRead _ _ _ => false
  | .hostWindowWrite _ _ _ => false
  | .hostWriteFlushComplete _ => false
  | .hostReadTimeout => false
  | .hostLinkDown _ => false
  | .blulinInboundRequest _ _ _ _ _ => false
  | .blulinPeerTimeout _ => false
  | .qpTailPoll _ => false
  | .qpWorkCompletion _ _ => false
  | .rdmaInbound _ _ _ => false
  | .moduleBringUp _ _ => false
  | .pcieConfigRequest _ => false
  | .create => false
  | .reset => false
  | .destroy => false
  | .setWindow => false
  | .preempt => false
  | .kill => false
  | .setCap => false
  | .attest => false
  | .createQp => false
  | .destroyQp => false
  | .regRegion => false
  | .deregRegion => false
  | .readLog => false
  | .registerWrite _ _ => false
  | .powerStepAdjust _ _ => false
  | .skimmerLineRead _ _ => false
  | .illegalEncoding _ => false
  | .instructionFetchFault _ => false
  | .addressWaitEntry => false
  | .logReadPointerAdvance => false
  | .hostReadCompletion _ => false
  | .commandDoorbell _ => false
  | .arpNeighbourDiscovery _ _ => false

/-- The field values of an instruction word are ones that R264 to R267 allow. An event has no encoded field. -/
def Instr.wf : Instr → Bool
  | .add _ _ _ => true
  | .sub _ _ _ => true
  | .and _ _ _ => true
  | .or _ _ _ => true
  | .xor _ _ _ => true
  | .shl _ _ _ => true
  | .shr _ _ _ => true
  | .sar _ _ _ => true
  | .rotr _ _ _ => true
  | .slt _ _ _ => true
  | .sltu _ _ _ => true
  | .min _ _ _ => true
  | .max _ _ _ => true
  | .minu _ _ _ => true
  | .maxu _ _ _ => true
  | .addw _ _ _ => true
  | .subw _ _ _ => true
  | .addi _ _ _ => true
  | .andi _ _ _ => true
  | .ori _ _ _ => true
  | .xori _ _ _ => true
  | .slti _ _ _ => true
  | .sltiu _ _ _ => true
  | .shli _ _ _ => true
  | .shri _ _ _ => true
  | .sari _ _ _ => true
  | .rotri _ _ _ => true
  | .lih _ _ => true
  | .liw _ _ => true
  | .mul _ _ _ => true
  | .mulh _ _ _ => true
  | .mulhu _ _ _ => true
  | .div _ _ _ => true
  | .divu _ _ _ => true
  | .rem _ _ _ => true
  | .remu _ _ _ => true
  | .clz _ _ => true
  | .ctz _ _ => true
  | .popc _ _ => true
  | .sext _ _ w => decide (w.toNat ≤ 2)
  | .zext _ _ w => decide (w.toNat ≤ 2)
  | .bext _ _ _ => true
  | .bins _ _ _ => true
  | .fadd _ _ _ r => roundingOk r.toNat
  | .fsub _ _ _ r => roundingOk r.toNat
  | .fmul _ _ _ r => roundingOk r.toNat
  | .fdiv _ _ _ r => roundingOk r.toNat
  | .fsqrt _ _ r => roundingOk r.toNat
  | .fmin _ _ _ => true
  | .fmax _ _ _ => true
  | .feq _ _ _ => true
  | .flt _ _ _ => true
  | .fle _ _ _ => true
  | .fcvtif _ _ r => roundingOk r.toNat
  | .fcvtfi _ _ r => roundingOk r.toNat
  | .fclass _ _ => true
  | .ffma _ _ _ _ r => roundingOk r.toNat
  | .beq _ _ _ => true
  | .bne _ _ _ => true
  | .blt _ _ _ => true
  | .bge _ _ _ => true
  | .bltu _ _ _ => true
  | .bgeu _ _ _ => true
  | .jmp _ => true
  | .jal _ => true
  | .jr _ => true
  | .jalr _ _ => true
  | .ld _ _ _ sc _ o => memOrdOk sc o
  | .lds _ _ _ sc _ o => memOrdOk sc o
  | .st _ _ _ sc _ o => memOrdOk sc o
  | .amoadd d _ _ sc z o => amoOk d sc z o
  | .amoswp d _ _ sc z o => amoOk d sc z o
  | .amoand d _ _ sc z o => amoOk d sc z o
  | .amoor d _ _ sc z o => amoOk d sc z o
  | .amoxor d _ _ sc z o => amoOk d sc z o
  | .amomin d _ _ sc z o => amoOk d sc z o
  | .amomax d _ _ sc z o => amoOk d sc z o
  | .amominu d _ _ sc z o => amoOk d sc z o
  | .amomaxu d _ _ sc z o => amoOk d sc z o
  | .amofadd d _ _ sc z o => amoOk d sc z o && z == 2#2
  | .amofmin d _ _ sc z o => amoOk d sc z o && z == 2#2
  | .amofmax d _ _ sc z o => amoOk d sc z o && z == 2#2
  | .amocas d _ _ sc z o => amoOk d sc z o && d != 0#5
  | .fence _ _ => true
  | .flush _ => true
  | .inval _ => true
  | .pref _ _ => true
  | .pin _ _ _ => true
  | .unpin _ _ _ => true
  | .sflush _ => true
  | .waita _ _ _ _ _ p => decide (p.toNat ≤ 5)
  | .send _ _ => true
  | .mcast _ _ _ => true
  | .spawn d _ _ => d != 31#5
  | .aq _ _ _ => true
  | .launch _ _ => true
  | .cntset _ _ _ => true
  | .cntadd _ _ _ => true
  | .cntwait _ _ => true
  | .exit => true
  | .contain => true
  | .yield => true
  | .gbar _ _ => true
  | .gred _ _ op _ => decide (op.toNat ≤ 5)
  | .qwait _ a _ i => a == 0#5 || i == 0#10
  | .qfree _ a _ i => a == 0#5 || i == 0#10
  | .qadv _ a i => a == 0#5 || i == 0#10
  | .qstat _ _ => true
  | .qclose _ => true
  | .trap _ => true
  | .eret _ => true
  | .rdsr _ _ => true
  | .wrsr _ _ => true
  | .idle => true
  | .brk _ => true
  | .shoot _ _ _ => true
  | .shootAll _ _ => true
  | .vatcfgDefine _ _ => true
  | .vatcfgResize _ _ => true
  | .vatcfgRetire _ _ => true
  | .lgbindBind _ _ => true
  | .lgbindUnbind _ _ => true
  | .grpcfg _ _ slot => slot == 2#2 || slot == 3#2
  | .resume _ _ _ => true
  | .lgnext _ => true
  | .lgverd _ _ _ => true
  | .lgstat _ n => decide (n.toNat ≤ 1)
  | .tld _ r _ _ c => rowOk r && decide (c.toNat ≤ 1)
  | .tldPipe _ r _ _ => rowOk r
  | .tst _ r _ _ c => rowOk r && decide (c.toNat ≤ 1)
  | .tstPipe _ r _ _ => rowOk r
  | .vadd _ _ _ r _ => rowOk r
  | .vsub _ _ _ r _ => rowOk r
  | .vmul _ _ _ r _ => rowOk r
  | .vfma _ _ _ r _ => rowOk r
  | .vmin _ _ _ r _ => rowOk r
  | .vmax _ _ _ r _ => rowOk r
  | .vabs _ _ r _ => rowOk r
  | .vneg _ _ r _ => rowOk r
  | .vdiv _ _ _ r _ => rowOk r
  | .vrsqrt _ _ r _ => rowOk r
  | .vexp2 _ _ r _ => rowOk r
  | .vlog2 _ _ r _ => rowOk r
  | .vcmp _ _ r _ k c => rowOk r && k != 0#2 && decide (c.toNat ≤ 3)
  | .vsel _ _ _ r _ => rowOk r
  | .vredsum _ _ r _ => rowOk r
  | .vredmax _ _ r _ => rowOk r
  | .vshuf _ _ _ r _ => rowOk r
  | .viadd _ _ _ r _ => rowOk r
  | .vimul _ _ _ r _ => rowOk r
  | .vlogic _ _ _ r _ _ => rowOk r
  | .vshift _ _ _ r _ _ => rowOk r
  | .vcvt _ _ r _ k => rowOk r && k != 3#2
  | .venc _ _ r _ f => rowOk r && (f == 3#5 || f == 5#5 || f == 6#5)
  | .vdec _ _ r _ f => rowOk r && (f == 3#5 || f == 5#5 || f == 6#5)
  | .tmov _ _ r _ => rowOk r
  | .tzero _ r => rowOk r
  | .tbcast _ r _ _ => rowOk r
  | .text _ r _ => decide (r.toNat ≤ 7)
  | .mma _ _ _ _ stride => stride.toNat % 4 == 0
  | .mmas _ _ _ _ _ stride => stride.toNat % 4 == 0
  | .mmai _ _ _ _ stride => stride.toNat % 4 == 0
  | .bld _ _ _ => true
  | .brot _ nf c => nf == 1#1 || c == 0#5
  | .tblld _ _ _ => true
  | .ntblld _ => true
  | .cpy n _ _ nf _ => nf == 1#1 || n == 0#5
  | .cpys n a b nf _ _ => (nf == 1#1 || n == 0#5) && a != 31#5 && b != 31#5
  | .cpyg n a b nf lg _ => (nf == 1#1 || n == 0#5) && a != 31#5 && b != 31#5 && decide (lg.toNat ≤ 6)
  | .gacc d r _ => d.toNat % 2 == 0 && decide (r.toNat ≤ 11)
  | .gelim d _ r _ => d.toNat % 2 == 0 && decide (r.toNat ≤ 7)
  | .gdamp _ _ r _ _ => rowOk r
  | .gpack _ r a => decide (r.toNat ≤ 7) && a != 31#5
  | .gunpk _ r _ => decide (r.toNat ≤ 7)
  | .ewait _ => true
  | .estat _ _ => true
  | .handlerMessage => true
  | .depositMessage => true
  | .messageAcceptance => true
  | .messageRefusal => true
  | .refusalBackoffExpiry _ _ _ => true
  | .spawnRequest => true
  | .spawnAnswer => true
  | .aqRequest => true
  | .aqAnswer => true
  | .copyNotice => true
  | .latchArrival => true
  | .windowAccess => true
  | .atomicAtHome => true
  | .writeAtHome => true
  | .lineFill => true
  | .writeAcknowledgement => true
  | .releaseComplete _ _ => true
  | .stampDrain => true
  | .lifeguardVerdict => true
  | .logDeferredTrapRecord _ => true
  | .pipeFarEndUpdate => true
  | .pipeDeparture => true
  | .groupArrival => true
  | .groupEpisodeComplete => true
  | .waitlimExpiry _ _ => true
  | .idleExpiry _ _ => true
  | .dispatcherScan _ => true
  | .serviceAdmission _ => true
  | .pailCleared _ _ => true
  | .matrixCommandDone _ _ _ => true
  | .vectorCommandDone _ _ _ => true
  | .copyCommandDone _ _ => true
  | .copyHandback _ _ => true
  | .translationRequest => true
  | .pageWalk => true
  | .translationAnswer => true
  | .shootdownRequest => true
  | .shootdownAck => true
  | .vatResizeSweep _ _ _ => true
  | .dualProbe _ _ _ => true
  | .lineMove _ _ _ => true
  | .vatcfgCompletion _ _ => true
  | .shareOffline _ _ _ => true
  | .eccCorrected _ => true
  | .uncorrectableError _ => true
  | .timingReplay _ _ => true
  | .heartbeatTimeout _ => true
  | .memberLoss _ => true
  | .suspectSelfTest _ => true
  | .launchDoorbell _ _ => true
  | .launchPost => true
  | .launchNotice => true
  | .gangPlacement _ => true
  | .gangStart _ => true
  | .gangCompletion _ => true
  | .deadlineExpiry _ _ => true
  | .preemptStarvation _ => true
  | .preemptBudgetExpiry _ => true
  | .memberSave _ => true
  | .gangRestore _ => true
  | .faultRecord _ => true
  | .packetEscape => true
  | .packetAgeSaturation => true
  | .hostWindowRead _ _ _ => true
  | .hostWindowWrite _ _ _ => true
  | .hostWriteFlushComplete _ => true
  | .hostReadTimeout => true
  | .hostLinkDown _ => true
  | .blulinInboundRequest _ _ _ _ _ => true
  | .blulinPeerTimeout _ => true
  | .qpTailPoll _ => true
  | .qpWorkCompletion _ _ => true
  | .rdmaInbound _ _ _ => true
  | .moduleBringUp _ _ => true
  | .pcieConfigRequest _ => true
  | .create => true
  | .reset => true
  | .destroy => true
  | .setWindow => true
  | .preempt => true
  | .kill => true
  | .setCap => true
  | .attest => true
  | .createQp => true
  | .destroyQp => true
  | .regRegion => true
  | .deregRegion => true
  | .readLog => true
  | .registerWrite _ _ => true
  | .powerStepAdjust _ _ => true
  | .skimmerLineRead _ _ => true
  | .illegalEncoding _ => true
  | .instructionFetchFault _ => true
  | .addressWaitEntry => true
  | .logReadPointerAdvance => true
  | .hostReadCompletion _ => true
  | .commandDoorbell _ => true
  | .arpNeighbourDiscovery _ _ => true

/-- The instruction is well formed. -/
abbrev WellFormed (i : Instr) : Prop := i.wf = true

end Sys2Proof
end

