-- ==== Sys2Proof/Decode.lean ====
section
/-! DEFINITION. From bytes to instructions and back (R255, R262, R264 to R267). decode is total: a word that is no
instruction is rejected by name. The encoder places the same fields. -/
namespace Sys2Proof

/-- Why a word is not an instruction (R267). -/
inductive DecodeErr where
  /-- Fewer bytes than the instruction has. -/
  | truncated
  /-- The major opcode is reserved, or is 0x00. -/
  | reservedMajor
  /-- The fn, aop, sysfn or select code is unassigned. -/
  | unassignedCode
  /-- A field that must be 0 is not 0. -/
  | reservedField
  /-- A field holds a value or combination that R264 or R266 forbids. -/
  | forbiddenValue
  deriving DecidableEq, Repr

/-! ## The eleven formats (R264) -/

/-- Format R. -/
def encR (maj d a b aux fn : Nat) : Nat :=
  maj * 2 ^ 26 + d * 2 ^ 21 + a * 2 ^ 16 + b * 2 ^ 11 + aux * 2 ^ 6 + fn
/-- Formats I and B. -/
def encI (maj d a imm : Nat) : Nat := maj * 2 ^ 26 + d * 2 ^ 21 + a * 2 ^ 16 + imm
/-- Format J. -/
def encJ (maj off : Nat) : Nat := maj * 2 ^ 26 + off
/-- Format M. -/
def encM (maj d a imm sc z o : Nat) : Nat :=
  maj * 2 ^ 26 + d * 2 ^ 21 + a * 2 ^ 16 + imm * 2 ^ 6 + sc * 2 ^ 4 + z * 2 ^ 2 + o
/-- Format A, major 0x1D. -/
def encA (d a b aop sc z o : Nat) : Nat :=
  29 * 2 ^ 26 + d * 2 ^ 21 + a * 2 ^ 16 + b * 2 ^ 11 + aop * 2 ^ 7 + sc * 2 ^ 5 + z * 2 ^ 3 + o * 2
/-- Format T. -/
def encT (maj td ta tb row mask aux fn : Nat) : Nat :=
  maj * 2 ^ 26 + td * 2 ^ 23 + ta * 2 ^ 20 + tb * 2 ^ 17 + row * 2 ^ 13 + mask * 2 ^ 11 + aux * 2 ^ 6 + fn
/-- Format TM. -/
def encTM (maj t row a imm pipe conv : Nat) : Nat :=
  maj * 2 ^ 26 + t * 2 ^ 23 + row * 2 ^ 19 + a * 2 ^ 14 + imm * 2 ^ 4 + pipe * 2 ^ 3 + conv
/-- Format Q, major 0x22. -/
def encQ (q fn a d imm : Nat) : Nat :=
  34 * 2 ^ 26 + q * 2 ^ 23 + fn * 2 ^ 20 + a * 2 ^ 15 + d * 2 ^ 10 + imm
/-- Format X, major 0x23. -/
def encX (d a sysfn imm : Nat) : Nat := 35 * 2 ^ 26 + d * 2 ^ 21 + a * 2 ^ 16 + sysfn * 2 ^ 8 + imm
/-- MAT word 0, major 0x2C (R266). -/
def encMat (td a b l fn flags : Nat) : Nat :=
  44 * 2 ^ 26 + td * 2 ^ 23 + a * 2 ^ 18 + b * 2 ^ 13 + l * 2 ^ 12 + fn * 2 ^ 6 + flags
/-- CPY word 0, major 0x2D (R266). -/
def encCpy (n a b fn flags : Nat) : Nat :=
  45 * 2 ^ 26 + n * 2 ^ 21 + a * 2 ^ 16 + b * 2 ^ 11 + fn * 2 ^ 8 + flags

/-- The words of an instruction, word 0 first (R265, R266). An event has none. -/
def encode : Instr → List Nat
  | .add d a b => [encR 1 d.toNat a.toNat b.toNat 0 0]
  | .sub d a b => [encR 1 d.toNat a.toNat b.toNat 0 1]
  | .and d a b => [encR 1 d.toNat a.toNat b.toNat 0 2]
  | .or d a b => [encR 1 d.toNat a.toNat b.toNat 0 3]
  | .xor d a b => [encR 1 d.toNat a.toNat b.toNat 0 4]
  | .shl d a b => [encR 1 d.toNat a.toNat b.toNat 0 5]
  | .shr d a b => [encR 1 d.toNat a.toNat b.toNat 0 6]
  | .sar d a b => [encR 1 d.toNat a.toNat b.toNat 0 7]
  | .rotr d a b => [encR 1 d.toNat a.toNat b.toNat 0 8]
  | .slt d a b => [encR 1 d.toNat a.toNat b.toNat 0 9]
  | .sltu d a b => [encR 1 d.toNat a.toNat b.toNat 0 10]
  | .min d a b => [encR 1 d.toNat a.toNat b.toNat 0 11]
  | .max d a b => [encR 1 d.toNat a.toNat b.toNat 0 12]
  | .minu d a b => [encR 1 d.toNat a.toNat b.toNat 0 13]
  | .maxu d a b => [encR 1 d.toNat a.toNat b.toNat 0 14]
  | .addw d a b => [encR 1 d.toNat a.toNat b.toNat 0 15]
  | .subw d a b => [encR 1 d.toNat a.toNat b.toNat 0 16]
  | .addi d a i => [encI 2 d.toNat a.toNat i.toNat]
  | .andi d a i => [encI 3 d.toNat a.toNat i.toNat]
  | .ori d a i => [encI 4 d.toNat a.toNat i.toNat]
  | .xori d a i => [encI 5 d.toNat a.toNat i.toNat]
  | .slti d a i => [encI 6 d.toNat a.toNat i.toNat]
  | .sltiu d a i => [encI 7 d.toNat a.toNat i.toNat]
  | .shli d a sh => [encI 8 d.toNat a.toNat (sh.toNat * 2 ^ 10 + 0)]
  | .shri d a sh => [encI 8 d.toNat a.toNat (sh.toNat * 2 ^ 10 + 1)]
  | .sari d a sh => [encI 8 d.toNat a.toNat (sh.toNat * 2 ^ 10 + 2)]
  | .rotri d a sh => [encI 8 d.toNat a.toNat (sh.toNat * 2 ^ 10 + 3)]
  | .lih d i => [encI 9 d.toNat 0 i.toNat]
  | .liw d i => [encI 10 d.toNat 0 0, i.toNat]
  | .mul d a b => [encR 11 d.toNat a.toNat b.toNat 0 0]
  | .mulh d a b => [encR 11 d.toNat a.toNat b.toNat 0 1]
  | .mulhu d a b => [encR 11 d.toNat a.toNat b.toNat 0 2]
  | .div d a b => [encR 11 d.toNat a.toNat b.toNat 0 3]
  | .divu d a b => [encR 11 d.toNat a.toNat b.toNat 0 4]
  | .rem d a b => [encR 11 d.toNat a.toNat b.toNat 0 5]
  | .remu d a b => [encR 11 d.toNat a.toNat b.toNat 0 6]
  | .clz d a => [encR 12 d.toNat a.toNat 0 0 0]
  | .ctz d a => [encR 12 d.toNat a.toNat 0 0 1]
  | .popc d a => [encR 12 d.toNat a.toNat 0 0 2]
  | .sext d a w => [encR 12 d.toNat a.toNat 0 w.toNat 3]
  | .zext d a w => [encR 12 d.toNat a.toNat 0 w.toNat 4]
  | .bext d a b => [encR 12 d.toNat a.toNat b.toNat 0 5]
  | .bins d a b => [encR 12 d.toNat a.toNat b.toNat 0 6]
  | .fadd d a b r => [encR 13 d.toNat a.toNat b.toNat r.toNat 0]
  | .fsub d a b r => [encR 13 d.toNat a.toNat b.toNat r.toNat 1]
  | .fmul d a b r => [encR 13 d.toNat a.toNat b.toNat r.toNat 2]
  | .fdiv d a b r => [encR 13 d.toNat a.toNat b.toNat r.toNat 3]
  | .fsqrt d a r => [encR 13 d.toNat a.toNat 0 r.toNat 4]
  | .fmin d a b => [encR 13 d.toNat a.toNat b.toNat 0 5]
  | .fmax d a b => [encR 13 d.toNat a.toNat b.toNat 0 6]
  | .feq d a b => [encR 13 d.toNat a.toNat b.toNat 0 7]
  | .flt d a b => [encR 13 d.toNat a.toNat b.toNat 0 8]
  | .fle d a b => [encR 13 d.toNat a.toNat b.toNat 0 9]
  | .fcvtif d a r => [encR 13 d.toNat a.toNat 0 r.toNat 10]
  | .fcvtfi d a r => [encR 13 d.toNat a.toNat 0 r.toNat 11]
  | .fclass d a => [encR 13 d.toNat a.toNat 0 0 12]
  | .ffma d a b c r => [encR 14 d.toNat a.toNat b.toNat c.toNat r.toNat]
  | .beq a b o => [encI 16 a.toNat b.toNat o.toNat]
  | .bne a b o => [encI 17 a.toNat b.toNat o.toNat]
  | .blt a b o => [encI 18 a.toNat b.toNat o.toNat]
  | .bge a b o => [encI 19 a.toNat b.toNat o.toNat]
  | .bltu a b o => [encI 20 a.toNat b.toNat o.toNat]
  | .bgeu a b o => [encI 21 a.toNat b.toNat o.toNat]
  | .jmp o => [encJ 22 o.toNat]
  | .jal o => [encJ 23 o.toNat]
  | .jr a => [encR 24 0 a.toNat 0 0 0]
  | .jalr d a => [encR 24 d.toNat a.toNat 0 0 1]
  | .ld d a i sc z o => [encM 26 d.toNat a.toNat i.toNat sc.toNat z.toNat o.toNat]
  | .lds d a i sc z o => [encM 27 d.toNat a.toNat i.toNat sc.toNat z.toNat o.toNat]
  | .st v a i sc z o => [encM 28 v.toNat a.toNat i.toNat sc.toNat z.toNat o.toNat]
  | .amoadd d a b sc z o => [encA d.toNat a.toNat b.toNat 0 sc.toNat z.toNat o.toNat]
  | .amoswp d a b sc z o => [encA d.toNat a.toNat b.toNat 1 sc.toNat z.toNat o.toNat]
  | .amoand d a b sc z o => [encA d.toNat a.toNat b.toNat 2 sc.toNat z.toNat o.toNat]
  | .amoor d a b sc z o => [encA d.toNat a.toNat b.toNat 3 sc.toNat z.toNat o.toNat]
  | .amoxor d a b sc z o => [encA d.toNat a.toNat b.toNat 4 sc.toNat z.toNat o.toNat]
  | .amomin d a b sc z o => [encA d.toNat a.toNat b.toNat 5 sc.toNat z.toNat o.toNat]
  | .amomax d a b sc z o => [encA d.toNat a.toNat b.toNat 6 sc.toNat z.toNat o.toNat]
  | .amominu d a b sc z o => [encA d.toNat a.toNat b.toNat 7 sc.toNat z.toNat o.toNat]
  | .amomaxu d a b sc z o => [encA d.toNat a.toNat b.toNat 8 sc.toNat z.toNat o.toNat]
  | .amofadd d a b sc z o => [encA d.toNat a.toNat b.toNat 9 sc.toNat z.toNat o.toNat]
  | .amofmin d a b sc z o => [encA d.toNat a.toNat b.toNat 10 sc.toNat z.toNat o.toNat]
  | .amofmax d a b sc z o => [encA d.toNat a.toNat b.toNat 11 sc.toNat z.toNat o.toNat]
  | .amocas d a b sc z o => [encA d.toNat a.toNat b.toNat 12 sc.toNat z.toNat o.toNat]
  | .fence e sc => [encR 30 0 0 0 (e.toNat * 4 + sc.toNat) 0]
  | .flush a => [encR 30 0 a.toNat 0 0 1]
  | .inval a => [encR 30 0 a.toNat 0 0 2]
  | .pref a w => [encR 30 0 a.toNat 0 w.toNat 3]
  | .pin d a b => [encR 30 d.toNat a.toNat b.toNat 0 4]
  | .unpin d a b => [encR 30 d.toNat a.toNat b.toNat 0 5]
  | .sflush a => [encR 30 0 a.toNat 0 0 6]
  | .waita d a b c z p => [encR 31 d.toNat a.toNat b.toNat c.toNat (z.toNat * 8 + p.toNat)]
  | .send a b => [encR 32 0 a.toNat b.toNat 0 0]
  | .mcast a b slot => [encR 32 0 a.toNat b.toNat slot.toNat 1]
  | .spawn d a b => [encR 32 d.toNat a.toNat b.toNat 0 2]
  | .aq d a b => [encR 32 d.toNat a.toNat b.toNat 0 3]
  | .launch a b => [encR 32 0 a.toNat b.toNat 0 4]
  | .cntset a b c => [encR 33 0 a.toNat b.toNat c.toNat 0]
  | .cntadd d a c => [encR 33 d.toNat a.toNat 0 c.toNat 1]
  | .cntwait d c => [encR 33 d.toNat 0 0 c.toNat 2]
  | .exit => [encR 33 0 0 0 0 3]
  | .contain => [encR 33 0 0 0 0 4]
  | .yield => [encR 33 0 0 0 0 5]
  | .gbar d slot => [encR 33 d.toNat 0 0 slot.toNat 6]
  | .gred d a op slot => [encR 33 d.toNat a.toNat 0 (op.toNat * 4 + slot.toNat) 7]
  | .qwait q a d i => [encQ q.toNat 0 a.toNat d.toNat i.toNat]
  | .qfree q a d i => [encQ q.toNat 1 a.toNat d.toNat i.toNat]
  | .qadv q a i => [encQ q.toNat 2 a.toNat 0 i.toNat]
  | .qstat q d => [encQ q.toNat 3 0 d.toNat 0]
  | .qclose q => [encQ q.toNat 4 0 0 0]
  | .trap n => [encX 0 0 0 n.toNat]
  | .eret a => [encX 0 a.toNat 1 0]
  | .rdsr d n => [encX d.toNat 0 2 n.toNat]
  | .wrsr a n => [encX 0 a.toNat 3 n.toNat]
  | .idle => [encX 0 0 4 0]
  | .brk n => [encX 0 0 5 n.toNat]
  | .shoot d a z => [encX d.toNat a.toNat 6 z.toNat]
  | .shootAll d z => [encX d.toNat 0 6 (4 + z.toNat)]
  | .vatcfgDefine d a => [encX d.toNat a.toNat 7 0]
  | .vatcfgResize d a => [encX d.toNat a.toNat 7 1]
  | .vatcfgRetire d a => [encX d.toNat a.toNat 7 2]
  | .lgbindBind d a => [encX d.toNat a.toNat 8 0]
  | .lgbindUnbind d a => [encX d.toNat a.toNat 8 1]
  | .grpcfg d a slot => [encX d.toNat a.toNat 9 slot.toNat]
  | .resume d a k => [encX d.toNat a.toNat 10 k.toNat]
  | .lgnext d => [encR 36 d.toNat 0 0 0 0]
  | .lgverd d a b => [encR 36 d.toNat a.toNat b.toNat 0 1]
  | .lgstat d n => [encR 36 d.toNat 0 0 n.toNat 2]
  | .tld t r a i c => [encTM 40 t.toNat r.toNat a.toNat i.toNat 0 c.toNat]
  | .tldPipe t r q i => [encTM 40 t.toNat r.toNat q.toNat i.toNat 1 0]
  | .tst t r a i c => [encTM 41 t.toNat r.toNat a.toNat i.toNat 0 c.toNat]
  | .tstPipe t r q i => [encTM 41 t.toNat r.toNat q.toNat i.toNat 1 0]
  | .vadd d a b r m => [encT 42 d.toNat a.toNat b.toNat r.toNat m.toNat 0 0]
  | .vsub d a b r m => [encT 42 d.toNat a.toNat b.toNat r.toNat m.toNat 0 1]
  | .vmul d a b r m => [encT 42 d.toNat a.toNat b.toNat r.toNat m.toNat 0 2]
  | .vfma d a b r m => [encT 42 d.toNat a.toNat b.toNat r.toNat m.toNat 0 3]
  | .vmin d a b r m => [encT 42 d.toNat a.toNat b.toNat r.toNat m.toNat 0 4]
  | .vmax d a b r m => [encT 42 d.toNat a.toNat b.toNat r.toNat m.toNat 0 5]
  | .vabs d a r m => [encT 42 d.toNat a.toNat 0 r.toNat m.toNat 0 6]
  | .vneg d a r m => [encT 42 d.toNat a.toNat 0 r.toNat m.toNat 0 7]
  | .vdiv d a b r m => [encT 42 d.toNat a.toNat b.toNat r.toNat m.toNat 0 8]
  | .vrsqrt d a r m => [encT 42 d.toNat a.toNat 0 r.toNat m.toNat 0 9]
  | .vexp2 d a r m => [encT 42 d.toNat a.toNat 0 r.toNat m.toNat 0 10]
  | .vlog2 d a r m => [encT 42 d.toNat a.toNat 0 r.toNat m.toNat 0 11]
  | .vcmp a b r m k c => [encT 42 0 a.toNat b.toNat r.toNat m.toNat (k.toNat * 8 + c.toNat) 12]
  | .vsel d a b r s => [encT 42 d.toNat a.toNat b.toNat r.toNat 0 s.toNat 13]
  | .vredsum d a r m => [encT 42 d.toNat a.toNat 0 r.toNat m.toNat 0 14]
  | .vredmax d a r m => [encT 42 d.toNat a.toNat 0 r.toNat m.toNat 0 15]
  | .vshuf d a b r m => [encT 42 d.toNat a.toNat b.toNat r.toNat m.toNat 0 16]
  | .viadd d a b r m => [encT 42 d.toNat a.toNat b.toNat r.toNat m.toNat 0 17]
  | .vimul d a b r m => [encT 42 d.toNat a.toNat b.toNat r.toNat m.toNat 0 18]
  | .vlogic d a b r m o => [encT 42 d.toNat a.toNat b.toNat r.toNat m.toNat o.toNat 19]
  | .vshift d a b r m o => [encT 42 d.toNat a.toNat b.toNat r.toNat m.toNat o.toNat 20]
  | .vcvt d a r m k => [encT 42 d.toNat a.toNat 0 r.toNat m.toNat k.toNat 21]
  | .venc d a r m f => [encT 42 d.toNat a.toNat 0 r.toNat m.toNat f.toNat 22]
  | .vdec d a r m f => [encT 42 d.toNat a.toNat 0 r.toNat m.toNat f.toNat 23]
  | .tmov d a r m => [encT 42 d.toNat a.toNat 0 r.toNat m.toNat 0 24]
  | .tzero d r => [encT 42 d.toNat 0 0 r.toNat 0 0 25]
  | .tbcast d r m s => [encT 42 d.toNat 0 0 r.toNat m.toNat s.toNat 26]
  | .text a r s => [encT 42 0 a.toNat 0 r.toNat 0 s.toNat 27]
  | .mma t a l z stride => [encMat t.toNat a.toNat 0 l.toNat 0 z.toNat, stride.toNat]
  | .mmas t a b l z stride => [encMat t.toNat a.toNat b.toNat l.toNat 1 z.toNat, stride.toNat]
  | .mmai t a l z stride => [encMat t.toNat a.toNat 0 l.toNat 2 z.toNat, stride.toNat]
  | .bld a l stride => [encMat 0 a.toNat 0 l.toNat 3 0, stride.toNat]
  | .brot l nf c => [encMat 0 0 0 l.toNat 4 0, nf.toNat * 32 + c.toNat]
  | .tblld a sat nan => [encMat 0 a.toNat 0 0 5 0, sat.toNat * 256 + nan.toNat]
  | .ntblld a => [encMat 0 a.toNat 0 0 6 0, 0]
  | .cpy n a b nf len => [encCpy n.toNat a.toNat b.toNat 0 nf.toNat, len.toNat]
  | .cpys n a b nf rows bytes => [encCpy n.toNat a.toNat b.toNat 1 nf.toNat, rows.toNat * 2 ^ 16 + bytes.toNat]
  | .cpyg n a b nf lg count => [encCpy n.toNat a.toNat b.toNat 2 nf.toNat, lg.toNat * 2 ^ 28 + count.toNat]
  | .gacc d r a => [encT 46 d.toNat 0 0 r.toNat 0 a.toNat 0]
  | .gelim d s r a => [encT 46 d.toNat s.toNat 0 r.toNat 0 a.toNat 1]
  | .gdamp d s r m a => [encT 46 d.toNat s.toNat 0 r.toNat m.toNat a.toNat 2]
  | .gpack d r a => [encT 46 d.toNat 0 0 r.toNat 0 a.toNat 3]
  | .gunpk d r a => [encT 46 d.toNat 0 0 r.toNat 0 a.toNat 4]
  | .ewait e => [encR 47 0 0 0 e.toNat 0]
  | .estat d e => [encR 47 d.toNat 0 0 e.toNat 1]
  | .handlerMessage => []
  | .depositMessage => []
  | .messageAcceptance => []
  | .messageRefusal => []
  | .refusalBackoffExpiry _ _ _ => []
  | .spawnRequest => []
  | .spawnAnswer => []
  | .aqRequest => []
  | .aqAnswer => []
  | .copyNotice => []
  | .latchArrival => []
  | .windowAccess => []
  | .atomicAtHome => []
  | .writeAtHome => []
  | .lineFill => []
  | .writeAcknowledgement => []
  | .releaseComplete _ _ => []
  | .stampDrain => []
  | .lifeguardVerdict => []
  | .logDeferredTrapRecord _ => []
  | .pipeFarEndUpdate => []
  | .pipeDeparture => []
  | .groupArrival => []
  | .groupEpisodeComplete => []
  | .waitlimExpiry _ _ => []
  | .idleExpiry _ _ => []
  | .dispatcherScan _ => []
  | .serviceAdmission _ => []
  | .pailCleared _ _ => []
  | .matrixCommandDone _ _ _ => []
  | .vectorCommandDone _ _ _ => []
  | .copyCommandDone _ _ => []
  | .copyHandback _ _ => []
  | .translationRequest => []
  | .pageWalk => []
  | .translationAnswer => []
  | .shootdownRequest => []
  | .shootdownAck => []
  | .vatResizeSweep _ _ _ => []
  | .dualProbe _ _ _ => []
  | .lineMove _ _ _ => []
  | .vatcfgCompletion _ _ => []
  | .shareOffline _ _ _ => []
  | .eccCorrected _ => []
  | .uncorrectableError _ => []
  | .timingReplay _ _ => []
  | .heartbeatTimeout _ => []
  | .memberLoss _ => []
  | .suspectSelfTest _ => []
  | .launchDoorbell _ _ => []
  | .launchPost => []
  | .launchNotice => []
  | .gangPlacement _ => []
  | .gangStart _ => []
  | .gangCompletion _ => []
  | .deadlineExpiry _ _ => []
  | .preemptStarvation _ => []
  | .preemptBudgetExpiry _ => []
  | .memberSave _ => []
  | .gangRestore _ => []
  | .faultRecord _ => []
  | .packetEscape => []
  | .packetAgeSaturation => []
  | .hostWindowRead _ _ _ => []
  | .hostWindowWrite _ _ _ => []
  | .hostWriteFlushComplete _ => []
  | .hostReadTimeout => []
  | .hostLinkDown _ => []
  | .blulinInboundRequest _ _ _ _ _ => []
  | .blulinPeerTimeout _ => []
  | .qpTailPoll _ => []
  | .qpWorkCompletion _ _ => []
  | .rdmaInbound _ _ _ => []
  | .moduleBringUp _ _ => []
  | .pcieConfigRequest _ => []
  | .create => []
  | .reset => []
  | .destroy => []
  | .setWindow => []
  | .preempt => []
  | .kill => []
  | .setCap => []
  | .attest => []
  | .createQp => []
  | .destroyQp => []
  | .regRegion => []
  | .deregRegion => []
  | .readLog => []
  | .registerWrite _ _ => []
  | .powerStepAdjust _ _ => []
  | .skimmerLineRead _ _ => []
  | .illegalEncoding _ => []
  | .instructionFetchFault _ => []
  | .addressWaitEntry => []
  | .logReadPointerAdvance => []
  | .hostReadCompletion _ => []
  | .commandDoorbell _ => []
  | .arpNeighbourDiscovery _ _ => []

/-- `n` bits of `w` from bit `lo` upward, as a bit vector. -/
def bv (n w lo : Nat) : BitVec n := BitVec.ofNat n (w / 2 ^ lo)

/-- Major 0x01. -/
def decAlu (w : Nat) : Except DecodeErr Instr :=
  match fld w 0 6 with
  | 0 => .ok (.add (bv 5 w 21) (bv 5 w 16) (bv 5 w 11))
  | 1 => .ok (.sub (bv 5 w 21) (bv 5 w 16) (bv 5 w 11))
  | 2 => .ok (.and (bv 5 w 21) (bv 5 w 16) (bv 5 w 11))
  | 3 => .ok (.or (bv 5 w 21) (bv 5 w 16) (bv 5 w 11))
  | 4 => .ok (.xor (bv 5 w 21) (bv 5 w 16) (bv 5 w 11))
  | 5 => .ok (.shl (bv 5 w 21) (bv 5 w 16) (bv 5 w 11))
  | 6 => .ok (.shr (bv 5 w 21) (bv 5 w 16) (bv 5 w 11))
  | 7 => .ok (.sar (bv 5 w 21) (bv 5 w 16) (bv 5 w 11))
  | 8 => .ok (.rotr (bv 5 w 21) (bv 5 w 16) (bv 5 w 11))
  | 9 => .ok (.slt (bv 5 w 21) (bv 5 w 16) (bv 5 w 11))
  | 10 => .ok (.sltu (bv 5 w 21) (bv 5 w 16) (bv 5 w 11))
  | 11 => .ok (.min (bv 5 w 21) (bv 5 w 16) (bv 5 w 11))
  | 12 => .ok (.max (bv 5 w 21) (bv 5 w 16) (bv 5 w 11))
  | 13 => .ok (.minu (bv 5 w 21) (bv 5 w 16) (bv 5 w 11))
  | 14 => .ok (.maxu (bv 5 w 21) (bv 5 w 16) (bv 5 w 11))
  | 15 => .ok (.addw (bv 5 w 21) (bv 5 w 16) (bv 5 w 11))
  | 16 => .ok (.subw (bv 5 w 21) (bv 5 w 16) (bv 5 w 11))
  | _ => .error .unassignedCode

/-- Major 0x08. -/
def decShifti (w : Nat) : Except DecodeErr Instr :=
  match fld w 0 2 with
  | 0 => .ok (.shli (bv 5 w 21) (bv 5 w 16) (bv 6 w 10))
  | 1 => .ok (.shri (bv 5 w 21) (bv 5 w 16) (bv 6 w 10))
  | 2 => .ok (.sari (bv 5 w 21) (bv 5 w 16) (bv 6 w 10))
  | 3 => .ok (.rotri (bv 5 w 21) (bv 5 w 16) (bv 6 w 10))
  | _ => .error .unassignedCode

/-- Major 0x0B. -/
def decMuldiv (w : Nat) : Except DecodeErr Instr :=
  match fld w 0 6 with
  | 0 => .ok (.mul (bv 5 w 21) (bv 5 w 16) (bv 5 w 11))
  | 1 => .ok (.mulh (bv 5 w 21) (bv 5 w 16) (bv 5 w 11))
  | 2 => .ok (.mulhu (bv 5 w 21) (bv 5 w 16) (bv 5 w 11))
  | 3 => .ok (.div (bv 5 w 21) (bv 5 w 16) (bv 5 w 11))
  | 4 => .ok (.divu (bv 5 w 21) (bv 5 w 16) (bv 5 w 11))
  | 5 => .ok (.rem (bv 5 w 21) (bv 5 w 16) (bv 5 w 11))
  | 6 => .ok (.remu (bv 5 w 21) (bv 5 w 16) (bv 5 w 11))
  | _ => .error .unassignedCode

/-- Major 0x0C. -/
def decBits (w : Nat) : Except DecodeErr Instr :=
  match fld w 0 6 with
  | 0 => .ok (.clz (bv 5 w 21) (bv 5 w 16))
  | 1 => .ok (.ctz (bv 5 w 21) (bv 5 w 16))
  | 2 => .ok (.popc (bv 5 w 21) (bv 5 w 16))
  | 3 => .ok (.sext (bv 5 w 21) (bv 5 w 16) (bv 5 w 6))
  | 4 => .ok (.zext (bv 5 w 21) (bv 5 w 16) (bv 5 w 6))
  | 5 => .ok (.bext (bv 5 w 21) (bv 5 w 16) (bv 5 w 11))
  | 6 => .ok (.bins (bv 5 w 21) (bv 5 w 16) (bv 5 w 11))
  | _ => .error .unassignedCode

/-- Major 0x0D. -/
def decFp (w : Nat) : Except DecodeErr Instr :=
  match fld w 0 6 with
  | 0 => .ok (.fadd (bv 5 w 21) (bv 5 w 16) (bv 5 w 11) (bv 5 w 6))
  | 1 => .ok (.fsub (bv 5 w 21) (bv 5 w 16) (bv 5 w 11) (bv 5 w 6))
  | 2 => .ok (.fmul (bv 5 w 21) (bv 5 w 16) (bv 5 w 11) (bv 5 w 6))
  | 3 => .ok (.fdiv (bv 5 w 21) (bv 5 w 16) (bv 5 w 11) (bv 5 w 6))
  | 4 => .ok (.fsqrt (bv 5 w 21) (bv 5 w 16) (bv 5 w 6))
  | 5 => .ok (.fmin (bv 5 w 21) (bv 5 w 16) (bv 5 w 11))
  | 6 => .ok (.fmax (bv 5 w 21) (bv 5 w 16) (bv 5 w 11))
  | 7 => .ok (.feq (bv 5 w 21) (bv 5 w 16) (bv 5 w 11))
  | 8 => .ok (.flt (bv 5 w 21) (bv 5 w 16) (bv 5 w 11))
  | 9 => .ok (.fle (bv 5 w 21) (bv 5 w 16) (bv 5 w 11))
  | 10 => .ok (.fcvtif (bv 5 w 21) (bv 5 w 16) (bv 5 w 6))
  | 11 => .ok (.fcvtfi (bv 5 w 21) (bv 5 w 16) (bv 5 w 6))
  | 12 => .ok (.fclass (bv 5 w 21) (bv 5 w 16))
  | _ => .error .unassignedCode

/-- Major 0x18. -/
def decJreg (w : Nat) : Except DecodeErr Instr :=
  match fld w 0 6 with
  | 0 => .ok (.jr (bv 5 w 16))
  | 1 => .ok (.jalr (bv 5 w 21) (bv 5 w 16))
  | _ => .error .unassignedCode

/-- Major 0x1D. -/
def decAmo (w : Nat) : Except DecodeErr Instr :=
  match fld w 7 4 with
  | 0 => .ok (.amoadd (bv 5 w 21) (bv 5 w 16) (bv 5 w 11) (bv 2 w 5) (bv 2 w 3) (bv 2 w 1))
  | 1 => .ok (.amoswp (bv 5 w 21) (bv 5 w 16) (bv 5 w 11) (bv 2 w 5) (bv 2 w 3) (bv 2 w 1))
  | 2 => .ok (.amoand (bv 5 w 21) (bv 5 w 16) (bv 5 w 11) (bv 2 w 5) (bv 2 w 3) (bv 2 w 1))
  | 3 => .ok (.amoor (bv 5 w 21) (bv 5 w 16) (bv 5 w 11) (bv 2 w 5) (bv 2 w 3) (bv 2 w 1))
  | 4 => .ok (.amoxor (bv 5 w 21) (bv 5 w 16) (bv 5 w 11) (bv 2 w 5) (bv 2 w 3) (bv 2 w 1))
  | 5 => .ok (.amomin (bv 5 w 21) (bv 5 w 16) (bv 5 w 11) (bv 2 w 5) (bv 2 w 3) (bv 2 w 1))
  | 6 => .ok (.amomax (bv 5 w 21) (bv 5 w 16) (bv 5 w 11) (bv 2 w 5) (bv 2 w 3) (bv 2 w 1))
  | 7 => .ok (.amominu (bv 5 w 21) (bv 5 w 16) (bv 5 w 11) (bv 2 w 5) (bv 2 w 3) (bv 2 w 1))
  | 8 => .ok (.amomaxu (bv 5 w 21) (bv 5 w 16) (bv 5 w 11) (bv 2 w 5) (bv 2 w 3) (bv 2 w 1))
  | 9 => .ok (.amofadd (bv 5 w 21) (bv 5 w 16) (bv 5 w 11) (bv 2 w 5) (bv 2 w 3) (bv 2 w 1))
  | 10 => .ok (.amofmin (bv 5 w 21) (bv 5 w 16) (bv 5 w 11) (bv 2 w 5) (bv 2 w 3) (bv 2 w 1))
  | 11 => .ok (.amofmax (bv 5 w 21) (bv 5 w 16) (bv 5 w 11) (bv 2 w 5) (bv 2 w 3) (bv 2 w 1))
  | 12 => .ok (.amocas (bv 5 w 21) (bv 5 w 16) (bv 5 w 11) (bv 2 w 5) (bv 2 w 3) (bv 2 w 1))
  | _ => .error .unassignedCode

/-- Major 0x1E. -/
def decMemctl (w : Nat) : Except DecodeErr Instr :=
  match fld w 0 6 with
  | 0 => .ok (.fence (bv 1 w 8) (bv 2 w 6))
  | 1 => .ok (.flush (bv 5 w 16))
  | 2 => .ok (.inval (bv 5 w 16))
  | 3 => .ok (.pref (bv 5 w 16) (bv 1 w 6))
  | 4 => .ok (.pin (bv 5 w 21) (bv 5 w 16) (bv 5 w 11))
  | 5 => .ok (.unpin (bv 5 w 21) (bv 5 w 16) (bv 5 w 11))
  | 6 => .ok (.sflush (bv 5 w 16))
  | _ => .error .unassignedCode

/-- Major 0x20. -/
def decMsg (w : Nat) : Except DecodeErr Instr :=
  match fld w 0 6 with
  | 0 => .ok (.send (bv 5 w 16) (bv 5 w 11))
  | 1 => .ok (.mcast (bv 5 w 16) (bv 5 w 11) (bv 2 w 6))
  | 2 => .ok (.spawn (bv 5 w 21) (bv 5 w 16) (bv 5 w 11))
  | 3 => .ok (.aq (bv 5 w 21) (bv 5 w 16) (bv 5 w 11))
  | 4 => .ok (.launch (bv 5 w 16) (bv 5 w 11))
  | _ => .error .unassignedCode

/-- Major 0x21. -/
def decTask (w : Nat) : Except DecodeErr Instr :=
  match fld w 0 6 with
  | 0 => .ok (.cntset (bv 5 w 16) (bv 5 w 11) (bv 5 w 6))
  | 1 => .ok (.cntadd (bv 5 w 21) (bv 5 w 16) (bv 5 w 6))
  | 2 => .ok (.cntwait (bv 5 w 21) (bv 5 w 6))
  | 3 => .ok (.exit)
  | 4 => .ok (.contain)
  | 5 => .ok (.yield)
  | 6 => .ok (.gbar (bv 5 w 21) (bv 2 w 6))
  | 7 => .ok (.gred (bv 5 w 21) (bv 5 w 16) (bv 3 w 8) (bv 2 w 6))
  | _ => .error .unassignedCode

/-- Major 0x22. -/
def decPipe (w : Nat) : Except DecodeErr Instr :=
  match fld w 20 3 with
  | 0 => .ok (.qwait (bv 3 w 23) (bv 5 w 15) (bv 5 w 10) (bv 10 w 0))
  | 1 => .ok (.qfree (bv 3 w 23) (bv 5 w 15) (bv 5 w 10) (bv 10 w 0))
  | 2 => .ok (.qadv (bv 3 w 23) (bv 5 w 15) (bv 10 w 0))
  | 3 => .ok (.qstat (bv 3 w 23) (bv 5 w 10))
  | 4 => .ok (.qclose (bv 3 w 23))
  | _ => .error .unassignedCode

/-- Major 0x23. -/
def decSys (w : Nat) : Except DecodeErr Instr :=
  match fld w 8 8 with
  | 0 => .ok (.trap (bv 8 w 0))
  | 1 => .ok (.eret (bv 5 w 16))
  | 2 => .ok (.rdsr (bv 5 w 21) (bv 8 w 0))
  | 3 => .ok (.wrsr (bv 5 w 16) (bv 8 w 0))
  | 4 => .ok (.idle)
  | 5 => .ok (.brk (bv 8 w 0))
  | 6 => if fld w 2 1 = 0 then .ok (.shoot (bv 5 w 21) (bv 5 w 16) (bv 2 w 0)) else .ok (.shootAll (bv 5 w 21) (bv 2 w 0))
  | 7 =>
    match fld w 0 8 with
    | 0 => .ok (.vatcfgDefine (bv 5 w 21) (bv 5 w 16))
    | 1 => .ok (.vatcfgResize (bv 5 w 21) (bv 5 w 16))
    | 2 => .ok (.vatcfgRetire (bv 5 w 21) (bv 5 w 16))
    | _ => .error .unassignedCode
  | 8 =>
    match fld w 0 8 with
    | 0 => .ok (.lgbindBind (bv 5 w 21) (bv 5 w 16))
    | 1 => .ok (.lgbindUnbind (bv 5 w 21) (bv 5 w 16))
    | _ => .error .unassignedCode
  | 9 => .ok (.grpcfg (bv 5 w 21) (bv 5 w 16) (bv 2 w 0))
  | 10 => .ok (.resume (bv 5 w 21) (bv 5 w 16) (bv 1 w 0))
  | _ => .error .unassignedCode

/-- Major 0x24. -/
def decLg (w : Nat) : Except DecodeErr Instr :=
  match fld w 0 6 with
  | 0 => .ok (.lgnext (bv 5 w 21))
  | 1 => .ok (.lgverd (bv 5 w 21) (bv 5 w 16) (bv 5 w 11))
  | 2 => .ok (.lgstat (bv 5 w 21) (bv 5 w 6))
  | _ => .error .unassignedCode

/-- Major 0x2A. -/
def decVec (w : Nat) : Except DecodeErr Instr :=
  match fld w 0 6 with
  | 0 => .ok (.vadd (bv 3 w 23) (bv 3 w 20) (bv 3 w 17) (bv 4 w 13) (bv 2 w 11))
  | 1 => .ok (.vsub (bv 3 w 23) (bv 3 w 20) (bv 3 w 17) (bv 4 w 13) (bv 2 w 11))
  | 2 => .ok (.vmul (bv 3 w 23) (bv 3 w 20) (bv 3 w 17) (bv 4 w 13) (bv 2 w 11))
  | 3 => .ok (.vfma (bv 3 w 23) (bv 3 w 20) (bv 3 w 17) (bv 4 w 13) (bv 2 w 11))
  | 4 => .ok (.vmin (bv 3 w 23) (bv 3 w 20) (bv 3 w 17) (bv 4 w 13) (bv 2 w 11))
  | 5 => .ok (.vmax (bv 3 w 23) (bv 3 w 20) (bv 3 w 17) (bv 4 w 13) (bv 2 w 11))
  | 6 => .ok (.vabs (bv 3 w 23) (bv 3 w 20) (bv 4 w 13) (bv 2 w 11))
  | 7 => .ok (.vneg (bv 3 w 23) (bv 3 w 20) (bv 4 w 13) (bv 2 w 11))
  | 8 => .ok (.vdiv (bv 3 w 23) (bv 3 w 20) (bv 3 w 17) (bv 4 w 13) (bv 2 w 11))
  | 9 => .ok (.vrsqrt (bv 3 w 23) (bv 3 w 20) (bv 4 w 13) (bv 2 w 11))
  | 10 => .ok (.vexp2 (bv 3 w 23) (bv 3 w 20) (bv 4 w 13) (bv 2 w 11))
  | 11 => .ok (.vlog2 (bv 3 w 23) (bv 3 w 20) (bv 4 w 13) (bv 2 w 11))
  | 12 => .ok (.vcmp (bv 3 w 20) (bv 3 w 17) (bv 4 w 13) (bv 2 w 11) (bv 2 w 9) (bv 3 w 6))
  | 13 => .ok (.vsel (bv 3 w 23) (bv 3 w 20) (bv 3 w 17) (bv 4 w 13) (bv 2 w 6))
  | 14 => .ok (.vredsum (bv 3 w 23) (bv 3 w 20) (bv 4 w 13) (bv 2 w 11))
  | 15 => .ok (.vredmax (bv 3 w 23) (bv 3 w 20) (bv 4 w 13) (bv 2 w 11))
  | 16 => .ok (.vshuf (bv 3 w 23) (bv 3 w 20) (bv 3 w 17) (bv 4 w 13) (bv 2 w 11))
  | 17 => .ok (.viadd (bv 3 w 23) (bv 3 w 20) (bv 3 w 17) (bv 4 w 13) (bv 2 w 11))
  | 18 => .ok (.vimul (bv 3 w 23) (bv 3 w 20) (bv 3 w 17) (bv 4 w 13) (bv 2 w 11))
  | 19 => .ok (.vlogic (bv 3 w 23) (bv 3 w 20) (bv 3 w 17) (bv 4 w 13) (bv 2 w 11) (bv 2 w 6))
  | 20 => .ok (.vshift (bv 3 w 23) (bv 3 w 20) (bv 3 w 17) (bv 4 w 13) (bv 2 w 11) (bv 2 w 6))
  | 21 => .ok (.vcvt (bv 3 w 23) (bv 3 w 20) (bv 4 w 13) (bv 2 w 11) (bv 2 w 6))
  | 22 => .ok (.venc (bv 3 w 23) (bv 3 w 20) (bv 4 w 13) (bv 2 w 11) (bv 5 w 6))
  | 23 => .ok (.vdec (bv 3 w 23) (bv 3 w 20) (bv 4 w 13) (bv 2 w 11) (bv 5 w 6))
  | 24 => .ok (.tmov (bv 3 w 23) (bv 3 w 20) (bv 4 w 13) (bv 2 w 11))
  | 25 => .ok (.tzero (bv 3 w 23) (bv 4 w 13))
  | 26 => .ok (.tbcast (bv 3 w 23) (bv 4 w 13) (bv 2 w 11) (bv 5 w 6))
  | 27 => .ok (.text (bv 3 w 20) (bv 4 w 13) (bv 5 w 6))
  | _ => .error .unassignedCode

/-- Major 0x2C. -/
def decMat (w w1 : Nat) : Except DecodeErr Instr :=
  match fld w 6 4 with
  | 0 => .ok (.mma (bv 3 w 23) (bv 5 w 18) (bv 1 w 12) (bv 1 w 0) (bv 16 w1 0))
  | 1 => .ok (.mmas (bv 3 w 23) (bv 5 w 18) (bv 5 w 13) (bv 1 w 12) (bv 1 w 0) (bv 16 w1 0))
  | 2 => .ok (.mmai (bv 3 w 23) (bv 5 w 18) (bv 1 w 12) (bv 1 w 0) (bv 16 w1 0))
  | 3 => .ok (.bld (bv 5 w 18) (bv 1 w 12) (bv 16 w1 0))
  | 4 => .ok (.brot (bv 1 w 12) (bv 1 w1 5) (bv 5 w1 0))
  | 5 => .ok (.tblld (bv 5 w 18) (bv 1 w1 8) (bv 8 w1 0))
  | 6 => .ok (.ntblld (bv 5 w 18))
  | _ => .error .unassignedCode

/-- Major 0x2D. -/
def decCpy (w w1 : Nat) : Except DecodeErr Instr :=
  match fld w 8 3 with
  | 0 => .ok (.cpy (bv 5 w 21) (bv 5 w 16) (bv 5 w 11) (bv 1 w 0) (bv 32 w1 0))
  | 1 => .ok (.cpys (bv 5 w 21) (bv 5 w 16) (bv 5 w 11) (bv 1 w 0) (bv 16 w1 16) (bv 16 w1 0))
  | 2 => .ok (.cpyg (bv 5 w 21) (bv 5 w 16) (bv 5 w 11) (bv 1 w 0) (bv 4 w1 28) (bv 28 w1 0))
  | _ => .error .unassignedCode

/-- Major 0x2E (R211). -/
def decGauss (w : Nat) : Except DecodeErr Instr :=
  match fld w 0 6 with
  | 0 => .ok (.gacc (bv 3 w 23) (bv 4 w 13) (bv 5 w 6))
  | 1 => .ok (.gelim (bv 3 w 23) (bv 3 w 20) (bv 4 w 13) (bv 5 w 6))
  | 2 => .ok (.gdamp (bv 3 w 23) (bv 3 w 20) (bv 4 w 13) (bv 2 w 11) (bv 5 w 6))
  | 3 => .ok (.gpack (bv 3 w 23) (bv 4 w 13) (bv 5 w 6))
  | 4 => .ok (.gunpk (bv 3 w 23) (bv 4 w 13) (bv 5 w 6))
  | _ => .error .unassignedCode

/-- Major 0x2F. -/
def decEng (w : Nat) : Except DecodeErr Instr :=
  match fld w 0 6 with
  | 0 => .ok (.ewait (bv 3 w 6))
  | 1 => .ok (.estat (bv 5 w 21) (bv 3 w 6))
  | _ => .error .unassignedCode

/-- The instruction that the fields of the words name, before the checks on reserved and forbidden fields (R265). -/
def decodeRaw (w w1 : Nat) : Except DecodeErr Instr :=
  match fld w 26 6 with
  | 1 => decAlu w
  | 2 => .ok (.addi (bv 5 w 21) (bv 5 w 16) (bv 16 w 0))
  | 3 => .ok (.andi (bv 5 w 21) (bv 5 w 16) (bv 16 w 0))
  | 4 => .ok (.ori (bv 5 w 21) (bv 5 w 16) (bv 16 w 0))
  | 5 => .ok (.xori (bv 5 w 21) (bv 5 w 16) (bv 16 w 0))
  | 6 => .ok (.slti (bv 5 w 21) (bv 5 w 16) (bv 16 w 0))
  | 7 => .ok (.sltiu (bv 5 w 21) (bv 5 w 16) (bv 16 w 0))
  | 8 => decShifti w
  | 9 => .ok (.lih (bv 5 w 21) (bv 16 w 0))
  | 10 => .ok (.liw (bv 5 w 21) (bv 32 w1 0))
  | 11 => decMuldiv w
  | 12 => decBits w
  | 13 => decFp w
  | 14 => .ok (.ffma (bv 5 w 21) (bv 5 w 16) (bv 5 w 11) (bv 5 w 6) (bv 3 w 0))
  | 16 => .ok (.beq (bv 5 w 21) (bv 5 w 16) (bv 16 w 0))
  | 17 => .ok (.bne (bv 5 w 21) (bv 5 w 16) (bv 16 w 0))
  | 18 => .ok (.blt (bv 5 w 21) (bv 5 w 16) (bv 16 w 0))
  | 19 => .ok (.bge (bv 5 w 21) (bv 5 w 16) (bv 16 w 0))
  | 20 => .ok (.bltu (bv 5 w 21) (bv 5 w 16) (bv 16 w 0))
  | 21 => .ok (.bgeu (bv 5 w 21) (bv 5 w 16) (bv 16 w 0))
  | 22 => .ok (.jmp (bv 26 w 0))
  | 23 => .ok (.jal (bv 26 w 0))
  | 24 => decJreg w
  | 26 => .ok (.ld (bv 5 w 21) (bv 5 w 16) (bv 10 w 6) (bv 2 w 4) (bv 2 w 2) (bv 2 w 0))
  | 27 => .ok (.lds (bv 5 w 21) (bv 5 w 16) (bv 10 w 6) (bv 2 w 4) (bv 2 w 2) (bv 2 w 0))
  | 28 => .ok (.st (bv 5 w 21) (bv 5 w 16) (bv 10 w 6) (bv 2 w 4) (bv 2 w 2) (bv 2 w 0))
  | 29 => decAmo w
  | 30 => decMemctl w
  | 31 => .ok (.waita (bv 5 w 21) (bv 5 w 16) (bv 5 w 11) (bv 5 w 6) (bv 2 w 3) (bv 3 w 0))
  | 32 => decMsg w
  | 33 => decTask w
  | 34 => decPipe w
  | 35 => decSys w
  | 36 => decLg w
  | 40 => if fld w 3 1 = 0 then .ok (.tld (bv 3 w 23) (bv 4 w 19) (bv 5 w 14) (bv 10 w 4) (bv 3 w 0)) else .ok (.tldPipe (bv 3 w 23) (bv 4 w 19) (bv 3 w 14) (bv 10 w 4))
  | 41 => if fld w 3 1 = 0 then .ok (.tst (bv 3 w 23) (bv 4 w 19) (bv 5 w 14) (bv 10 w 4) (bv 3 w 0)) else .ok (.tstPipe (bv 3 w 23) (bv 4 w 19) (bv 3 w 14) (bv 10 w 4))
  | 42 => decVec w
  | 44 => decMat w w1
  | 45 => decCpy w w1
  | 46 => decGauss w
  | 47 => decEng w
  | _ => .error .reservedMajor

/-- Word 0 has a word 1 behind it: the major is LIW, MAT or CPY (R262). -/
def hasWord1 (w : Nat) : Bool := fld w 26 6 == 10 || fld w 26 6 == 44 || fld w 26 6 == 45

/-- Decode word 0 and, for LIW, MAT and CPY, word 1. A word is an instruction exactly when it is the encoding of the
well-formed instruction that its fields name: every field that is not named is then 0 (R266, R267). -/
def decodeWords (w w1 : Nat) : Except DecodeErr Instr :=
  match decodeRaw w w1 with
  | .error e => .error e
  | .ok i =>
    if i.wf = false then .error .forbiddenValue
    else if encode i = (if hasWord1 w then [w, w1] else [w]) then .ok i
    else .error .reservedField

/-- A little-endian number from bytes (R4, R262). -/
def leNat : List Byte → Nat
  | [] => 0
  | b :: bs => b.toNat + 256 * leNat bs

/-- The `n` little-endian bytes of a number (R4). -/
def leBytes : Nat → Nat → List Byte
  | 0, _ => []
  | n + 1, v => BitVec.ofNat 8 v :: leBytes n (v / 256)

/-- Decode the bytes at a PC: the instruction and its length in bytes (R262). -/
def decode (bs : List Byte) : Except DecodeErr (Instr × Nat) :=
  if bs.length < 4 then .error .truncated
  else
    let w := leNat (bs.take 4)
    if hasWord1 w then
      if bs.length < 8 then .error .truncated
      else
        match decodeWords w (leNat ((bs.drop 4).take 4)) with
        | .error e => .error e
        | .ok i => .ok (i, 8)
    else
      match decodeWords w 0 with
      | .error e => .error e
      | .ok i => .ok (i, 4)

/-- The bytes of an instruction in memory: each word little-endian, word 0 at the lower address (R262). -/
def encodeBytes (i : Instr) : List Byte := (encode i).flatMap (leBytes 4)

/-- The instruction that the decoder reads from an instruction whose bits are `w`, bit 0 the least significant bit of the
first word; every bit above `nbits` is 0. -/
def decodeTableWord (nbits w : Nat) : Option Instr :=
  match decode (leBytes 8 (w % 2 ^ nbits)) with
  | .ok (i, _) => some i
  | .error _ => none

end Sys2Proof
end

