-- ==== Sys2Proof/Machine/MemCtl.lean ====
section
/-! DEFINITION. The meanings of the memory-control instructions: FENCE (R139), FLUSH and INVAL (R323), PREF (R345), PIN and
UNPIN (R110, R111, R364), SFLUSH (R164) and WAITA (R375, R376). -/
namespace Sys2Proof.Machine

/-! ## FENCE -/

/-- The context's engine commands have all performed their writes or faulted (R139); a copy that was handed back has faulted. -/
def Context.enginesIdle (x : Context) : Bool := x.mq.isEmpty && x.vq.isEmpty && x.cq.all (·.handed)

/-- Go on once the context's engine commands are done (R139). -/
def State.withEngines (s : State) (f : State → State) : State :=
  if s.cx.enginesIdle then f s else s.await .engines false s.cx.op.phase

/-- Whether a FENCE of a scope reports a deferred fault (R103, R141): a refusal within the scope, or a reduction's translation
fault, whose home is unknown. -/
def Deferred.covered (sc : Scope) (d : Deferred) : Bool := d.scope.all (fun x => x.toNat ≤ sc.toNat)

/-- What is left once a FENCE has raised a deferred fault (R103, R139): that fault goes, and with a refusal the later ones that the FENCE
covers. -/
def forget (sc : Scope) (d : Deferred) (l : List Deferred) : List Deferred :=
  if d.scope.isSome then l.filter (fun e => e.scope.isNone || !e.covered sc) else l.erase d

/-- Raise the earliest deferred fault that a FENCE covers, or go on (R103, R139). -/
def State.withDeferred (s : State) (sc : Scope) (f : State → State) : State :=
  match s.cx.deferred.find? (·.covered sc) with
  | none => f s
  | some d =>
    (s.onCx (fun x => { x with deferred := forget sc d x.deferred })).trap { d.info with deferred := true }

/-- Whether a kill for poison that a copy command read is due at this instruction (R236). -/
def State.withClean (s : State) (f : State → State) : State :=
  if s.cx.act.poisoned then s.killUncorrectable s.meId s.me.cur (poisonTrap 0#64) else f s

/-- FENCE (R139): the release steps, with E the context's engine writes, the deferred faults, then the acquire. -/
def execFence (e : BitVec 1) (sc : BitVec 2) (s : State) : Answer :=
  .next (s.withRelease sc 1 (fun s =>
    let tail (s : State) : State := s.withDeferred sc (fun s => (s.acquireLines s.meId s.me.cur sc).retire 1)
    if e = 1#1 then s.withEngines (fun s => s.withClean tail) else tail s))

/-! ## FLUSH, INVAL and PREF -/

/-- Whether a line fill of a core is on its way. -/
def State.fillComing (s : State) (core : CoreId) (pa : Nat) : Bool :=
  s.net.any (fun p => match p.body with
    | .fill r xl _ _ i => r.core = core && xl.pa / 64 = pa / 64 && !i
    | _ => false)

/-- Act on the L1 line of a paged address, after a fill in flight (R323); nothing for a window address. -/
def State.lineOp (s : State) (a : BitVec 5) (f : State → Xl → (State → State) → State) : State :=
  let va := addrOf (s.cx.rg a) 0#64
  if inWindow va then s.retire 1
  else s.withPage va .read (fun s xl =>
    if s.fillComing s.meId xl.pa then s.await .counters false s.cx.op.phase else f s xl (fun s => s.retire 1))

/-- FLUSH (R323): the line's dirty bytes are written back and the line stays. -/
def execFlush (a : BitVec 5) (s : State) : Answer :=
  .next (s.lineOp a (fun s xl f => s.withLineRoom xl.pa none (fun s =>
    f (s.l1WriteBack (s.reqOf s.meId s.me.cur) (fun l => l.xl.pa / 64 = xl.pa / 64)))))

/-- INVAL (R323): the line's clean bytes become invalid. -/
def execInval (a : BitVec 5) (s : State) : Answer :=
  .next (s.lineOp a (fun s xl f => f (s.onMe (fun c => c.l1Invalidate (fun l => l.xl.pa / 64 = xl.pa / 64)))))

/-- Ask for a prefetch's fill, unless the byte asked for is valid in L1 (R108, R345). -/
def State.prefetchFill (s : State) (xl : Xl) (va : Nat) : State :=
  let r := { s.reqOf s.meId s.me.cur with bg := true }
  if (s.me.l1Line? xl.pa).any (fun l => l.valid.getLsbD (xl.pa % 64)) then s
  else s.sendPacket 0#2 r.pri (.fill r xl va false false)

/-- PREF (R345): a fill is requested where the translation is at hand, or the translation home is asked; no trap. The request of
a prefetch with w = 1 is marked as one for writing, and is checked as a read and for W. -/
def execPref (a : BitVec 5) (w : BitVec 1) (s : State) : Answer :=
  let va := addrOf (s.cx.rg a) 0#64
  .next (
    if inWindow va then s.retire 1
    else if s.missOut then s.await .counters false s.cx.op.phase
    else match s.ownerOf s.meId with
      | none => s.retire 1
      | some t =>
        match s.me.steer? t.id va with
        | some e =>
          if (leafFault t e va .read (!s.cx.sup)).isSome || (w = 1#1 && !e.w) then s.retire 1
          else (s.prefetchFill (e.xl va) va).retire 1
        | none => (s.askXl va (if w = 1#1 then .write else .read) true).retire 1)

/-! ## PIN and UNPIN -/

/-- The slot of local memory at an offset (R106). -/
def localSlot (off : Nat) : Nat := off / 64

/-- Pin one line (R110): a cached line in its place is written back and dropped, and the line reads zero. -/
def State.pinLine (s : State) (off : Nat) : State :=
  let slot := localSlot off
  if s.me.pinned slot then s
  else
    let s1 := s.l1Flush (s.reqOf s.meId s.me.cur) (fun l => l.way * 64 + l1Set l.xl.pa = slot)
    s1.onMe (fun c =>
      { c with localMem := c.localMem.clear off 64, localPoison := c.localPoison.filter (fun d => d / 8 ≠ slot), pinBy := c.pinBy ||| (1#512 <<< slot) })

/-- Whether the counter takes the write-backs of the lines that a PIN of `n` lines from an offset pins (R134): those of the slots that
are not pinned yet. -/
def State.pinRoom (s : State) (off n : Nat) : Bool :=
  s.roomFor (s.reqOf s.meId s.me.cur) (fun l =>
    let slot := l.way * 64 + l1Set l.xl.pa
    localSlot off ≤ slot && slot < Nat.min (localSlot off + n) (localSlot 0x7000) && !s.me.pinned slot) none

/-- Whether a line fill on its way may take the place of a line that a PIN of `n` lines from an offset pins (R110): it is for the set of a slot
that is not pinned yet. -/
def State.pinAwaits (s : State) (off n : Nat) : Bool :=
  let set (pa : Nat) : Bool := (List.range n).any (fun i =>
    let slot := localSlot off + i
    slot < localSlot 0x7000 && slot % 64 = l1Set pa && !s.me.pinned slot)
  s.net.any (fun p => match p.body with
    | .fill r xl _ _ i => r.core = s.meId && !i && set xl.pa
    | _ => false)

/-- Pin lines upward from an offset below 0x7000 (R110); `fuel` is the number asked for. -/
def State.pinLines (s : State) (off : Nat) : Nat → Nat → State × Nat
  | 0, k => (s, k)
  | fuel + 1, k => if off < 0x7000 then State.pinLines (s.pinLine off) (off + 64) fuel (k + 1) else (s, k)

/-- The operand checks of PIN and UNPIN (R110). -/
def State.withLines (s : State) (d a b : BitVec 5) (f : State → Nat → Nat → State) : State :=
  let o := s.cx.rg a
  s.withDest d (fun s =>
    if o.toNat / 2 ^ 15 ≠ 0 then s.trapPlain .illegal
    else if o.toNat % 64 ≠ 0 then s.trap { cause := .align, addr := o }
    else f s o.toNat (Nat.min (s.cx.rg b).toNat 512))

/-- PIN (R110): after the line fills on their way into its slots. -/
def execPin (d a b : BitVec 5) (s : State) : Answer :=
  .next (s.withLines d a b (fun s o n =>
    if s.pinAwaits o n || !s.pinRoom o n then s.await .counters false s.cx.op.phase
    else
      let (s1, k) := s.pinLines o n 0
      s1.finish d (BitVec.ofNat 64 k) 1))

/-- Release pinned lines upward from an offset (R111). -/
def Core.unpinLines (c : Core) (off : Nat) : Nat → Nat → Core × Nat
  | 0, k => (c, k)
  | fuel + 1, k =>
    let slot := localSlot off
    if 0x7000 ≤ off || c.pinLU.getLsbD slot then (c, k)
    else if c.pinBy.getLsbD slot then
      Core.unpinLines
        { c with pinBy := c.pinBy &&& ~~~(1#512 <<< slot), localMem := c.localMem.clear off 64
                 localPoison := c.localPoison.filter (fun d => d / 8 ≠ slot) } (off + 64) fuel (k + 1)
    else Core.unpinLines c (off + 64) fuel k

/-- The engine commands of the core that are queued or executing when an UNPIN issues are those that it waits for (R364). -/
def Core.awaitEngines (c : Core) (k : CtxId) : Core :=
  let bit : BitVec 4 := 1#4 <<< k.toNat
  let mark (x : Context) : Context :=
    { x with mq := x.mq.map (fun q => { q with awaited := q.awaited ||| bit }), vq := x.vq.map (fun q => { q with awaited := q.awaited ||| bit })
             cq := x.cq.map (fun q => if q.handed then q else { q with awaited := q.awaited ||| bit }) }
  { c with ctx0 := mark c.ctx0, ctx1 := mark c.ctx1, ctx2 := mark c.ctx2, ctx3 := mark c.ctx3 }

/-- Whether every command that a context's UNPIN waits for has ended. -/
def Core.enginesDone (c : Core) (k : CtxId) : Bool :=
  allCtx.all (fun j => let x := c.ctx j
    (x.mq ++ x.vq).all (fun q => !q.awaited.getLsbD k.toNat) && x.cq.all (fun q => q.handed || !q.awaited.getLsbD k.toNat))

/-- UNPIN (R111, R364): it waits until the engine commands that the core had when it issued are done. -/
def execUnpin (d a b : BitVec 5) (s : State) : Answer :=
  .next (s.withLines d a b (fun s o n =>
    let go (s : State) : State :=
      let (c1, k) := s.me.unpinLines o n 0
      ({ s with me := c1 }).finish d (BitVec.ofNat 64 k) 1
    if s.cx.op.phase = 1 then (if s.me.enginesDone s.me.cur then go s else s.await .engines false 1)
    else if allCtx.all (fun k => (s.me.ctx k).enginesIdle) then go s
    else (s.onMe (fun c => c.awaitEngines c.cur)).await .engines false 1))

/-! ## SFLUSH -/

/-- SFLUSH (R164, R262): with g0 every steer entry, vat record and instruction line of the core goes, otherwise the entries
whose page contains the address. -/
def execSflush (a : BitVec 5) (s : State) : Answer :=
  let va := addrOf (s.cx.rg a) 0#64
  .next ((s.onMe (fun c =>
    if a = 0#5 then { c with steer := [], vatCache := [], il1 := [] }
    else { c with steer := c.steer.filter (fun e => va / 2 ^ e.lg ≠ e.va / 2 ^ e.lg) })).retire 1)

/-! ## WAITA -/

/-- Whether the wait of the issuing context cannot time out: its request has not had its first test, or a test has held and a stamp is
drained before it ends (R70, R375). -/
def State.waitStands (s : State) : Bool :=
  let mine (e : WaitEntry) : Bool := e.req.core = s.meId && e.req.ctx = s.me.cur && e.req.serial = s.cx.act.serial
  s.net.any (fun p => match p.body with | .waitReq e => mine e | _ => false)
  || s.slices.any (fun p => p.2.waits.any (fun e => mine e && e.hit))

/-- WAITA (R375): the checks, the request to the home behind the context's own bytes of the line (R133), and its outcome. -/
def State.waita (s : State) (d a b c : BitVec 5) (z : BitVec 2) (p : BitVec 3) : State :=
  let n := 2 ^ z.toNat
  let va := addrOf (s.cx.rg a) 0#64
  s.withDest d (fun s =>
    if inWindow va then s.trap (faultAt .window va .read 0#3)
    else if va % n ≠ 0 then s.trap (faultAt .align va .read 0#3)
    else if s.cx.op.phase = 9 then
      match s.cx.op.fault, s.cx.op.status with
      | some i, _ => s.faultOut { i with addr := BitVec.ofNat 64 va }
      | none, some 0 => (s.acquireLines s.meId s.me.cur (BitVec.ofNat 2 s.cx.op.aux)).waitEnd d 0 none
      | none, some k => s.waitEnd d k (some .waitTimeout)
      | none, none =>
        if s.cx.timedOut && !s.waitStands then (s.withdrawWaits s.meId s.me.cur).waitEnd d 1 (some .waitTimeout) else s.await .address true 9
    else
      s.withPage va .read (fun s xl =>
        if xl.region = .host then s.trap (faultAt .atomicPath va .read 0#3)
        else s.afterRel (relKey (.paged xl)) n (fun s => s.withLineRoom xl.pa none (fun s =>
          let r := s.reqOf s.meId s.me.cur
          let e : WaitEntry :=
            { req := r, xl := xl, size := n, cmp := p, expected := s.cx.rg b
              mask := if c = 0#5 then 0xFFFFFFFFFFFFFFFF#64 else s.cx.rg c }
          let s1 := (s.l1WriteBack r (fun l => l.xl.pa / 64 = xl.pa / 64)).onCx (fun x =>
            { x with op := { x.op with aux := (s.scopeOfHome s.meId xl false).toNat } })
          (s1.sendPacket 0#2 r.pri (.waitReq e)).await .address true 9))))

/-- WAITA (R280, R375). -/
def execWaita (d a b c : BitVec 5) (z : BitVec 2) (p : BitVec 3) (s : State) : Answer := .next (s.waita d a b c z p)

end Sys2Proof.Machine
end

