-- ==== Sys2Proof/Machine/Contain.lean ====
section
/-! DEFINITION. The outbox and the containment point: obtaining an entry (R56, R57), the log record and its verdict, the release
of the held messages and their sending (R55, R57, R143, R309). -/
namespace Sys2Proof.Machine

/-! ## Held messages -/

/-- Whether an outbox entry is an unreleased one of an activation. -/
def OutEntry.heldBy (e : OutEntry) (k : CtxId) (serial : Nat) : Bool := !e.released && e.ctx = k && e.serial = serial

/-- The held entries of the issuing activation, in issue order. -/
def State.heldNow (s : State) : List OutEntry := s.me.outbox.filter (fun e => e.heldBy s.me.cur s.cx.act.serial)

/-- Whether an entry is a SPAWN's request, which leaves by itself. -/
def OutEntry.isSpawn (e : OutEntry) : Bool := match e.kind with | .spawn _ => true | _ => false

/-- The scope of a message (R143): the narrowest that holds the sender and every destination; mod for LAUNCH. -/
def OutEntry.scope (me : CoreId) (e : OutEntry) : Scope :=
  match e.kind with
  | .post _ | .notice _ _ => 2#2
  | .spawn t => scopeOf me t
  | _ => e.dests.foldl (fun a d => Scope.max a (scopeOf me d.core)) 0#2

/-- The widest scope of the messages that a containment point releases, if there are any (R143). -/
def State.heldScope (s : State) : Option Scope :=
  s.heldNow.foldl (fun a e => some (Scope.max (a.getD 0#2) (e.scope s.meId))) none

/-- The header that a receiver finds (R36, R38): the sender's coordinates, and [52] for a multicast copy. -/
def deliveredHeader (src : CoreId) (h : Word) (multi : Bool) : Word :=
  (h &&& 0xFFE00000FFFFFFFF#64) ||| headerForm src ||| (if multi then 1#64 <<< 52 else 0#64)

/-- The router of the home launch unit of a core's tenant (R75). -/
def State.homeUnit (s : State) : CoreId := launchUnit ((s.ownerOf s.meId).elim 0 Tenant.homeDie)

/-- Send one copy of an entry to a destination core. -/
def State.sendCopy (s : State) (core : CoreId) (e : OutEntry) (dst : CoreId) : State :=
  let multi := match e.kind with | .multicast _ => true | _ => false
  s.sendPacket 2#2 e.pri
    (.message dst core ((s.core core).gang.getD 0) (deliveredHeader core e.hdr multi) e.payload e.slot false)

/-- Send what a released entry holds for the first time (R55, R341). -/
def State.sendEntry (s : State) (core : CoreId) (e : OutEntry) : State :=
  let tn := s.tenantNo core
  match e.kind with
  | .message | .multicast _ => e.dests.foldl (fun s d => s.sendCopy core e d.core) s
  | .post va => s.sendPacket 2#2 e.pri (.post tn va e.sup (some (core, e.slot)))
  | .notice id n => s.sendPacket 2#2 e.pri (.notices tn id n (some (core, e.slot)))
  | .spawn _ => s

/-- Release the held messages of the issuing activation in issue order (R55); an entry with nobody to reach is freed (R340). -/
def State.releaseHeld (s : State) : State :=
  let serial := s.cx.act.serial
  let k := s.me.cur
  let out := s.heldNow.filter (fun e => !e.isSpawn)
  let gone (e : OutEntry) : Bool := match e.kind with | .multicast _ => e.dests.isEmpty | _ => false
  let s1 := s.onMe (fun c =>
    let sent := c.outbox.map (fun e => if e.heldBy k serial && !e.isSpawn then
      { e with released := true, dests := e.dests.map (fun d => { d with inFlight := true }) } else e)
    ({ c with outbox := sent.filter (fun e => !(e.released && gone e)) } : Core).wake (fun w => w == WaitKind.outbox))
  out.foldl (fun s e => s.sendEntry s.meId e) s1

/-! ## The containment point -/

/-- Phase 5 of a containment: the record is in the log, and its sequence number plus one is in `aux`, 0 where no verdict is
due (R219, R309). -/
def State.withContainLog (s : State) (type : Nat) (f : State → State) : State :=
  let go (s : State) (n : Nat) : State := f (s.onCx (fun x => { x with op := { x.op with phase := 5, aux := n } }))
  if 5 ≤ s.cx.op.phase then f s
  else if s.me.cur = 3#2 then go s 0
  else match s.workerBinding s.meId with
    | none => go s 0
    | some b => s.withLog { type := type, body := leBytesOf 4 b.nextLog } (fun s => go s (b.nextLog + 1))

/-- Go on once every copy command of the activation has read its last byte, or was handed back (R309). -/
def State.withCopyReads (s : State) (f : State → State) : State :=
  if s.cx.cq.all (fun q => q.serial ≠ s.cx.act.serial || q.handed) then f s else s.await .copyReads false s.cx.op.phase

/-- The distance of a sequence number from the first record of a binding (R227). -/
def seqDist (n : Nat) : Nat := (n + (2 ^ 32 - 1)) % 2 ^ 32

/-- Whether a pass covers a sequence number: the numbers compare by their distance from the first record (R227, R229). -/
def covers (pass : Option Nat) (n : Nat) : Bool := pass.any (fun p => seqDist n ≤ seqDist p)

/-- Go on once a verdict covers the record; the end of WAITLIM is a fail of type 15 (R229). -/
def State.withVerdict (s : State) (f : State → State) : State :=
  match s.cx.op.aux, s.workerBinding s.meId with
  | 0, _ => f s
  | _, none => f s
  | n + 1, some b =>
    if covers b.pass n then f s
    else if s.cx.timedOut then s.lgFail s.meId s.me.cur 15 n s.cx.pc 0#64 s.cx.act.dirtied
    else s.await (.verdict n) true s.cx.op.phase

/-- A containment point (R55, R309): the record, the copy reads, the verdict, the kill for poison, then the release and the
sending of what is held. -/
def State.withContain (s : State) (type : Nat) (f : State → State) : State :=
  s.withContainLog type (fun s =>
    s.withCopyReads (fun s =>
      s.withVerdict (fun s =>
        s.withClean (fun s =>
          let clean (s : State) : State := f (s.onCx (fun x => { x with act := { x.act with dirtied := false } }))
          match s.heldScope with
          | none => clean s
          | some sc => s.withRelease sc 7 (fun s => clean s.releaseHeld)))))

/-! ## Outbox entries -/

/-- A free entry for a context: its own reserved one, or one of the four shared (R56). -/
def Core.freeSlot (c : Core) (k : CtxId) : Option Nat :=
  [k.toNat, 4, 5, 6, 7].find? (fun n => !c.outbox.any (fun e => e.slot = n))

/-- Obtain an outbox entry (R57): with none free, an implicit CONTAIN first where the activation holds a message, then a wait
that ends with WAIT_TIMEOUT. -/
def State.withEntry (s : State) (f : State → Nat → State) : State :=
  let wait (s : State) : State :=
    let s1 := s.onCx (fun x => { x with op := { x.op with phase := 0, aux := 0 } })
    match s1.me.freeSlot s1.me.cur with
    | some n => f s1 n
    | none => if s1.cx.timedOut then s1.trapPlain .waitTimeout else s1.await .outbox true 0
  let started := 5 ≤ s.cx.op.phase || (s.me.freeSlot s.me.cur).isNone
  if started && !s.heldNow.isEmpty then s.withContain 6 wait else wait s

/-- The next TAG (R379), and the header that carries it. -/
def taggedHeader (h : Word) (tag : BitVec 11) : Word := (h &&& 0x001FFFFFFFFFFFFF#64) ||| (tag.setWidth 64 <<< 53)

/-- Hold a message in an entry (R55), taking a TAG, and retire: `log` is the logged header of a tagged one. -/
def State.hold (s : State) (kind : OutKind) (h log : Word) (payload : List Word) (dests : List CoreId) (pri : BitVec 2) : State :=
  s.withEntry (fun s n =>
    s.withLog { type := 4, body := leBytesOf 8 (taggedHeader log s.me.tag).toNat } (fun s =>
      let e : OutEntry :=
        { slot := n, ctx := s.me.cur, serial := s.cx.act.serial, kind := kind, hdr := taggedHeader h s.me.tag
          payload := payload, sup := s.cx.sup, pri := pri, actPri := s.cx.act.pri
          dests := dests.map (fun d => { core := d, inFlight := false }) }
      (s.onMe (fun c => { c with outbox := c.outbox ++ [e], tag := c.tag + 1#11 })).retire 1))

/-! ## Reading operands from memory -/

/-- Read `n` doublewords from an address one after another as plain loads, each kept in `got` behind the `skip` that are there
(R37). -/
def State.gather (s : State) (va n skip : Nat) : Nat → (State → List Word → State) → State
  | 0, f => f s (s.cx.op.got.drop skip)
  | k + 1, f =>
    let i := s.cx.op.got.length - skip
    if n ≤ i then f s (s.cx.op.got.drop skip)
    else s.load ((va + 8 * i) % 2 ^ 57) 8 .plain (fun s v =>
      State.gather (s.onCx (fun x => { x with op := { x.op with got := x.op.got ++ [BitVec.ofNat 64 v], result := none
                                                                phase := if x.op.phase = 9 then 0 else x.op.phase } })) va n skip k f)

end Sys2Proof.Machine
end

