-- ==== Sys2Proof/Machine/Tile.lean ====
section
/-! DEFINITION. What the tile instructions share: tiles by row and lane, scoreboarding (R208), orphaned tiles (R317), the limit of
R34, the command queues (R208, R70), their ENGINE record (R224), and the reading and writing of an engine (R104, R145, R363). -/
namespace Sys2Proof.Machine

/-! ## Tiles -/

/-- A lane of a tile. -/
def Tile.at (t : Tile) (r l : Nat) : Lane := ((t.toList[r]?).bind (fun w => w.toList[l]?)).getD 0#32

/-- A tile from its lanes. -/
def Tile.of (f : Nat → Nat → Lane) : Tile := Vector.ofFn (fun r => Vector.ofFn (fun l => f r.val l.val))

/-- The rows that a row field names: one, or 15 for all eight (R358). -/
def rowsOf (r : BitVec 4) : List Nat := if r = 15#4 then List.range 8 else [r.toNat]

/-- The tile of a context. -/
def Context.tile (x : Context) (t : BitVec 3) : Tile := x.t[t.toNat]

/-! ## The shape of a command -/

/-- Which tiles a command reads and writes, and its lane mask. -/
structure Shape where
  reads : List (BitVec 3) := []
  writes : List (BitVec 3) := []
  mask : BitVec 2 := 0#2
  setsMask : BitVec 2 := 0#2
  deriving DecidableEq, Repr

/-- The second tile of a joint pair (R210). -/
def pairTile (t : BitVec 3) : BitVec 3 := t + 1#3

/-- The tiles and masks of an instruction (R211, R266, R317, R358). DESIGN CHOICE: GACC counts both tiles of its pair, wherever its rows lie
(R212; log entry 96). -/
def shapeOf (i : Instr) : Shape :=
  match i with
  | .tld t _ _ _ _ => { writes := [t] }
  | .tldPipe t _ _ _ => { writes := [t] }
  | .tst t _ _ _ _ => { reads := [t] }
  | .tstPipe t _ _ _ => { reads := [t] }
  | .vadd d a b _ m | .vsub d a b _ m | .vmul d a b _ m | .vmin d a b _ m | .vmax d a b _ m | .vdiv d a b _ m
  | .vshuf d a b _ m | .viadd d a b _ m | .vimul d a b _ m => { reads := [a, b], writes := [d], mask := m }
  | .vlogic d a b _ m _ | .vshift d a b _ m _ => { reads := [a, b], writes := [d], mask := m }
  | .vfma d a b _ m => { reads := [a, b, d], writes := [d], mask := m }
  | .vabs d a _ m | .vneg d a _ m | .vrsqrt d a _ m | .vexp2 d a _ m | .vlog2 d a _ m | .vredsum d a _ m | .vredmax d a _ m
  | .tmov d a _ m => { reads := [a], writes := [d], mask := m }
  | .vcvt d a _ m _ => { reads := [a], writes := [d], mask := m }
  | .venc d a _ m _ | .vdec d a _ m _ => { reads := [a], writes := [d], mask := m }
  | .vcmp a b _ m k _ => { reads := [a, b], mask := m, setsMask := k }
  | .vsel d a b _ k => { reads := [a, b], writes := [d], mask := k }
  | .tzero d _ => { writes := [d] }
  | .tbcast d _ m _ => { writes := [d], mask := m }
  | .text a _ _ => { reads := [a] }
  | .mma t _ _ z _ => { reads := if z = 1#1 then [] else [t], writes := [t] }
  | .mmas t _ _ _ z _ => { reads := if z = 1#1 then [] else [t], writes := [t] }
  | .mmai t _ _ z _ => { reads := if z = 1#1 then [] else [t], writes := [t] }
  | .gacc d _ _ => { reads := [d, pairTile d], writes := [d, pairTile d] }
  | .gelim d t _ _ => { reads := [d, pairTile d], writes := [t] }
  | .gdamp d t _ m _ => { reads := [d, t], writes := [d], mask := m }
  | .gpack d _ _ => { reads := [d] }
  | .gunpk d _ _ => { writes := [d] }
  | _ => {}

/-- Whether an instruction writes every lane of its destination without reading it, and so clears an orphan mark (R317). -/
def clearsOrphan (i : Instr) : Bool :=
  let sh := shapeOf i
  let whole (r : BitVec 4) : Bool := r = 15#4 && sh.mask = 0#2 && !sh.writes.any (fun t => sh.reads.contains t)
  match i with
  | .tld _ r _ _ _ => r = 15#4
  | .tldPipe _ r _ _ => r = 15#4
  | .mma _ _ _ z _ => z = 1#1
  | .mmas _ _ _ _ z _ => z = 1#1
  | .mmai _ _ _ z _ => z = 1#1
  | .vadd _ _ _ r _ | .vsub _ _ _ r _ | .vmul _ _ _ r _ | .vfma _ _ _ r _ | .vmin _ _ _ r _ | .vmax _ _ _ r _ | .vdiv _ _ _ r _
  | .vshuf _ _ _ r _ | .viadd _ _ _ r _ | .vimul _ _ _ r _ => whole r
  | .vlogic _ _ _ r _ _ | .vshift _ _ _ r _ _ => whole r
  | .vabs _ _ r _ | .vneg _ _ r _ | .vrsqrt _ _ r _ | .vexp2 _ _ r _ | .vlog2 _ _ r _ | .tmov _ _ r _ => whole r
  | .vcvt _ _ r _ _ => whole r
  | .venc _ _ r _ _ | .vdec _ _ r _ _ => whole r
  | .vsel d a b r _ => r = 15#4 && d ≠ a && d ≠ b
  | .tzero _ r => r = 15#4
  | .tbcast _ r m _ => r = 15#4 && m = 0#2
  | _ => false

/-! ## Issue -/

/-- The commands of the present activation in the matrix and vector queues. -/
def Context.ownCmds (x : Context) : List EngCmd := (x.mq ++ x.vq).filter (fun c => c.serial = x.act.serial)

/-- Whether an instruction must wait for a queued command: for its tiles (R208), or for a VCMP into its mask (R359). -/
def Context.tileBusy (x : Context) (i : Instr) : Bool :=
  let sh := shapeOf i
  x.ownCmds.any (fun c =>
    let q := shapeOf c.op
    (q.reads ++ q.writes).any (fun t => (sh.reads ++ sh.writes).contains t) || (sh.mask ≠ 0#2 && q.setsMask = sh.mask))

/-- The word 0 of an instruction. -/
def word0 (i : Instr) : Lane := BitVec.ofNat 32 ((encode i).headD 0)
/-- The word 1 of an instruction, or 0. -/
def word1 (i : Instr) : Lane := BitVec.ofNat 32 ((encode i).tail.headD 0)

/-- Whether the activation may write some tiles one after another (R34). -/
def Context.mayTiles (x : Context) : List (BitVec 3) → Bool
  | [] => true
  | t :: r => x.mayT t && Context.mayTiles { x with wroteT := x.wroteT ||| (1#8 <<< t.toNat) } r

/-- The FAULTADDR of an orphaned tile (R317). -/
def orphanAddr (o : Orphan) : Word := BitVec.ofNat 64 (o.word0.toNat * 2 ^ 32 + o.engine.toNat * 256 + o.tile.toNat)

/-- Go on only if the activation may write the tiles of an instruction (R34); otherwise ILLEGAL, before any other check (R361, R362). -/
def State.withLimit (s : State) (i : Instr) (f : State → State) : State :=
  if s.cx.mayTiles (shapeOf i).writes then f s else s.trapPlain .illegal

/-- Whether a command's activation still holds the context. -/
def Context.current (x : Context) (q : EngCmd) : Bool := x.act.serial = q.serial

/-- A poisoned tile that an instruction reads makes it consume an uncorrectable error (R236, R358). -/
def Context.readsPoison (x : Context) (i : Instr) : Bool := (shapeOf i).reads.any (fun t => x.tPoison.getLsbD t.toNat)

/-- Go on for a tile instruction once its tiles and mask are settled: the limit of R34, the scoreboard (R208, R359) and
ACC_ORPHAN for what it reads (R317). -/
def State.withTiles (s : State) (i : Instr) (f : State → State) : State :=
  let sh := shapeOf i
  if !s.cx.mayTiles sh.writes then s.trapPlain .illegal
  else if s.cx.tileBusy i then s.await .scoreboard false s.cx.op.phase
  else match s.cx.orphans.find? (fun o => sh.reads.contains o.tile) with
    | some o => s.trap { cause := .accOrphan, addr := orphanAddr o }
    | none => f s

/-- The ENGINE record (R224): word 0 and the low 32 bits of register a. -/
def engineItem (w0 : Lane) (a : Word) : LogItem :=
  { type := 5, body := leBytesOf 4 w0.toNat ++ leBytesOf 4 a.toNat, dirty := true }

/-- Log an engine instruction and go on; its effects count as dirty (R229). -/
def State.withEngineLog (s : State) (i : Instr) (a : Word) (f : State → State) : State :=
  s.withLog (engineItem (word0 i) a) (fun s => f s.dirty)

/-- A command with what it captures of its context at issue (R208, R290, R358). -/
def State.command (s : State) (i : Instr) : EngCmd :=
  let x := s.cx
  { op := i, serial := x.act.serial, user := !x.sup, word0 := word0 i, pc := x.pc, pri := x.act.pri, mask := x.mask (shapeOf i).mask, frm := x.frm
    scaleBase := x.scaleBase, scaleOrg := x.scaleOrg }

/-- Mark the tiles that a command writes as written (R34). -/
def Context.markTiles (x : Context) (l : List (BitVec 3)) : Context :=
  { x with wroteT := l.foldl (fun m t => m ||| (1#8 <<< t.toNat)) x.wroteT }

/-- Queue a vector command, retiring the instruction (R208): a full queue stalls without timeout (R70). -/
def State.queueVector (s : State) (c : EngCmd) (a : Word) : State :=
  if 2 ≤ s.cx.vq.length then s.await .engineQueue false s.cx.op.phase
  else s.withEngineLog c.op a (fun s =>
    (s.onCx (fun x => { x.markTiles (shapeOf c.op).writes with vq := x.vq ++ [c] })).retire 1)

/-- Queue a matrix command, whose instruction has two words (R208, R266). -/
def State.queueMatrix (s : State) (c : EngCmd) (a : Word) : State :=
  if 2 ≤ s.cx.mq.length then s.await .engineQueue false s.cx.op.phase
  else s.withEngineLog c.op a (fun s =>
    (s.onCx (fun x => { x.markTiles (shapeOf c.op).writes with mq := x.mq ++ [c] })).retire 2)

/-- A vector operation on tiles (R358) with its scalar operand, 0 where it has none; the record carries that operand's low word. -/
def State.vector (s : State) (i : Instr) (x : Word) : State :=
  s.withTiles i (fun s => s.queueVector { s.command i with x := x } x)

/-! ## Memory of an engine -/

/-- Reach every byte of a span, line by line, as the checks at issue do (R362): the targets with their lengths. -/
def State.withSpan (s : State) (k : Access) : (fuel va n : Nat) → List (Tgt × Nat) → (State → List (Tgt × Nat) → State) → State
  | 0, _, _, acc, f => f s acc
  | fuel + 1, va, n, acc, f =>
    if n = 0 then f s acc
    else
      let m := lineRest va n
      s.withTarget (va % 2 ^ 57) 1 k false (fun s t => State.withSpan s k fuel (va + m) (n - m) (acc ++ [(t, m)]) f)

/-- The bytes at a target as an engine of a core reads them, or none where the owner refuses (R103, R104, R145, R363), with the local memory and
the dirty bytes of L1 that `c` holds; the flag says that they are poisoned. -/
def State.engineReadAs (s : State) (c : Core) (core : CoreId) (t : Tgt) (n : Nat) : State × Option (List Byte × Bool) :=
  match t with
  | .self off => (s, some (leBytesOf n (c.localRead off n), c.localBad off n))
  | .core dst off =>
    let d := s.core dst
    if s.tenantNo dst = s.tenantNo core && s.tenantNo core < 16 && d.otherOpen off then
      (s, some (leBytesOf n (d.localRead off n), d.localBad off n))
    else (s, none)
  | .paged xl =>
    match s.ownerOf core with
    | none => (s, none)
    | some tn =>
      if s.peerDenies tn xl then (s, none)
      else
        let (s1, bs, bad) := s.readHome tn (dieOf core) xl n true
        (s1, some (c.overDirty xl.pa bs, bad || c.dirtyBad xl.pa n))

/-- The bytes at a target as an engine of a core reads them now. -/
def State.engineRead (s : State) (core : CoreId) (t : Tgt) (n : Nat) : State × Option (List Byte × Bool) := s.engineReadAs (s.core core) core t n

/-- Write bytes at a target as an engine of a core does (R104, R363), at once at their home; false where the owner refuses. -/
def State.engineWrite (s : State) (core : CoreId) (t : Tgt) (bytes : List Byte) (stream poison : Bool) : State × Bool :=
  match t with
  | .self off =>
    (s.onCore core (fun c =>
      let c1 := c.localWrite off bytes.length (leOf bytes)
      if poison then c1.poisonLocal off bytes.length else c1), true)
  | .core dst off =>
    if s.tenantNo dst = s.tenantNo core && s.tenantNo core < 16 && (s.core dst).otherOpen off then
      (s.onCore dst (fun c =>
        let c1 := c.localWrite off bytes.length (leOf bytes)
        if poison then c1.poisonLocal off bytes.length else c1), true)
    else (s, false)
  | .paged xl =>
    match s.ownerOf core with
    | none => (s, false)
    | some tn =>
      if s.peerDenies tn xl then (s, false)
      else
        let cells := cellsAt xl.pa bytes
        let s1 := s.performAll tn (dieOf core) xl cells poison
        (if stream then s1.onCore core (fun c => c.l1Update xl.pa cells) else s1, true)

/-- The scope of an engine's write (R131). -/
def State.tgtScope (s : State) (core : CoreId) (t : Tgt) : Option Scope :=
  match t with
  | .self _ => none
  | .core dst _ => some (scopeOf core dst)
  | .paged xl => some (s.scopeOfHome core xl false)

/-- The wider of two scopes that may be absent. -/
def widen : Option Scope → Option Scope → Option Scope
  | none, b => b
  | a, none => a
  | some a, some b => some (Scope.max a b)

/-- The local offset that an address of the issuing core's own memory names (R102). -/
def selfOff (me : CoreId) (va : Nat) : Option Nat :=
  if inWindow va then
    match windowTarget me va with
    | some (.self off) => some off
    | _ => none
  else none

/-- Whether every byte of a range is a self access open under R105; otherwise the first address that is not. -/
def Core.selfSpan (c : Core) (me : CoreId) : (fuel va n : Nat) → Option Nat
  | 0, _, _ => none
  | fuel + 1, va, n =>
    if n = 0 then none
    else match selfOff me (va % 2 ^ 57) with
      | none => some (va % 2 ^ 57)
      | some off => if c.selfOpen off false then Core.selfSpan c me fuel (va + lineRest va n) (n - lineRest va n) else some (va % 2 ^ 57)

/-- The first address of some spans that is no open self access. -/
def Core.selfBad (c : Core) (me : CoreId) : List (Nat × Nat) → Option Nat
  | [] => none
  | (va, n) :: r =>
    match c.selfSpan me (n / 64 + 2) va n with
    | some bad => some bad
    | none => Core.selfBad c me r

/-- A byte of the core's own memory by its window address. -/
def Core.selfByte (c : Core) (va : Nat) : Byte := BitVec.ofNat 8 (c.localRead (va % 2 ^ 15) 1)
/-- A little-endian number in the core's own memory by its window address. -/
def Core.selfNum (c : Core) (va n : Nat) : Nat := leOf ((List.range n).map (fun i => c.selfByte ((va + i) % 2 ^ 57)))
/-- Whether a range of the core's own memory is poisoned. -/
def Core.selfPoison (c : Core) (va n : Nat) : Bool :=
  (List.range (n / 8 + 2)).any (fun i => let o := Nat.min (8 * i) (n - 1); n ≠ 0 && c.localBad ((va + o) % 2 ^ 15) 1)

/-- The address of the scale byte of a code (R100). -/
def scaleVa (base org ptr : Word) (va : Nat) : Nat :=
  let b := fld ptr.toNat 57 3
  (base.toNat % 2 ^ 57 + (va + (2 ^ 57 - org.toNat % 2 ^ 57)) % 2 ^ 57 / 2 ^ (b + 4)) % 2 ^ 57

/-- The tables of a core (R188). -/
def Core.tables (c : Core) : Tables := { dtab := c.dtab, nanCode := c.nanCode, sat := c.sat, itab := c.itab }

/-- The core as a command that runs sees it, with the content of its local memory of one moment and the tables of its start (R145, R188). -/
def Core.seenBy (c : Core) (q : EngCmd) (m : Memory × List Nat) : Core :=
  let d : Core := { c with localMem := m.1, localPoison := m.2 }
  match q.tables with
  | some t => { d with dtab := t.dtab, nanCode := t.nanCode, sat := t.sat, itab := t.itab }
  | none => d

/-- The core as a command found it at its start (R145). -/
def EngCmd.atStart (q : EngCmd) (c : Core) : Core := c.seenBy q (q.seen.headD (c.localMem, c.localPoison))

/-- The core at the moment at which a matrix command reads its `n`-th element: some moment between its start and its end, which the
manual leaves open (R202; log entry 1). -/
def State.elemView (s : State) (core : CoreId) (k : CtxId) (q : EngCmd) (n : Nat) : Core :=
  let c := s.core core
  let now := (c.localMem, c.localPoison)
  match distinct (q.seen ++ [now]) with
  | [m] => c.seenBy q m
  | l =>
    let at_ := (Config.freeWord (2 ^ 100 + (s.tick * 2 ^ 20 + core.toNat) * 2 ^ 16 + k.toNat * 2 ^ 14 + n)).toNat
    c.seenBy q (l[at_ % l.length]?.getD now)

/-- The scale bytes of `n` codes from an address, each once (R100). -/
def scaleVas (base org ptr : Word) (va n : Nat) : List Nat := distinct ((List.range n).map (fun i => scaleVa base org ptr ((va + i) % 2 ^ 57)))

/-- The latch that a MAC command reads; none for every other command. -/
def macLatch : Instr → Option (BitVec 1)
  | .mma _ _ l _ _ => some l
  | .mmas _ _ _ l _ _ => some l
  | .mmai _ _ l _ _ => some l
  | _ => none

/-- Whether a command takes the load path of the matrix engine (R208). -/
def onLoadPath : Instr → Bool
  | .bld .. | .brot .. | .tblld .. | .ntblld .. => true
  | _ => false

end Sys2Proof.Machine
end

