-- ==== Sys2Proof/Machine/Vector.lean ====
section
/-! DEFINITION. The vector operations (R358 to R374) and the tile moves (R360): what a command does to the tiles when it runs, and
the meanings that issue it. -/
namespace Sys2Proof.Machine

/-! ## What a command computes -/

/-- What a command on tiles does: a tile it writes, the flags it raises and a mask it sets. -/
structure TileResult where
  tile : Option (BitVec 3 × Tile) := none
  flags : FFlags := 0#5
  mask : Option (BitVec 2 × BitVec 16) := none
  deriving DecidableEq, Repr

/-- A lane without flags. -/
def plain (w : Lane) : FOut := { v := w, f := 0#5 }

/-- Apply an operation to every computed lane of the named rows (R358); every source is read before anything is written. -/
def eachLane (d : BitVec 3) (old : Tile) (rows : List Nat) (mask : BitVec 16) (f : Nat → Nat → FOut) : TileResult :=
  { tile := some (d, Tile.of (fun r l => if rows.contains r && mask.getLsbD l then (f r l).v else old.at r l))
    flags := rows.foldl (fun a r => (List.range 16).foldl (fun a l => if mask.getLsbD l then a ||| (f r l).f else a) a) 0#5 }

/-- The condition of VCMP on two lanes and its flags (R368). -/
def vcmpLane (c : BitVec 3) (x y : Lane) : Bool × FFlags :=
  match c.toNat with
  | 0 => (fEqB x y, sigFlag [x, y])
  | 1 => (!fEqB x y, sigFlag [x, y])
  | 2 => (fLtB x y, nanFlag x y)
  | _ => (fLeB x y, nanFlag x y)

/-- VCMP (R368): one bit a lane, the AND over the rows of a whole tile. -/
def vcmpResult (x : Context) (a b : Tile) (rows : List Nat) (mask : BitVec 16) (k : BitVec 2) (c : BitVec 3) : TileResult :=
  let bit (l : Nat) : Bool := rows.all (fun r => (vcmpLane c (a.at r l) (b.at r l)).1)
  let old := x.mask k
  { mask := some (k, (List.range 16).foldl (fun m l =>
      if (if mask.getLsbD l then bit l else old.getLsbD l) then m ||| (1#16 <<< l) else m) 0#16)
    flags := rows.foldl (fun f r => (List.range 16).foldl (fun f l =>
      if mask.getLsbD l then f ||| (vcmpLane c (a.at r l) (b.at r l)).2 else f) f) 0#5 }

/-- A reduction into lane 0 of each named row (R372). -/
def reduceResult (d : BitVec 3) (old a : Tile) (rows : List Nat) (mask : BitVec 16) (unit : Lane) (op : Lane → Lane → FOut) : TileResult :=
  let red (r : Nat) : FOut := tree16 op ((List.range 16).map (fun l => if mask.getLsbD l then a.at r l else unit))
  { tile := some (d, Tile.of (fun r l => if rows.contains r && l = 0 then (red r).v else old.at r l))
    flags := rows.foldl (fun f r => f ||| (red r).f) 0#5 }

/-- VCVT (R369). -/
def vcvtLane (k : BitVec 2) (rm : BitVec 3) (x : Lane) : FOut :=
  match k.toNat with
  | 0 => let (n, f) := fToInt rm 32 x; { v := BitVec.ofInt 32 n, f := f }
  | 1 => intToF rm x.toInt
  | _ => { v := toF19 x, f := f19Flags x }

/-- The integer entry of a C4 code (R189). -/
def Core.c4 (c : Core) (code : Nat) : Int := (c.itab.toList[code % 16]?.getD 0#8).toInt

/-- VENC (R370). -/
def vencLane (c : Core) (f : BitVec 5) (x : Lane) : Lane :=
  match f.toNat with
  | 3 => BitVec.ofNat 32 (encodeC8 c.dtab c.nanCode c.sat x)
  | 5 => BitVec.ofNat 32 (encodeC4 c.itab x.toInt)
  | _ => BitVec.ofInt 32 (satI8 x.toInt)

/-- VDEC (R370). -/
def vdecLane (c : Core) (f : BitVec 5) (x : Lane) : Lane :=
  match f.toNat with
  | 3 => decodeC8 c.dtab c.nanCode (x.setWidth 8)
  | 5 => BitVec.ofInt 32 (c.c4 x.toNat)
  | _ => (x.setWidth 8 : BitVec 8).signExtend 32

/-- VLOGIC (R371). -/
def vlogicLane (o : BitVec 2) (x y : Lane) : Lane :=
  match o.toNat with | 0 => x &&& y | 1 => x ||| y | 2 => x ^^^ y | _ => x &&& ~~~y

/-- VSHIFT (R371). -/
def vshiftLane (o : BitVec 2) (x y : Lane) : Lane :=
  let n := y.toNat % 32
  match o.toNat with | 0 => x <<< n | 1 => x >>> n | 2 => x.sshiftRight n | _ => x.rotateRight n

/-- What a vector operation or tile move does when it runs (R358 to R374); none for the commands that reach memory. -/
def tileResult (c : Core) (x : Context) (q : EngCmd) : Option TileResult :=
  let t (n : BitVec 3) : Tile := x.tile n
  let two (d a b : BitVec 3) (r : BitVec 4) (f : Lane → Lane → FOut) : Option TileResult :=
    some (eachLane d (t d) (rowsOf r) q.mask (fun i l => f ((t a).at i l) ((t b).at i l)))
  let one (d a : BitVec 3) (r : BitVec 4) (f : Lane → FOut) : Option TileResult :=
    some (eachLane d (t d) (rowsOf r) q.mask (fun i l => f ((t a).at i l)))
  match q.op with
  | .vadd d a b r _ => two d a b r (fAdd q.frm)
  | .vsub d a b r _ => two d a b r (fSub q.frm)
  | .vmul d a b r _ => two d a b r (fMul q.frm)
  | .vfma d a b r _ =>
    some (eachLane d (t d) (rowsOf r) q.mask (fun i l => fFma q.frm ((t a).at i l) ((t b).at i l) ((t d).at i l)))
  | .vmin d a b r _ => two d a b r fMin
  | .vmax d a b r _ => two d a b r fMax
  | .vdiv d a b r _ => two d a b r (fDiv q.frm)
  | .vabs d a r _ => one d a r (fun v => plain (if isNan v then nan32 else v &&& 0x7FFFFFFF#32))
  | .vneg d a r _ => one d a r (fun v => plain (if isNan v then nan32 else fNeg v))
  | .vrsqrt d a r _ => one d a r (fRsqrt q.frm)
  | .vexp2 d a r _ => one d a r (fExp2 q.frm)
  | .vlog2 d a r _ => one d a r (fLog2 q.frm)
  | .vcmp a b r _ k cnd => some (vcmpResult x (t a) (t b) (rowsOf r) q.mask k cnd)
  | .vsel d a b r _ =>
    some (eachLane d (t d) (rowsOf r) 0xFFFF#16 (fun i l => plain (if q.mask.getLsbD l then (t a).at i l else (t b).at i l)))
  | .vredsum d a r _ => some (reduceResult d (t d) (t a) (rowsOf r) q.mask 0x80000000#32 (fAdd q.frm))
  | .vredmax d a r _ => some (reduceResult d (t d) (t a) (rowsOf r) q.mask 0xFF800000#32 fMax)
  | .vshuf d a b r _ =>
    some (eachLane d (t d) (rowsOf r) q.mask (fun i l => plain ((t a).at i (((t b).at i l).toNat % 16))))
  | .viadd d a b r _ => two d a b r (fun v w => plain (v + w))
  | .vimul d a b r _ => two d a b r (fun v w => plain (v * w))
  | .vlogic d a b r _ o => two d a b r (fun v w => plain (vlogicLane o v w))
  | .vshift d a b r _ o => two d a b r (fun v w => plain (vshiftLane o v w))
  | .vcvt d a r _ k => one d a r (vcvtLane k q.frm)
  | .venc d a r _ f => one d a r (fun v => plain (vencLane c f v))
  | .vdec d a r _ f => one d a r (fun v => plain (vdecLane c f v))
  | .tmov d a r _ => one d a r plain
  | .tzero d r => some (eachLane d (t d) (rowsOf r) 0xFFFF#16 (fun _ _ => plain 0#32))
  | .tbcast d r _ _ => some (eachLane d (t d) (rowsOf r) q.mask (fun _ _ => plain (q.x.setWidth 32)))
  | _ => none

/-! ## The meanings -/

/-- VADD (R366). -/
def execVadd (d a b : BitVec 3) (r : BitVec 4) (m : BitVec 2) (s : State) : Answer := .next (s.vector (.vadd d a b r m) 0#64)

/-- VSUB (R366). -/
def execVsub (d a b : BitVec 3) (r : BitVec 4) (m : BitVec 2) (s : State) : Answer := .next (s.vector (.vsub d a b r m) 0#64)

/-- VMUL (R366). -/
def execVmul (d a b : BitVec 3) (r : BitVec 4) (m : BitVec 2) (s : State) : Answer := .next (s.vector (.vmul d a b r m) 0#64)

/-- VFMA (R366). -/
def execVfma (d a b : BitVec 3) (r : BitVec 4) (m : BitVec 2) (s : State) : Answer := .next (s.vector (.vfma d a b r m) 0#64)

/-- VMIN (R366). -/
def execVmin (d a b : BitVec 3) (r : BitVec 4) (m : BitVec 2) (s : State) : Answer := .next (s.vector (.vmin d a b r m) 0#64)

/-- VMAX (R366). -/
def execVmax (d a b : BitVec 3) (r : BitVec 4) (m : BitVec 2) (s : State) : Answer := .next (s.vector (.vmax d a b r m) 0#64)

/-- VABS (R365). -/
def execVabs (d a : BitVec 3) (r : BitVec 4) (m : BitVec 2) (s : State) : Answer := .next (s.vector (.vabs d a r m) 0#64)

/-- VNEG (R365). -/
def execVneg (d a : BitVec 3) (r : BitVec 4) (m : BitVec 2) (s : State) : Answer := .next (s.vector (.vneg d a r m) 0#64)

/-- VDIV (R366). -/
def execVdiv (d a b : BitVec 3) (r : BitVec 4) (m : BitVec 2) (s : State) : Answer := .next (s.vector (.vdiv d a b r m) 0#64)

/-- VRSQRT (R197, R365). -/
def execVrsqrt (d a : BitVec 3) (r : BitVec 4) (m : BitVec 2) (s : State) : Answer := .next (s.vector (.vrsqrt d a r m) 0#64)

/-- VEXP2 (R197, R365). -/
def execVexp2 (d a : BitVec 3) (r : BitVec 4) (m : BitVec 2) (s : State) : Answer := .next (s.vector (.vexp2 d a r m) 0#64)

/-- VLOG2 (R197, R365). -/
def execVlog2 (d a : BitVec 3) (r : BitVec 4) (m : BitVec 2) (s : State) : Answer := .next (s.vector (.vlog2 d a r m) 0#64)

/-- VCMP (R359, R368). -/
def execVcmp (a b : BitVec 3) (r : BitVec 4) (m k : BitVec 2) (c : BitVec 3) (s : State) : Answer := .next (s.vector (.vcmp a b r m k c) 0#64)

/-- VSEL (R373). -/
def execVsel (d a b : BitVec 3) (r : BitVec 4) (sel : BitVec 2) (s : State) : Answer := .next (s.vector (.vsel d a b r sel) 0#64)

/-- VREDSUM (R199, R372). -/
def execVredsum (d a : BitVec 3) (r : BitVec 4) (m : BitVec 2) (s : State) : Answer := .next (s.vector (.vredsum d a r m) 0#64)

/-- VREDMAX (R199, R372). -/
def execVredmax (d a : BitVec 3) (r : BitVec 4) (m : BitVec 2) (s : State) : Answer := .next (s.vector (.vredmax d a r m) 0#64)

/-- VSHUF (R374). -/
def execVshuf (d a b : BitVec 3) (r : BitVec 4) (m : BitVec 2) (s : State) : Answer := .next (s.vector (.vshuf d a b r m) 0#64)

/-- VIADD (R371). -/
def execViadd (d a b : BitVec 3) (r : BitVec 4) (m : BitVec 2) (s : State) : Answer := .next (s.vector (.viadd d a b r m) 0#64)

/-- VIMUL (R371). -/
def execVimul (d a b : BitVec 3) (r : BitVec 4) (m : BitVec 2) (s : State) : Answer := .next (s.vector (.vimul d a b r m) 0#64)

/-- VLOGIC (R371). -/
def execVlogic (d a b : BitVec 3) (r : BitVec 4) (m o : BitVec 2) (s : State) : Answer := .next (s.vector (.vlogic d a b r m o) 0#64)

/-- VSHIFT (R371). -/
def execVshift (d a b : BitVec 3) (r : BitVec 4) (m o : BitVec 2) (s : State) : Answer := .next (s.vector (.vshift d a b r m o) 0#64)

/-- VCVT (R369). -/
def execVcvt (d a : BitVec 3) (r : BitVec 4) (m k : BitVec 2) (s : State) : Answer := .next (s.vector (.vcvt d a r m k) 0#64)

/-- VENC (R370). -/
def execVenc (d a : BitVec 3) (r : BitVec 4) (m : BitVec 2) (f : BitVec 5) (s : State) : Answer := .next (s.vector (.venc d a r m f) 0#64)

/-- VDEC (R370). -/
def execVdec (d a : BitVec 3) (r : BitVec 4) (m : BitVec 2) (f : BitVec 5) (s : State) : Answer := .next (s.vector (.vdec d a r m f) 0#64)

/-- TMOV (R360). -/
def execTmov (d a : BitVec 3) (r : BitVec 4) (m : BitVec 2) (s : State) : Answer := .next (s.vector (.tmov d a r m) 0#64)

/-- TZERO (R360). -/
def execTzero (d : BitVec 3) (r : BitVec 4) (s : State) : Answer := .next (s.vector (.tzero d r) 0#64)

/-- TBCAST (R360): the register is read at issue. -/
def execTbcast (d : BitVec 3) (r : BitVec 4) (m : BitVec 2) (v : BitVec 5) (s : State) : Answer :=
  .next (s.vector (.tbcast d r m v) (s.cx.rg v))

/-- TEXT (R360): it issues once no earlier command writes its tile, and does not enter the queue. -/
def execText (a : BitVec 3) (r : BitVec 4) (v : BitVec 5) (s : State) : Answer :=
  .next (s.withDest v (fun s => s.withTiles (.text a r v) (fun s =>
    if s.cx.readsPoison (.text a r v) then s.faultOut (poisonTrap 0#64)
    else s.withEngineLog (.text a r v) 0#64 (fun s => s.finish v (((s.cx.tile a).at r.toNat 0).setWidth 64) 1))))

end Sys2Proof.Machine
end

