-- ==== Sys2Proof/Machine/TileMem.lean ====
section
/-! DEFINITION. TLD and TST (R67, R192, R362, R363): the checks at issue, and what the commands do when they run. -/
namespace Sys2Proof.Machine

/-! ## Issue -/

/-- The bytes of one tile row in memory (R192, R362). -/
def rowBytes (f : Nat) : Nat := match f with | 3 | 4 | 6 => 16 | 5 => 8 | _ => 64

/-- The window address of a local offset of a core (R102). -/
def windowVa (c : CoreId) (off : Nat) : Nat :=
  0x1FF * 2 ^ 48 + dieOf c * 2 ^ 38 + xOf c * 2 ^ 33 + yOf c * 2 ^ 28 + numOf c * 2 ^ 23 + off

/-- The address of the current slot of a pipe end (R67): the consumer's memory holds it. -/
def PipeEnd.slotVa (p : PipeEnd) : Nat :=
  let off := p.base + p.pos * 2 ^ p.lsz
  if p.producer then windowVa p.far off else (selfWindow off).toNat

/-- Reach the scale bytes of a C8S span, one after another, with the access of the span (R100, R362). -/
def State.withScales (s : State) (k : Access) : List Nat → List (Nat × Tgt) → (State → List (Nat × Tgt) → State) → State
  | [], acc, f => f s acc
  | va :: r, acc, f => s.withTarget va 1 k false (fun s t => State.withScales s k r (acc ++ [(va, t)]) f)

/-- The checks of a tile transfer once its base and format are known, and its queueing (R362). DESIGN CHOICE: FORMAT has no faulting
address, so FAULTADDR is 0 (R99 names none; log entry 90). -/
def State.tileMem (s : State) (i : Instr) (store : Bool) (r : BitVec 4) (base : Nat) (ptr : Word) (f : Nat) (inSlot : Bool)
    (a : Word) : State :=
  let n := rowBytes f * (if r = 15#4 then 8 else 1)
  let k : Access := if store then .write else .read
  s.withLimit i (fun s =>
  if 8 ≤ f then s.trapPlain .format
  else s.withTiles i (fun s =>
    if base % 8 ≠ 0 || !inSlot then s.trap (faultAt .align base k 0#3)
    else s.withSpan k 10 base n [] (fun s ch =>
      let q : EngCmd := { s.command i with x := BitVec.ofNat 64 base, y := ptr, fmt := f, chunks := ch, order := s.orderNow }
      if f = 4 then
        s.withScales k (scaleVas s.cx.scaleBase s.cx.scaleOrg ptr base n) [] (fun s sc => s.queueVector { q with scales := sc } a)
      else s.queueVector q a)))

/-- A transfer at g[a] + 16 imm (R362). -/
def State.tileAt (s : State) (i : Instr) (store : Bool) (r : BitVec 4) (a : BitVec 5) (imm : BitVec 10) (c : BitVec 3) : State :=
  let p := s.cx.rg a
  s.tileMem i store r (addrOf p (imm.signExtend 64 <<< 4)) p (if c = 1#3 then fld p.toNat 60 4 else 0) true p

/-- A transfer in a pipe's slot (R67, R362). -/
def State.tileInSlot (s : State) (i : Instr) (store : Bool) (r : BitVec 4) (q : BitVec 3) (imm : BitVec 10) : State :=
  match s.pipeEnd? q with
  | none => s.trapPlain .illegal
  | some p =>
    let slot := p.slotVa
    let base := addrOf (BitVec.ofNat 64 slot) (imm.signExtend 64 <<< 4)
    let n := 64 * (if r = 15#4 then 8 else 1)
    s.tileMem i store r base 0#64 0 (slot ≤ base && base + n ≤ slot + 2 ^ p.lsz) 0#64

/-- TLD (R362). -/
def execTld (t : BitVec 3) (r : BitVec 4) (a : BitVec 5) (i : BitVec 10) (c : BitVec 3) (s : State) : Answer :=
  .next (s.tileAt (.tld t r a i c) false r a i c)

/-- TLD in a pipe's slot (R67, R362). -/
def execTldPipe (t : BitVec 3) (r : BitVec 4) (q : BitVec 3) (i : BitVec 10) (s : State) : Answer :=
  .next (s.tileInSlot (.tldPipe t r q i) false r q i)

/-- TST (R362). -/
def execTst (t : BitVec 3) (r : BitVec 4) (a : BitVec 5) (i : BitVec 10) (c : BitVec 3) (s : State) : Answer :=
  .next (s.tileAt (.tst t r a i c) true r a i c)

/-- TST in a pipe's slot (R67, R362). -/
def execTstPipe (t : BitVec 3) (r : BitVec 4) (q : BitVec 3) (i : BitVec 10) (s : State) : Answer :=
  .next (s.tileInSlot (.tstPipe t r q i) true r q i)

/-! ## What a transfer does when it runs -/

/-- How an engine command ends: its state, the flags, a tile result, and why it is faulted. -/
inductive CmdEnd where
  | done (s : State) (r : TileResult)
  | poison (s : State) (addr : Word)
  | refused (s : State) (addr : Word) (sc : Scope)

/-- Read some targets of a command at its start, one after another (R145, R363). -/
def State.readAll (s : State) (core : CoreId) : List (Tgt × Nat) → State × List (Option (List Byte × Bool))
  | [] => (s, [])
  | (t, n) :: r =>
    let (s1, x) := s.engineRead core t n
    let (s2, l) := State.readAll s1 core r
    (s2, x :: l)

/-- What the spans of a command gave, from an address on: the bytes, the first poisoned address, and the first that was refused. -/
def inputBytes : Nat → List (Tgt × Nat) → List (Option (List Byte × Bool)) → List Byte × Option Nat × Option (Nat × Tgt)
  | va, (t, n) :: r, x :: l =>
    match x with
    | none => ([], none, some (va, t))
    | some (bs, bad) =>
      let (rest, p, z) := inputBytes (va + n) r l
      (bs ++ rest, if bad then some va else p, z)
  | _, _, _ => ([], none, none)

/-- What the scale bytes gave: each with its address, the first poisoned address, and the first that was refused (R100). -/
def inputScales : List (Nat × Tgt) → List (Option (List Byte × Bool)) → List (Nat × Int) × Option Nat × Option (Nat × Tgt)
  | (va, t) :: r, x :: l =>
    match x with
    | none => ([], none, some (va, t))
    | some (bs, bad) =>
      let (rest, p, z) := inputScales r l
      ((va, (bs.headD 0#8).toInt) :: rest, if bad then some va else p, z)
  | _, _ => ([], none, none)

/-- The scale of a code (R100). -/
def scaleOf (q : EngCmd) (l : List (Nat × Int)) (va : Nat) : Int := (assoc? (scaleVa q.scaleBase q.scaleOrg q.y va) l).getD 0

/-- A little-endian 32-bit element of a byte list. -/
def word32 (bs : List Byte) (i : Nat) : Lane := BitVec.ofNat 32 (leOf ((bs.drop i).take 4))

/-- The lane that TLD loads from the bytes of its row (R192). -/
def tldLane (c : Core) (f : Nat) (row : List Byte) (scale : Nat → Int) (l : Nat) : Lane :=
  let b (i : Nat) : Byte := row[i]?.getD 0#8
  match f with
  | 2 => toF19 (word32 row (4 * l))
  | 3 => decodeC8 c.dtab c.nanCode (b l)
  | 4 => scaleF19 (scale l) (decodeC8 c.dtab c.nanCode (b l))
  | 5 => BitVec.ofInt 32 (c.c4 ((b (l / 2)).toNat / 16 ^ (l % 2)))
  | 6 => (b l).signExtend 32
  | _ => word32 row (4 * l)

/-- The code or container that TST stores for a lane, with the flags of an F19 store (R100, R192). -/
def tstCode (c : Core) (f : Nat) (scale : Int) (v : Lane) : Nat × FFlags :=
  match f with
  | 2 => ((toF19 v).toNat, f19Flags v)
  | 3 => (encodeC8 c.dtab c.nanCode c.sat v, 0#5)
  | 4 => (encodeC8 c.dtab c.nanCode c.sat (if isNan v then v else scaleF32 (-scale) v), 0#5)
  | 5 => (encodeC4 c.itab v.toInt, 0#5)
  | 6 => ((BitVec.ofInt 8 (satI8 v.toInt)).toNat, 0#5)
  | _ => (v.toNat, 0#5)

/-- The bytes of one row that TST stores (R192). -/
def tstRow (c : Core) (f : Nat) (scale : Nat → Int) (row : Nat → Lane) : List Byte :=
  let code (l : Nat) : Nat := (tstCode c f (scale l) (row l)).1
  match f with
  | 3 | 4 | 6 => (List.range 16).map (fun l => BitVec.ofNat 8 (code l))
  | 5 => (List.range 8).map (fun i => BitVec.ofNat 8 (code (2 * i) + 16 * code (2 * i + 1)))
  | _ => (List.range 16).flatMap (fun l => leBytesOf 4 (code l))

/-- A refusal of what a command reads (R100, R363). -/
def State.inputRefused (s : State) (core : CoreId) (z : Nat × Tgt) : CmdEnd :=
  .refused s (BitVec.ofNat 64 z.1) ((s.tgtScope core z.2).getD 0#2)

/-- The end of a TLD from what it read at its start (R192, R363). -/
def State.runTld (s : State) (core : CoreId) (k : CtxId) (q : EngCmd) (t : BitVec 3) (r : BitVec 4) : CmdEnd :=
  let base := q.x.toNat
  let rb := rowBytes q.fmt
  match inputBytes base q.chunks q.input, inputScales q.scales (q.input.drop q.chunks.length) with
  | (_, _, some z), _ | (_, none, none), (_, _, some z) => s.inputRefused core z
  | (_, some va, none), _ | (_, none, none), (_, some va, none) => .poison s (BitVec.ofNat 64 va)
  | (bs, none, none), (sc, none, none) =>
    let c := q.atStart (s.core core)
    let rows := rowsOf r
    let first := rows.headD 0
    let row (i : Nat) : List Byte := (bs.drop (rb * (i - first))).take rb
    let scale (i l : Nat) : Int := scaleOf q sc ((base + rb * (i - first) + l) % 2 ^ 57)
    let old := ((s.core core).ctx k).tile t
    .done s { tile := some (t, Tile.of (fun i l => if rows.contains i then tldLane c q.fmt (row i) (scale i) l else old.at i l)) }

/-- The bytes that a TST stores, with the flags of its conversions (R192). -/
def tstBytes (c : Core) (q : EngCmd) (tile : Tile) (r : BitVec 4) (sc : List (Nat × Int)) : List Byte × FFlags :=
  let rows := rowsOf r
  let scale (i l : Nat) : Int := scaleOf q sc ((q.x.toNat + rowBytes q.fmt * (i - rows.headD 0) + l) % 2 ^ 57)
  (rows.flatMap (fun i => tstRow c q.fmt (scale i) (tile.at i)),
   rows.foldl (fun f i => (List.range 16).foldl (fun f l => f ||| (tstCode c q.fmt (scale i l) (tile.at i l)).2) f) 0#5)

/-- Send the doublewords of a TST that leave the core, each as one counted write: window stores and streaming stores (R134, R363). -/
def State.sendTst (s : State) (r : Req) : Nat → List (Tgt × Nat) → List Byte → State
  | _, [], _ => s
  | va, (t, n) :: rest, bs =>
    let dword (i : Nat) : List Byte := (bs.drop (8 * i)).take 8
    let s1 := match t with
      | .self _ => s
      | .core dst off => (List.range (n / 8)).foldl (fun s i =>
          (s.countWrite r (scopeOf r.core dst)).sendWindow r dst (off + 8 * i) (va + 8 * i) (.store 8 (BitVec.ofNat 64 (leOf (dword i))))) s
      | .paged xl => (List.range (n / 8)).foldl (fun s i =>
          s.sendWrite r { xl with pa := xl.pa + 8 * i } (va + 8 * i) (cellsAt (xl.pa + 8 * i) (dword i)) false none) s
    State.sendTst s1 r (va + n) rest (bs.drop n)

/-- Write the doublewords of a TST that stay in the core's own memory, and update its L1 copies in place (R108, R363). -/
def Core.keepTst (c : Core) : List (Tgt × Nat) → List Byte → Core
  | [], _ => c
  | (t, n) :: rest, bs =>
    Core.keepTst (match t with
      | .self off => c.localWrite off n (leOf (bs.take n))
      | .core _ _ => c
      | .paged xl => c.l1Update xl.pa (cellsAt xl.pa (bs.take n))) rest (bs.drop n)

/-- The request under which a command of a context writes: the context's, or the background's once its activation has ended (R134). -/
def State.cmdReq (s : State) (core : CoreId) (k : CtxId) (q : EngCmd) : Req :=
  { core := core, ctx := k, serial := q.serial, bg := (s.ctxAt core k).act.serial ≠ q.serial, pri := q.pri }

/-- The start of a transfer (R145, R363): a TLD reads its spans, a C8S transfer its scale bytes, and a TST sends what leaves the core. -/
def State.startTransfer (s : State) (core : CoreId) (k : CtxId) (q : EngCmd) : State × EngCmd :=
  let scaleTgts := q.scales.map (fun p => (p.2, 1))
  let stores (t : BitVec 3) (r : BitVec 4) : State × EngCmd :=
    let (s1, l) := s.readAll core scaleTgts
    match inputScales q.scales l with
    | (sc, none, none) =>
      let x := s1.ctxAt core k
      let tile : Tile := (q.kept.getD x.t)[t.toNat]
      let s2 := s1.sendTst (s1.cmdReq core k q) q.x.toNat q.chunks
        (tstBytes (q.atStart (s1.core core)) q tile r sc).1
      (s2, { q with input := l, sent := (List.range (s2.nextPkt - s1.nextPkt)).map (fun i => s1.nextPkt + i) })
    | _ => (s1, { q with input := l })
  match q.op with
  | .tld .. | .tldPipe .. => let (s1, l) := s.readAll core (q.chunks ++ scaleTgts); (s1, { q with input := l })
  | .tst t r _ _ _ => if (s.ctxAt core k).current q && (s.ctxAt core k).readsPoison q.op then (s, q) else stores t r
  | .tstPipe t r _ _ => if (s.ctxAt core k).current q && (s.ctxAt core k).readsPoison q.op then (s, q) else stores t r
  | _ => (s, q)

/-- The end of a TST, whose writes are performed (R192, R363). -/
def State.runTst (s : State) (core : CoreId) (k : CtxId) (q : EngCmd) (t : BitVec 3) (r : BitVec 4) : CmdEnd :=
  match inputScales q.scales q.input with
  | (_, _, some z) => s.inputRefused core z
  | (_, some va, none) => .poison s (BitVec.ofNat 64 va)
  | (sc, none, none) =>
    let (bytes, flags) := tstBytes (q.atStart (s.core core)) q ((s.ctxAt core k).tile t) r sc
    .done (s.onCore core (fun c => c.keepTst q.chunks bytes)) { flags := flags }

end Sys2Proof.Machine
end

