-- ==== Sys2Proof/Machine/Copy.lean ====
section
/-! DEFINITION. The copy engine: CPY, CPYS and CPYG at issue (R310, R311), and what a copy command does when it runs, with its
hand-back point and the descriptor of its remainder (R104, R145, R173 to R175, R236, R312, R382). -/
namespace Sys2Proof.Machine

/-! ## Issue -/

/-- The checks of a notice value (R311): reserved bits, then the core. -/
def State.withNotice (s : State) (n : BitVec 5) (nf : BitVec 1) (f : State → State) : State :=
  let v := s.cx.rg n
  if nf = 0#1 then (if n = 0#5 then f s else s.trapPlain .illegal)
  else if v.toNat / 2 ^ 52 ≠ 0 || fld v.toNat 5 27 ≠ 0 then s.trapPlain .illegal
  else if (s.ownerOf (coreIn v)).map (·.id) ≠ some (s.tenantNo s.meId) then s.trapPlain .window
  else f s

/-- The notice of a copy command, if it has one. -/
def CopyCmd.noticed (q : CopyCmd) : Bool :=
  match q.op with
  | .cpy _ _ _ nf _ => nf = 1#1
  | .cpys _ _ _ nf _ _ => nf = 1#1
  | .cpyg _ _ _ nf _ _ => nf = 1#1
  | _ => false

/-- Queue a copy command with the registers it captures (R310): a full queue stalls without timeout (R70). -/
def State.queueCopy (s : State) (i : Instr) (n a b : BitVec 5) (nf : BitVec 1) (pair : Bool) : State :=
  let x := s.cx
  if 2 ≤ x.cq.length then s.await .engineQueue false x.op.phase
  else s.withEngineLog i (x.rg a) (fun s =>
    let q : CopyCmd :=
      { op := i, serial := x.act.serial, handler := x.act.handler, user := !x.sup, src := x.rg a, dst := x.rg b
        notice := if nf = 1#1 then x.rg n else 0#64
        sa := if pair then x.rg (a + 1#5) else 0#64, sb := if pair then x.rg (b + 1#5) else 0#64 }
    (s.onCx (fun y => { y with cq := y.cq ++ [q] })).retire 2)

/-- CPY (R310, R311). -/
def execCpy (n a b : BitVec 5) (nf : BitVec 1) (len : BitVec 32) (s : State) : Answer :=
  .next (s.withNotice n nf (fun s => s.queueCopy (.cpy n a b nf len) n a b nf false))

/-- CPYS (R310, R311). -/
def execCpys (n a b : BitVec 5) (nf : BitVec 1) (rows bytes : BitVec 16) (s : State) : Answer :=
  .next (s.withNotice n nf (fun s => s.queueCopy (.cpys n a b nf rows bytes) n a b nf true))

/-- CPYG (R310, R311): ILLEGAL, then ALIGN for the index list, then WINDOW for the notice. -/
def execCpyg (n a b : BitVec 5) (nf : BitVec 1) (lg : BitVec 4) (count : BitVec 28) (s : State) : Answer :=
  let v := s.cx.rg n
  let list := s.cx.rg (a + 1#5)
  .next (
    if 6 < lg.toNat || (nf = 0#1 && n ≠ 0#5) || (nf = 1#1 && (v.toNat / 2 ^ 52 ≠ 0 || fld v.toNat 5 27 ≠ 0)) then s.trapPlain .illegal
    else if list.toNat % 4 ≠ 0 then s.trap (faultAt .align (addrOf list 0#64) .read 0#3)
    else s.withNotice n nf (fun s => s.queueCopy (.cpyg n a b nf lg count) n a b nf true))

/-! ## Reaching memory -/

/-- What an address of a copy command reaches, translated as its core would (R103 to R105, R156, R160), or the fault. -/
def State.copyReach (s : State) (core : CoreId) (user : Bool) (va : Nat) (k : Access) : State × Except TrapInfo Tgt :=
  let c := s.core core
  let tn := s.tenantNo core
  let refused : Except TrapInfo Tgt := .error (faultAt .window va k 0#3)
  if inWindow va then
    match windowTarget core va with
    | none => (s, refused)
    | some (.self off) => (s, if c.selfOpen off false then .ok (.self off) else refused)
    | some (.core d off) => (s, if s.tenantNo d = tn && tn < 16 && (s.core d).otherOpen off then .ok (.core d off) else refused)
    | some t => (s, .ok t)
  else
    let found (s : State) (e : PageEntry) : State × Except TrapInfo Tgt :=
      (s.onCore core (fun c => (c.putSteer e).putVat e.vat),
       if (s.tenant tn).any (fun t => s.peerDenies t (e.xl va)) then refused else .ok (.paged (e.xl va)))
    match (c.steer? tn va).filter (fun e => k ≠ .write || e.d), s.tenant tn with
    | some e, some t =>
      match leafFault t e va k user with
      | some f => (s, .error (faultAt f va k e.level))
      | none => found s e
    | _, _ =>
      match s.xlateNow tn (dieOf core) va k user with
      | (s1, .leaf e) => found s1 e
      | (s1, .fault f l) => (s1, .error (faultAt f va k l))
      | (s1, .poison l) => (s1, .error (faultAt .uncorrectable va k l))
      | (s1, .nothing) => (s1, .error (faultAt .pageNp va k 5#3))

/-- How a part of a copy ends: whole, at a poisoned page-table entry, or at a fault with the bytes performed before it. -/
inductive CopyPart where
  | whole (s : State)
  | poison (s : State)
  | fault (s : State) (performed : Nat) (i : TrapInfo)

/-- The fault of a part: a poisoned page-table entry stops the command as poisoned data does (R382). -/
def copyFault (s : State) (performed : Nat) (i : TrapInfo) : CopyPart :=
  if i.cause = .uncorrectable then .poison s else .fault s performed i

/-- The submitting activation has had a copy command that read poison (R236). -/
def State.copyPoison (s : State) (core : CoreId) (k : CtxId) (q : CopyCmd) : State :=
  s.onCtx core k (fun x => if x.act.serial = q.serial then { x with act := { x.act with poisoned := true } } else x)

/-- Change the first copy command of a list that its engine still has to run. -/
def onNextCopy (f : CopyCmd → CopyCmd) : List CopyCmd → List CopyCmd
  | [] => []
  | q :: r => if q.handed then q :: onNextCopy f r else f q :: r

/-- A write of the copy command that the engine executes for a context widens the scope of its writes (R315). -/
def State.copyScope (s : State) (core : CoreId) (k : CtxId) (t : Tgt) : State :=
  let sc := s.tgtScope core t
  s.onCtx core k (fun x => { x with cq := onNextCopy (fun q => { q with scope := widen q.scope sc }) x.cq })

/-- What a core holds for the engines as a command starts (R145). -/
def Core.copySeen (c : Core) : CopySeen := { mem := c.localMem, bad := c.localPoison, lines := c.l1.filter (fun l => l.dirty ≠ 0#64) }

/-- A core as a copy command found it when it started (R145). -/
def CopyCmd.atStart (q : CopyCmd) (c : Core) : Core :=
  q.seen.elim c (fun x => { c with localMem := x.mem, localPoison := x.bad, l1 := x.lines })

/-- Bytes as the copy engine reads them (R145, R312): each as it stood before the command wrote it, with local memory and the dirty bytes of
L1 as the command found them at its start, or as it stands now, where the command or a later store has changed it. A byte that was dirty
at the start is not read older than it was then. -/
def State.eitherRead (s before : State) (core : CoreId) (q : CopyCmd) (t : Tgt) (va n : Nat) : State × List Byte × Bool :=
  let c := s.core core
  let then_ := q.atStart c
  let old := ((before.engineReadAs then_ core t n).2).getD ([], false)
  let (s1, now) := match t with
    | .paged xl =>
      let (s1, r) := s.engineReadAs then_ core t n
      (s1, r.map (fun (x : List Byte × Bool) => (c.overDirty xl.pa x.1, x.2 || c.dirtyBad xl.pa n)))
    | _ => s.engineReadAs c core t n
  let new := now.getD ([], false)
  let first (i : Nat) : Bool := Config.copyBefore s.tick (va + i)
  (s1, (List.range n).map (fun i => if first i then old.1[i]?.getD 0#8 else new.1[i]?.getD 0#8),
   (List.range n).any (fun i => old.2 && first i || new.2 && !first i))

/-- Copy bytes that lie within one line of the source and of the destination (R310). -/
def State.copyChunk (s before : State) (core : CoreId) (k : CtxId) (q : CopyCmd) (bad : Bool) (src dst m performed : Nat) : CopyPart :=
  match s.copyReach core q.user src .read with
  | (s1, .error i) => copyFault s1 performed i
  | (s1, .ok from_) =>
    let (s2, bytes, poisoned) := s1.eitherRead before core q from_ src m
    match s2.copyReach core q.user dst .write with
    | (s3, .error i) => copyFault s3 performed i
    | (s3, .ok tgt) =>
      let p := bad || poisoned
      let s4 := (s3.engineWrite core tgt bytes false p).1.copyScope core k tgt
      .whole (if p then s4.copyPoison core k q else s4)

/-- Copy consecutive bytes, at most to the next line boundary of source or destination at a time (R310), upward or downward. -/
def State.copySpan (s before : State) (core : CoreId) (k : CtxId) (q : CopyCmd) (bad down : Bool) :
    (fuel src dst n performed : Nat) → CopyPart
  | 0, _, _, _, _ => .whole s
  | fuel + 1, src, dst, n, performed =>
    if n = 0 then .whole s
    else
      let m := Nat.min (lineRest src n) (lineRest dst n)
      let rest (s : State) : CopyPart :=
        State.copySpan s before core k q bad down fuel ((src + m) % 2 ^ 57) ((dst + m) % 2 ^ 57) (n - m) (performed + m)
      if down then
        match rest s with
        | .whole s1 => s1.copyChunk before core k q bad src dst m performed
        | e => e
      else
        match s.copyChunk before core k q bad src dst m performed with
        | .whole s1 => rest s1
        | e => e

/-- An address of a copy command. -/
def copyVa (w : Word) : Nat := w.toNat % 2 ^ 57

/-- How a copy command ends: whole, stopped by poison, or at a fault with its remainder (R175). -/
inductive CopyRun where
  | whole (s : State)
  | poison (s : State)
  | fault (s : State) (rest : CopyCmd) (i : TrapInfo)

/-- The bytes that a copy command still has to write (R310). -/
def CopyCmd.size (q : CopyCmd) : Nat :=
  match q.op with
  | .cpy _ _ _ _ len => len.toNat
  | .cpys _ _ _ _ rows bytes => rows.toNat * bytes.toNat - q.done
  | .cpyg _ _ _ _ lg count => count.toNat * 2 ^ lg.toNat
  | _ => 0

/-- What is left of a copy command once `p` bytes more are performed (R177); for a CPYG `p` is a whole number of elements. -/
def CopyCmd.advance (q : CopyCmd) (p : Nat) : CopyCmd :=
  match q.op with
  | .cpy n a b nf len =>
    { q with op := .cpy n a b nf (BitVec.ofNat 32 (len.toNat - p)), src := q.src + BitVec.ofNat 64 p, dst := q.dst + BitVec.ofNat 64 p }
  | .cpys n a b nf rows bytes =>
    let r := (q.done + p) / bytes.toNat
    { q with op := .cpys n a b nf (BitVec.ofNat 16 (rows.toNat - r)) bytes, done := (q.done + p) % bytes.toNat
             src := q.src + BitVec.ofNat 64 r * q.sa, dst := q.dst + BitVec.ofNat 64 r * q.sb }
  | .cpyg n a b nf lg count =>
    let r := p / 2 ^ lg.toNat
    { q with op := .cpyg n a b nf lg (BitVec.ofNat 28 (count.toNat - r)), sa := q.sa + BitVec.ofNat 64 (4 * r)
             dst := q.dst + BitVec.ofNat 64 p }
  | _ => q

/-- The first `m` bytes of the first row of a CPYS of which `left` rows remain (R310, R175). -/
def State.runRow (s before : State) (core : CoreId) (k : CtxId) (down : Bool) (bytes left : Nat) (q : CopyCmd) (m : Nat) : CopyRun :=
  match s.copySpan before core k q false down (bytes + 1) (copyVa (q.src + BitVec.ofNat 64 q.done)) (copyVa (q.dst + BitVec.ofNat 64 q.done)) m 0 with
  | .whole s1 => .whole s1
  | .poison s1 => .poison s1
  | .fault s1 _ i =>
    match q.op with
    | .cpys n a b nf _ w => .fault s1 { q with op := .cpys n a b nf (BitVec.ofNat 16 left) w, done := 0 } i
    | _ => .fault s1 q i

/-- The rows of a CPYS (R310, R175): `left` rows remain, and at most `lim` bytes of them are written. -/
def State.runRows (s before : State) (core : CoreId) (k : CtxId) (down : Bool) (bytes : Nat) : (left : Nat) → CopyCmd → (lim : Nat) → CopyRun
  | 0, _, _ => .whole s
  | left + 1, q, lim =>
    let m := Nat.min (bytes - q.done) lim
    let rest (s : State) : CopyRun :=
      State.runRows s before core k down bytes left { q with src := q.src + q.sa, dst := q.dst + q.sb, done := 0 } (lim - m)
    if down then
      match rest s with
      | .whole s1 => s1.runRow before core k down bytes (left + 1) q m
      | e => e
    else
      match s.runRow before core k down bytes (left + 1) q m with
      | .whole s1 => rest s1
      | e => e

/-- The next element of a CPYG (R310, R175), copied from the place that its index names. -/
def State.runElem (s before : State) (core : CoreId) (k : CtxId) (down : Bool) (lg : Nat) (q : CopyCmd) : CopyRun :=
  let e := 2 ^ lg
  match s.copyReach core q.user (copyVa q.sa) .read with
  | (s1, .error i) => if i.cause = .uncorrectable then .poison s1 else .fault s1 q i
  | (s1, .ok t) =>
    let (s2, bytes, bad) := s1.eitherRead before core q t (copyVa q.sa) 4
    let s3 := if bad then s2.copyPoison core k q else s2
    match s3.copySpan before core k q bad down (e + 1) (copyVa (q.src + BitVec.ofNat 64 (leOf bytes * e))) (copyVa q.dst) e 0 with
    | .whole s4 => .whole s4
    | .poison s4 => .poison s4
    | .fault s4 _ i => .fault s4 q i

/-- The next elements of a CPYG (R310, R175). -/
def State.runElems (s before : State) (core : CoreId) (k : CtxId) (down : Bool) (lg : Nat) : Nat → CopyCmd → CopyRun
  | 0, _ => .whole s
  | left + 1, q =>
    let rest (s : State) : CopyRun := State.runElems s before core k down lg left (q.advance (2 ^ lg))
    if down then
      match rest s with
      | .whole s1 => s1.runElem before core k down lg q
      | e => e
    else
      match s.runElem before core k down lg q with
      | .whole s1 => rest s1
      | e => e

/-- Run the first `lim` bytes of a copy command, or all of it, upward or downward (R310). -/
def State.runCopyBy (s : State) (core : CoreId) (k : CtxId) (down : Bool) (q : CopyCmd) (lim : Nat) : CopyRun :=
  match q.op with
  | .cpy _ _ _ _ len =>
    match s.copySpan s core k q false down (len.toNat + 1) (copyVa q.src) (copyVa q.dst) (Nat.min len.toNat lim) 0 with
    | .whole s1 => .whole s1
    | .poison s1 => .poison s1
    | .fault s1 p i => .fault s1 (q.advance (p / 64 * 64)) i
  | .cpys _ _ _ _ rows bytes => s.runRows s core k down bytes.toNat rows.toNat q lim
  | .cpyg _ _ _ _ lg count => s.runElems s core k down lg.toNat (Nat.min count.toNat (lim / 2 ^ lg.toNat)) q
  | _ => .whole s

/-- Run a copy command (R310, R312). Where its source and its destination overlap, a source byte may be read after the command has written it:
which way the command goes is open (log entry 6), but one that meets a fault goes upward, so that its remainder is what R175 says. -/
def State.runCopy (s : State) (core : CoreId) (k : CtxId) (q : CopyCmd) (lim : Nat) : CopyRun :=
  match s.runCopyBy core k false q lim with
  | .whole s1 =>
    if Config.copyBefore s.tick (2 ^ 58) then .whole s1
    else match s.runCopyBy core k true q lim with
      | .whole s2 => .whole s2
      | _ => .whole s1
  | e => e

/-! ## The end of a copy -/

/-- The descriptor of a remainder (R174). -/
def CopyCmd.descriptor (q : CopyCmd) (i : TrapInfo) : List Word :=
  let strided := match q.op with | .cpys .. => true | _ => false
  let paired := match q.op with | .cpy .. => false | _ => true
  [ BitVec.ofNat 64 ((word0 q.op).toNat + 2 ^ 32 * (word1 q.op).toNat), q.src, q.dst, q.notice,
    if paired then q.sa else 0#64, if strided then q.sb else 0#64,
    i.addr, BitVec.ofNat 64 (causeCode i.cause + (if i.write then 256 else 0)) ]

/-- How far the engine has come with a command that is stopped while it runs: a multiple of 64 bytes, which the manual leaves
open (R177, R312; log entry 1). -/
def State.progress (s : State) (core : CoreId) (k : CtxId) (q : CopyCmd) : Nat :=
  (Config.freeWord (s.tick * 64 + core.toNat * 4 + k.toNat)).toNat % (q.size / 64 + 1) * 64

/-- The first copy command of a context that its engine still has to run. -/
def Context.nextCopy (x : Context) : Option CopyCmd := x.cq.find? (fun q => !q.handed)

/-- The context whose next command the copy engine starts now (R208, R312): it executes one command at a time, in turn among contexts. -/
def Core.nextCopyTurn (c : Core) : Option CtxId :=
  if allCtx.any (fun k => (c.ctx k).cq.any (·.started)) then none
  else [c.cTurn + 1#2, c.cTurn + 2#2, c.cTurn + 3#2, c.cTurn].find? (fun k => (c.ctx k).nextCopy.isSome)

/-- Start the first command that the engine still has to run, with what it finds in its core (R145). -/
def startCopyIn (seen : CopySeen) : List CopyCmd → List CopyCmd
  | [] => []
  | q :: r => if q.handed then q :: startCopyIn seen r else { q with started := true, seen := some seen } :: r

/-- The copy engine starts a command, if it can (R208, R312); while its member is saved it starts none (R177). -/
def State.startCopy (s : State) (core : CoreId) : State :=
  if s.savingAt core then s
  else match (s.core core).nextCopyTurn with
    | none => s
    | some k => s.onCore core (fun c => { c.setCtx k { c.ctx k with cq := startCopyIn c.copySeen (c.ctx k).cq } with cTurn := k })

/-- The copy engine with a command of a context started, where it is that context's turn. -/
def State.copyTurn (s : State) (core : CoreId) (k : CtxId) : State := if (s.core core).nextCopyTurn = some k then s.startCopy core else s

/-- Put what is left of the command that has run in the place of itself, with the scope of the writes that it has performed (R315), or take it out. -/
def replaceCopy (new : Option CopyCmd) : List CopyCmd → List CopyCmd
  | [] => []
  | q :: r => if q.handed then q :: replaceCopy new r else (match new with | some p => { p with scope := q.scope } :: r | none => r)

/-- The engine is done with the first command it still had: what waited for the copy queue is tested again. -/
def State.copyEnds (s : State) (core : CoreId) (k : CtxId) (new : Option CopyCmd) : State :=
  (s.onCtx core k (fun x => { x with cq := replaceCopy new x.cq })).wake core
    (fun w => match w with | .engineQueue | .engines | .copyReads => true | _ => false)

/-- A copy command of a context has completed: the scope of its writes joins those that an EWAIT of its activation acquires at (R315). -/
def State.copyCompletes (s : State) (core : CoreId) (k : CtxId) (q : CopyCmd) : State :=
  let sc := (s.ctxAt core k).nextCopy.bind (·.scope)
  (s.onCtx core k (fun x => if x.act.serial = q.serial then { x with cScope := widen x.cScope sc } else x)).copyEnds core k none

/-- A reservation of a pipe under advance-on-completion is answered by the notice that names it (R66, R380). -/
def Core.noticeSent (c : Core) (v : Word) : Core :=
  let paid (p : PipeEnd) : PipeEnd :=
    if p.producer && p.mode = 1 && p.far = coreIn v && fld v.toNat 0 5 = (28 + p.index) % 32 then { p with reserved := p.reserved - 1 } else p
  { c with pipes := c.pipes.map (fun p => p.map paid) }

/-- Send a completed command's notice (R310, R311). DESIGN CHOICE: it has priority class 0 (R95 is silent; log entry 104). -/
def State.giveNotice (s : State) (core : CoreId) (q : CopyCmd) : State :=
  if q.noticed then
    (s.onCore core (fun c => c.noticeSent q.notice)).sendPacket 2#2 0#2
      (.notice (coreIn q.notice) core ((s.core core).gang.getD 0) q.notice)
  else s

/-- A command that a kill has cancelled ends where its engine has come (R312). -/
def State.endCancelled (s : State) (core : CoreId) (k : CtxId) (q : CopyCmd) : State :=
  match s.runCopy core k q (s.progress core k q) with
  | .whole s1 | .poison s1 | .fault s1 _ _ => s.attempt (fun _ => s1.copyEnds core k none)

/-- End every cancelled command of the module (R312); a step does so before its turn. -/
def State.endKilledCopies (s : State) : State :=
  (s.allCores.flatMap (fun p => allCtx.map (fun k => (p.1, k)))).foldl (fun s p =>
    match (s.ctxAt p.1 p.2).nextCopy.filter (·.cancelled) with
    | some q => s.endCancelled p.1 p.2 q
    | none => s) s

/-- A save suspends the command that the engine executes for a context at a 64-byte boundary of its progress; what is left of it
restarts after the restore (R177, R283). -/
def State.suspendCopy (s : State) (core : CoreId) (k : CtxId) : State :=
  s.attempt (fun s => match (s.ctxAt core k).nextCopy.filter (·.started) with
  | none => s
  | some q =>
    let p := s.progress core k q
    match s.runCopy core k q p with
    | .whole s1 => s1.copyEnds core k (some { q.advance p with started := false, seen := none })
    | .poison s1 => (s1.copyPoison core k q).copyEnds core k none
    | .fault s1 rest _ => s1.copyEnds core k (some { rest with started := false, seen := none }))

/-- COPY_COMMAND_DONE (R310): the next command of a context has performed its writes and gives its notice, or poison has stopped
it (R382). A command that meets a fault is handed back instead, and a cancelled one gives no notice (R312). -/
def execCopyCommandDone (core : CoreId) (k : CtxId) (s : State) : Answer :=
  .next ((s.copyTurn core k).attempt (fun s => match (if s.savingAt core then none else (s.ctxAt core k).nextCopy.filter (·.started)) with
    | none => s
    | some q =>
      if q.cancelled then s.endCancelled core k q
      else match s.runCopy core k q q.size with
      | .whole s1 => (s1.copyCompletes core k q).giveNotice core q
      | .poison s1 => (s1.copyPoison core k q).copyCompletes core k q
      | .fault .. => s))

/-- The default action of a hand-back (R49): an ENGINE_FAULT record, and the submitting activation ends. DESIGN CHOICE: where that
activation has already ended, the record names its handler and context and holds 0 as its PC (R49 is silent; log entry 88). -/
def State.engineFault (s : State) (core : CoreId) (k : CtxId) (q : CopyCmd) (i : TrapInfo) : State :=
  let e : TrapInfo := { i with cause := .engineFault, level := 0#3 }
  let x := s.ctxAt core k
  if x.act.serial = q.serial then
    let s1 := s.logTrap core k (causeCode .engineFault) x.pc
    (s1.onCtx core k (fun x => { x with faultCause := e.word, faultAddr := i.addr, faultPc := x.pc })).trapEnd core k
  else s.reportTo (s.tenantNo core)
    { cause := .engineFault, flags := recordFlags e.word, core := core, low8 := BitVec.ofNat 32 (q.handler.toNat * 256 + k.toNat)
      w10 := 0#64, w18 := i.addr }

/-- COPY_HANDBACK (R173): the command stops at its hand-back point, and handler 253 is queued with the remainder. -/
def execCopyHandback (core : CoreId) (k : CtxId) (s : State) : Answer :=
  .next ((s.copyTurn core k).attempt (fun s => match (if s.savingAt core then none else (s.ctxAt core k).nextCopy.filter (·.started)) with
    | none => s
    | some q =>
      match (if q.cancelled then .whole s else s.runCopy core k q q.size) with
      | .fault s1 rest i =>
        if ((s1.core core).entry? 253#8).isSome then
          (s1.copyEnds core k (if (s1.core core).dropTasks then none else some { rest with handed := true, started := false, seen := none })).onCore core (fun c =>
            c.offer { index := 253#8, g3 := BitVec.ofNat 64 k.toNat, desc := rest.descriptor i, copyCtx := some k })
        else (s1.copyEnds core k none).engineFault core k q i
      | _ => s))

end Sys2Proof.Machine
end

