-- ==== Sys2Proof/Machine/Gauss.lean ====
section
/-! DEFINITION. The Gaussian instructions GACC, GELIM, GDAMP, GPACK and GUNPK (R209 to R217): the checks at issue, the marginal
of GELIM, and what the queued commands do when they run. -/
namespace Sys2Proof.Machine

/-! ## Messages and joints -/

/-- The position of Λ[i][j] in the triangle of a message (R209). -/
def tri (d i j : Nat) : Nat := i * d - i * (i - 1) / 2 + (j - i)

/-- The dimension that word 0 of a message gives (R209). -/
def gaussDim (w : Word) : Nat := fld w.toNat 16 4

/-- The bytes of a message of d dimensions in the pail layout (R209): whole doublewords. -/
def gaussBytes (d : Nat) : Nat := 8 * ((2 + d + d * (d + 1) / 2 + 1) / 2)

/-- A lane of a joint row in the tile pair that starts at `t` (R210). -/
def Context.joint (x : Context) (t : BitVec 3) (i j : Nat) : Lane :=
  (x.tile (if i < 8 then t else pairTile t)).at (i % 8) j

/-- A 32-bit word of a message at an address of the core's own memory. -/
def Core.gaussWord (c : Core) (p i : Nat) : Lane := BitVec.ofNat 32 (c.selfNum (p + 4 * i) 4)

/-- Replace one joint lane. -/
def jset (f : Nat → Nat → Lane) (a b : Nat) (v : Lane) : Nat → Nat → Lane := fun i j => if i = a && j = b then v else f i j

/-- All the pairs i ≤ j below d, row by row. -/
def upper (d : Nat) : List (Nat × Nat) := (List.range d).flatMap (fun i => (List.range (d - i)).map (fun k => (i, i + k)))

/-! ## Issue -/

/-- Go on for a message at g[a] (R211): ALIGN, WINDOW for its first doubleword, the checks of its dimension, then WINDOW for the
rest; `k` is the access. DESIGN CHOICE: ALIGN comes first for GPACK too, although its extent is known, also at a malformed window address (R211 names
the order of GACC and GUNPK only; log entry 122). -/
def State.withMessage (s : State) (a : BitVec 5) (k : Access) (dim : State → Nat) (ok : Nat → Bool) (f : State → Nat → Nat → State) : State :=
  let p := addrOf (s.cx.rg a) 0#64
  if p % 8 ≠ 0 then s.trap (faultAt .align p k 0#3)
  else match s.me.selfBad s.meId [(p, 8)] with
    | some va => s.trap (faultAt .window va k 0#3)
    | none =>
      let d := dim s
      if d = 0 || 6 < d || !ok d then s.trapPlain .illegal
      else match s.me.selfBad s.meId [(p, gaussBytes d)] with
        | some va => s.trap (faultAt .window va k 0#3)
        | none => f s p d

/-- The dimension in a message's own word 0, which poison makes an uncorrectable error (R236). -/
def State.withRead (s : State) (a : BitVec 5) (f : State → State) : State :=
  let p := addrOf (s.cx.rg a) 0#64
  if p % 8 = 0 && (s.me.selfBad s.meId [(p, 8)]).isNone && s.me.selfPoison p 4 then s.faultOut (poisonTrap (BitVec.ofNat 64 p)) else f s

/-- The dimension that a message's word 0 holds in memory. -/
def State.dimAt (s : State) (a : BitVec 5) : Nat := fld (s.me.selfNum (addrOf (s.cx.rg a) 0#64) 4) 16 4

/-- GACC (R212). -/
def execGacc (d : BitVec 3) (r : BitVec 4) (a : BitVec 5) (s : State) : Answer :=
  let i : Instr := .gacc d r a
  .next (
    if d.toNat % 2 = 1 || 11 < r.toNat then s.trapPlain .illegal
    else s.withTiles i (fun s => s.withRead a (fun s =>
      s.withMessage a .read (fun s => s.dimAt a) (fun n => r.toNat + n ≤ 12) (fun s p n =>
        s.queueVector { s.command i with x := BitVec.ofNat 64 p, fmt := n } (s.cx.rg a)))))

/-- GUNPK (R216). -/
def execGunpk (d : BitVec 3) (r : BitVec 4) (a : BitVec 5) (s : State) : Answer :=
  let i : Instr := .gunpk d r a
  .next (
    if 7 < r.toNat then s.trapPlain .illegal
    else s.withTiles i (fun s => s.withRead a (fun s =>
      s.withMessage a .read (fun s => s.dimAt a) (fun n => r.toNat + n ≤ 8) (fun s p n =>
        s.queueVector { s.command i with x := BitVec.ofNat 64 p, fmt := n } (s.cx.rg a)))))

/-- GPACK (R211, R216): the header comes from the register after the address, and its dimension is checked before the address. DESIGN CHOICE: its
ILLEGAL checks come before ACC_ORPHAN for its source tile (the manual gives no order; log entry 123). -/
def execGpack (d : BitVec 3) (r : BitVec 4) (a : BitVec 5) (s : State) : Answer :=
  let i : Instr := .gpack d r a
  let h := s.cx.rg (a + 1#5)
  let n := gaussDim h
  .next (
    if 7 < r.toNat || a = 31#5 || n = 0 || 6 < n || 8 < r.toNat + n then s.trapPlain .illegal
    else s.withTiles i (fun s =>
      s.withMessage a .write (fun _ => n) (fun _ => true) (fun s p n =>
        s.queueVector { s.command i with x := BitVec.ofNat 64 p, y := h, fmt := n } (s.cx.rg a))))

/-- GDAMP (R215): β is read at issue. -/
def execGdamp (d t : BitVec 3) (r : BitVec 4) (m : BitVec 2) (a : BitVec 5) (s : State) : Answer :=
  let i : Instr := .gdamp d t r m a
  .next (
    if 7 < r.toNat && r ≠ 15#4 then s.trapPlain .illegal
    else s.withTiles i (fun s => s.queueVector { s.command i with x := s.cx.rg a } (s.cx.rg a)))

/-! ## GELIM -/

/-- The upper triangle of a joint as lam and eta read it (R213). -/
def lam (J : Nat → Nat → Lane) (x y : Nat) : Lane := J (Nat.min x y) (Nat.max x y)

/-- A fused accumulation over the columns before `n` (R213). -/
def fmaChain (l r : Nat → Lane) (t : Lane) (n : Nat) : FOut :=
  (List.range n).foldl (fun acc p => let o := fFma 0#3 (fNeg (l p)) (r p) acc.v; { v := o.v, f := acc.f ||| o.f }) { v := t }

/-- A matrix as rows built one after another. -/
abbrev Rows := List (List Lane)
/-- An element of it. -/
def Rows.at (m : Rows) (i j : Nat) : Lane := ((m[i]?).bind (fun r => r[j]?)).getD 0#32

/-- One column of the Cholesky factor (R213): its lanes from the diagonal down, the flags, or none where the pivot is not greater
than τ (R214). `L i p` names the columns before. -/
def cholColumn (S : Nat → Nat → Lane) (L : Nat → Nat → Lane) (tau : Lane) (m j : Nat) : Option (List Lane × FFlags) :=
  let s := fmaChain (L j) (L j) (S j j) j
  if !fLtB tau s.v then none
  else
    let r := fSqrt 0#3 s.v
    let rest := (List.range (m - j - 1)).map (fun q =>
      let i := j + 1 + q
      let t := fmaChain (L i) (L j) (S i j) j
      let o := fDiv 0#3 t.v r.v
      (o.v, t.f ||| o.f))
    some (r.v :: rest.map (·.1), rest.foldl (fun f x => f ||| x.2) (s.f ||| r.f))

/-- The Cholesky factor, column by column (R213): the columns, or the number of the failing pivot. -/
def cholesky (S : Nat → Nat → Lane) (tau : Lane) (m : Nat) : Nat → Rows → FFlags → Except Nat (Rows × FFlags)
  | 0, cols, f => .ok (cols, f)
  | n + 1, cols, f =>
    let j := m - (n + 1)
    match cholColumn S (fun i p => cols.at p (i - p)) tau m j with
    | none => .error j
    | some (c, g) => cholesky S tau m n (cols ++ [c]) (f ||| g)

/-- One column of Y = L⁻¹ [Λba | ηb] (R213), from row `j` on. -/
def solveColumn (L : Nat → Nat → Lane) (rhs : Nat → Lane) (m : Nat) : Nat → List Lane → FFlags → List Lane × FFlags
  | 0, y, f => (y, f)
  | n + 1, y, f =>
    let j := m - (n + 1)
    let t := fmaChain (L j) (fun p => y[p]?.getD 0#32) (rhs j) j
    let o := fDiv 0#3 t.v (L j j)
    solveColumn L rhs m n (y ++ [o.v]) (f ||| t.f ||| o.f)

/-- The result of GELIM (R213): out[r][c] for c from r to k, where c = k is η, with the flags; or the failing dimension. -/
def gelim (J : Nat → Nat → Lane) (D o k : Nat) : Except Nat ((Nat → Nat → Lane) × FFlags) :=
  let b := (List.range D).filter (fun x => x < o || o + k ≤ x)
  let bx (j : Nat) : Nat := b[j]?.getD 0
  let m := b.length
  let S (i j : Nat) : Lane := lam J (bx i) (bx j)
  let top := match b with
    | [] => ({ v := 0#32 } : FOut)
    | x :: r => r.foldl (fun acc y => let q := fMax acc.v (lam J y y); { v := q.v, f := acc.f ||| q.f }) { v := lam J x x }
  let tau := fMul 0#3 0x35800000#32 top.v
  match cholesky S tau.v m m [] (if m = 0 then 0#5 else tau.f) with
  | .error j => .error (bx j)
  | .ok (cols, f) =>
    let L (i j : Nat) : Lane := cols.at j (i - j)
    let rhs (c j : Nat) : Lane := if c < k then lam J (bx j) (o + c) else J (bx j) 12
    let ys := (List.range (k + 1)).map (fun c => solveColumn L (rhs c) m m [] 0#5)
    let Y (j c : Nat) : Lane := ((ys[c]?).bind (fun y => y.1[j]?)).getD 0#32
    let out (r c : Nat) : FOut :=
      fmaChain (fun j => Y j r) (fun j => Y j c) (if c < k then lam J (o + r) (o + c) else J (o + r) 12) m
    let flags := (List.range k).foldl (fun g r => (List.range (k + 1 - r)).foldl (fun g q => g ||| (out r (r + q)).f) g)
      (ys.foldl (fun g y => g ||| y.2) f)
    .ok (fun r c => (out r c).v, flags)

/-- Write a message of dimension k in tile form from row `row` on (R210). -/
def tileForm (old : Tile) (row k : Nat) (l : Nat → Nat → Lane) (eta : Nat → Lane) : Tile :=
  Tile.of (fun r c =>
    if row ≤ r && r < row + k then
      (if c < k then l (Nat.min (r - row) c) (Nat.max (r - row) c) else if c = 12 then eta (r - row) else 0#32)
    else old.at r c)

/-- GELIM (R213, R214): it issues once the context's vector commands are done, and completes or traps at once. DESIGN CHOICE: the ILLEGAL checks of
its parameter word come before ACC_ORPHAN for its source pair (the manual gives no order; log entry 123). -/
def execGelim (d t : BitVec 3) (r : BitVec 4) (a : BitVec 5) (s : State) : Answer :=
  let i : Instr := .gelim d t r a
  let P := (s.cx.rg a).toNat
  let D := fld P 0 4
  let o := fld P 4 4
  let k := fld P 8 4
  .next (
    if d.toNat % 2 = 1 || 7 < r.toNat then s.trapPlain .illegal
    else if P / 2 ^ 12 ≠ 0 || 12 < D || k = 0 || 6 < k || D < o + k || 8 < r.toNat + k || t = d || t = pairTile d then s.trapPlain .illegal
    else s.withTiles i (fun s =>
      if !s.cx.vq.isEmpty then s.await .scoreboard false s.cx.op.phase
      else if s.cx.readsPoison i then s.faultOut (poisonTrap 0#64)
      else match gelim (s.cx.joint d) D o k with
        | .error b => s.trap { cause := .singular, addr := BitVec.ofNat 64 (b * 256 + d.toNat) }
        | .ok (out, f) =>
          s.withEngineLog i (s.cx.rg a) (fun s =>
            (s.onCx (fun x =>
              (x.setT t (tileForm (x.tile t) r.toNat k out (fun r => out r k))).orFlags f)).retire 1)))

/-! ## What a queued command does when it runs -/

/-- The joint after a message has been added at offset o (R212). -/
def gaccJoint (J : Nat → Nat → Lane) (c : Core) (p d o : Nat) : (Nat → Nat → Lane) × FFlags :=
  let eta (i : Nat) : FOut := fAdd 0#3 (J (o + i) 12) (c.gaussWord p (2 + i))
  let cell (i j : Nat) : FOut := fAdd 0#3 (J (o + i) (o + j)) (c.gaussWord p (2 + d + tri d i j))
  (fun r l =>
     if o ≤ r && r < o + d then
       (if l = 12 then (eta (r - o)).v
        else if o ≤ l && l < o + d then (cell (Nat.min r l - o) (Nat.max r l - o)).v else J r l)
     else J r l,
   (upper d).foldl (fun f x => f ||| (cell x.1 x.2).f) ((List.range d).foldl (fun f i => f ||| (eta i).f) 0#5))

/-- The words of a packed message (R216). -/
def gpackWords (t : Tile) (row d : Nat) (h : Word) : List Lane :=
  let w := h.setWidth 32 :: (h >>> 32).setWidth 32 :: ((List.range d).map (fun i => t.at (row + i) 12)
    ++ (upper d).map (fun x => t.at (row + x.1) x.2))
  if w.length % 2 = 1 then w ++ [0#32] else w

/-- The lanes of GDAMP (R215). -/
def gdampLane (beta old new : Lane) : FOut :=
  let w := fSub 0#3 0x3F800000#32 beta
  let m := fMul 0#3 w.v new
  let r := fFma 0#3 beta old m.v
  { v := r.v, f := w.f ||| m.f ||| r.f }

/-- The result of a queued Gaussian command: the tiles it writes, its flags, and the bytes it stores. -/
structure GaussEnd where
  tiles : List (BitVec 3 × Tile) := []
  flags : FFlags := 0#5
  bytes : List Byte := []

/-- Run a queued Gaussian command, or the poisoned address that it reads (R212, R215, R216, R236). -/
def runGauss (c : Core) (x : Context) (q : EngCmd) : Except Nat GaussEnd :=
  let p := q.x.toNat
  let d := q.fmt
  match q.op with
  | .gacc t r _ =>
    if c.selfPoison p (gaussBytes d) then .error p
    else
      let (J, f) := gaccJoint (x.joint t) c p d r.toNat
      let lo := Tile.of J
      let hi := Tile.of (fun i l => if i < 4 then J (8 + i) l else (x.tile (pairTile t)).at i l)
      .ok { tiles := [(t, lo), (pairTile t, hi)], flags := f }
  | .gunpk t r _ =>
    if c.selfPoison p (gaussBytes d) then .error p
    else .ok { tiles := [(t, tileForm (x.tile t) r.toNat d (fun i j => c.gaussWord p (2 + d + tri d i j)) (fun i => c.gaussWord p (2 + i)))] }
  | .gpack t r _ => .ok { bytes := (gpackWords (x.tile t) r.toNat d q.y).flatMap (fun w => leBytesOf 4 w.toNat) }
  | .gdamp t n r _ _ =>
    let out := eachLane t (x.tile t) (rowsOf r) q.mask (fun i l => gdampLane (q.x.setWidth 32) ((x.tile t).at i l) ((x.tile n).at i l))
    .ok { tiles := out.tile.toList, flags := out.flags }
  | _ => .ok {}

end Sys2Proof.Machine
end

