-- ==== Sys2Proof/Machine/Matrix.lean ====
section
/-! DEFINITION. The matrix instructions MMA, MMAS, MMAI, BLD, BROT, TBLLD and NTBLLD (R188, R201 to R207, R300 to R304, R342, R344,
R361): the checks at issue, and what the commands do when they run. -/
namespace Sys2Proof.Machine

/-! ## Elements -/

/-- The matrix instructions that read A. -/
inductive MacFn where
  | mma | mmas | mmai
  deriving DecidableEq, Repr

/-- Whether a format is FORMAT for a matrix instruction (R201). -/
def macFormatBad (fn : MacFn) (f : Nat) : Bool :=
  match fn with
  | .mmai => !(f = 0 || f = 5 || f = 6)
  | _ => 7 ≤ f

/-- The bytes of one element of A, with C4 counted as 1 (R342). -/
def macAlign (fn : MacFn) (f : Nat) : Nat :=
  match fn, f with
  | .mmai, _ => 1
  | _, 0 | _, 1 | _, 2 => 4
  | _, _ => 1

/-- The bytes of one row of A (R342). -/
def macRow (fn : MacFn) (f : Nat) : Nat :=
  match fn with
  | .mmai => if f = 5 then 16 else 32
  | .mma => if f ≤ 2 then 128 else if f = 5 then 16 else 32
  | .mmas => if f ≤ 2 then 64 else if f = 5 then 8 else 16

/-- An F19 element of a row in local memory, and its scale byte in the memory of another moment (R201, R202). -/
def Core.macElem (c scales : Core) (q : EngCmd) (row j : Nat) : Lane :=
  let byte (i : Nat) : Byte := c.selfByte ((row + i) % 2 ^ 57)
  match q.fmt with
  | 0 | 1 | 2 => toF19 (BitVec.ofNat 32 (c.selfNum (row + 4 * j) 4))
  | 3 => decodeC8 c.dtab c.nanCode (byte j)
  | 4 =>
    let sv := scaleVa q.scaleBase q.scaleOrg q.y ((row + j) % 2 ^ 57)
    scaleF19 (scales.selfByte sv).toInt (decodeC8 c.dtab c.nanCode (byte j))
  | 5 => (intToF 0#3 (c.c4 ((byte (j / 2)).toNat / 16 ^ (j % 2)))).v
  | _ => (intToF 0#3 (byte j).toInt).v

/-- An int8 element of a row in local memory (R201). -/
def Core.macInt (c : Core) (q : EngCmd) (row j : Nat) : Int :=
  if q.fmt = 5 then c.c4 ((c.selfByte ((row + j / 2) % 2 ^ 57)).toNat / 16 ^ (j % 2))
  else (c.selfByte ((row + j) % 2 ^ 57)).toInt

/-- A B element as int8 (R205). -/
def latchInt (w : Lane) : Int := if isNan w then 0 else satI8 (fToInt 1#3 64 w).1

/-- A latch of the core. -/
def Core.latch (c : Core) (l : BitVec 1) : Latch := if l = 0#1 then c.latch0 else c.latch1
/-- Replace a latch. -/
def Core.setLatch (c : Core) (l : BitVec 1) (v : Latch) : Core := if l = 0#1 then { c with latch0 := v } else { c with latch1 := v }
/-- Mark a latch as poisoned or clean (R234). -/
def Core.latchMark (c : Core) (l : BitVec 1) (bad : Bool) : Core :=
  let bit : BitVec 2 := 1#2 <<< l.toNat
  { c with latchPoison := if bad then c.latchPoison ||| bit else c.latchPoison &&& ~~~bit }
/-- An element of a latch. -/
def Latch.at (b : Latch) (k j : Nat) : Lane := ((b.toList[k]?).bind (fun w => w.toList[j]?)).getD 0#32

/-- The expanded row of MMAS (R204): each stored element at its position, the second of a group over the first. -/
def expandRow (mw : Nat) (stored : Nat → Lane) (k : Nat) : Lane :=
  let g := k / 4
  let p := k % 4
  if fld mw (4 * g + 2) 2 = p then stored (2 * g + 1)
  else if fld mw (4 * g) 2 = p then stored (2 * g)
  else 0#32

/-- One element of MMA: eight groups of four (R203). -/
def macDot (acc : Lane) (a : Nat → Lane) (b : Nat → Lane) : Lane :=
  (List.range 8).foldl (fun acc g => groupSum acc ((List.range 4).map (fun q => product (a (4 * g + q)) (b (4 * g + q))))) acc

/-! ## Issue -/

/-- The rows that a command reads, as spans of addresses. -/
def rowSpans (x stride n len : Nat) : List (Nat × Nat) := (List.range n).map (fun i => ((x + i * stride) % 2 ^ 57, len))

/-- The scale bytes of some rows as spans (R100). -/
def State.rowScales (s : State) (ptr : Word) (rows : List (Nat × Nat)) : List (Nat × Nat) :=
  (distinct (rows.flatMap (fun r => scaleVas s.cx.scaleBase s.cx.scaleOrg ptr r.1 r.2))).map (fun v => (v, 1))

/-- Go on if every byte of some spans is an open self access; otherwise WINDOW at the first that is not (R201). -/
def State.withSelf (s : State) (spans : List (Nat × Nat)) (f : State → State) : State :=
  match s.me.selfBad s.meId spans with
  | some va => s.trap (faultAt .window va .read 0#3)
  | none => f s

/-- The issue of a MAC command (R342). -/
def State.macIssue (s : State) (i : Instr) (fn : MacFn) (a b : BitVec 5) (stride : BitVec 16) : State :=
  let p := s.cx.rg a
  let f := fld p.toNat 60 4
  let x := addrOf p 0#64
  let m := s.cx.rg b
  let rows := rowSpans x stride.toNat 8 (macRow fn f)
  let extra : List (Nat × Nat) := if fn = .mmas then [(addrOf m 0#64, 32)] else []
  if stride.toNat % 4 ≠ 0 then s.trapPlain .illegal
  else s.withLimit i (fun s =>
  if macFormatBad fn f then s.trapPlain .format
  else s.withTiles i (fun s =>
    if x % macAlign fn f ≠ 0 then s.trap (faultAt .align x .read 0#3)
    else if fn = .mmas && m.toNat % 4 ≠ 0 then s.trap (faultAt .align (addrOf m 0#64) .read 0#3)
    else s.withSelf (rows ++ extra ++ (if f = 4 then s.rowScales p rows else [])) (fun s =>
      s.queueMatrix { s.command i with x := m, y := p, fmt := f } p)))

/-- MMA (R203, R342). -/
def execMma (t : BitVec 3) (a : BitVec 5) (l z : BitVec 1) (stride : BitVec 16) (s : State) : Answer :=
  .next (s.macIssue (.mma t a l z stride) .mma a 0#5 stride)

/-- MMAS (R204, R342). -/
def execMmas (t : BitVec 3) (a b : BitVec 5) (l z : BitVec 1) (stride : BitVec 16) (s : State) : Answer :=
  .next (s.macIssue (.mmas t a b l z stride) .mmas a b stride)

/-- MMAI (R205, R342). -/
def execMmai (t : BitVec 3) (a : BitVec 5) (l z : BitVec 1) (stride : BitVec 16) (s : State) : Answer :=
  .next (s.macIssue (.mmai t a l z stride) .mmai a 0#5 stride)

/-- The bytes of one B element, C4 counted as 1, and of one B row (R300). -/
def bldElem (f : Nat) : Nat := if f ≤ 2 then 4 else 1
/-- The bytes of one B row (R300). -/
def bldRow (f : Nat) : Nat := if f ≤ 2 then 64 else if f = 5 then 8 else 16

/-- BLD (R300). -/
def execBld (a : BitVec 5) (l : BitVec 1) (stride : BitVec 16) (s : State) : Answer :=
  let i : Instr := .bld a l stride
  let p := s.cx.rg a
  let f := fld p.toNat 60 4
  let x := addrOf p 0#64
  let rows := rowSpans x stride.toNat 32 (bldRow f)
  .next (
    if 7 ≤ f then s.trapPlain .format
    else if x % bldElem f ≠ 0 || stride.toNat % bldElem f ≠ 0 then s.trap (faultAt .align x .read 0#3)
    else s.withSelf (rows ++ (if f = 4 then s.rowScales p rows else [])) (fun s =>
      s.queueMatrix { s.command i with y := p, fmt := f } p))

/-- BROT (R303): the ring successor is read at issue. -/
def execBrot (l nf : BitVec 1) (c : BitVec 5) (s : State) : Answer :=
  .next (
    if s.me.ringNext = 0#64 || (nf = 0#1 && c ≠ 0#5) then s.trapPlain .illegal
    else s.queueMatrix { s.command (.brot l nf c) with x := s.me.ringNext } 0#64)

/-- TBLLD (R361). -/
def execTblld (a : BitVec 5) (sat : BitVec 1) (nan : BitVec 8) (s : State) : Answer :=
  let x := addrOf (s.cx.rg a) 0#64
  .next (
    if x % 64 ≠ 0 then s.trap (faultAt .align x .read 0#3)
    else s.withSelf [(x, 1024)] (fun s => s.queueMatrix { s.command (.tblld a sat nan) with x := BitVec.ofNat 64 x } (s.cx.rg a)))

/-- NTBLLD (R344). -/
def execNtblld (a : BitVec 5) (s : State) : Answer :=
  let x := addrOf (s.cx.rg a) 0#64
  .next (
    if x % 64 ≠ 0 then s.trap (faultAt .align x .read 0#3)
    else s.withSelf [(x, 16)] (fun s => s.queueMatrix { s.command (.ntblld a) with x := BitVec.ofNat 64 x } (s.cx.rg a)))

/-! ## What a matrix command does when it runs -/

/-- The first poisoned address among some spans of the core's own memory (R236). -/
def Core.firstPoison (c : Core) (spans : List (Nat × Nat)) : Option Nat := (spans.find? (fun p => c.selfPoison p.1 p.2)).map (·.1)

/-- The elements of a row of some bytes: number, offset and bytes of each (R201). -/
def rowElems (fmt size bytes : Nat) : List (Nat × Nat × Nat) :=
  if fmt = 5 then (List.range (2 * bytes)).map (fun j => (j, j / 2, 1)) else (List.range (bytes / size)).map (fun j => (j, j * size, size))

/-- The first poisoned address that the elements of some rows meet, each with its scale byte, as each is read (R202, R236). -/
def State.elemPoison (s : State) (core : CoreId) (k : CtxId) (q : EngCmd) (size bytes : Nat) (rows : List Nat) : Option Nat :=
  let one (i row : Nat) (e : Nat × Nat × Nat) : Option Nat :=
    let va := (row + e.2.1) % 2 ^ 57
    let sv := scaleVa q.scaleBase q.scaleOrg q.y va
    if (s.elemView core k q (256 * i + 2 * e.1)).selfPoison va e.2.2 then some va
    else if q.fmt = 4 && (s.elemView core k q (256 * i + 2 * e.1 + 1)).selfPoison sv 1 then some sv
    else none
  (List.range rows.length).findSome? (fun i => (rowElems q.fmt size bytes).findSome? (one i (rows.getD i 0)))

/-- An element that a command reads, at a moment of its own (R202). -/
def State.elemRead (s : State) (core : CoreId) (k : CtxId) (q : EngCmd) (i row j : Nat) : Lane :=
  (s.elemView core k q (256 * i + 2 * j)).macElem (s.elemView core k q (256 * i + 2 * j + 1)) q row j

/-- Run a MAC command (R203 to R205). -/
def State.runMac (s : State) (core : CoreId) (k : CtxId) (q : EngCmd) (fn : MacFn) (t : BitVec 3) (l z : BitVec 1)
    (stride : BitVec 16) : CmdEnd :=
  let c := s.core core
  let x := addrOf q.y 0#64
  let m := addrOf q.x 0#64
  let row (i : Nat) : Nat := (x + i * stride.toNat) % 2 ^ 57
  let meta_ := q.atStart c
  match (s.elemPoison core k q (macAlign fn q.fmt) (macRow fn q.fmt) ((List.range 8).map row)).orElse
      (fun _ => if fn = .mmas then meta_.firstPoison [(m, 32)] else none) with
  | some va => .poison s (BitVec.ofNat 64 va)
  | none =>
    if c.latchPoison.getLsbD l.toNat then .poison s 0#64
    else
      let b := c.latch l
      let old := (c.ctx k).tile t
      let acc (i j : Nat) : Lane := if z = 1#1 then 0#32 else old.at i j
      let a (i j : Nat) : Lane := s.elemRead core k q i (row i) j
      let out (i j : Nat) : Lane :=
        match fn with
        | .mma => macDot (acc i j) (a i) (fun k => b.at k j)
        | .mmas => macDot (acc i j) (expandRow (meta_.selfNum (m + 4 * i) 4) (a i)) (fun k => b.at k j)
        | .mmai => acc i j + BitVec.ofInt 32 (((List.range 32).map (fun n =>
            (s.elemView core k q (256 * i + 2 * n)).macInt q (row i) n * latchInt (b.at n j))).sum)
      .done s { tile := some (t, Tile.of out) }

/-- Run a BLD (R300); a latch that is loaded whole holds no poison (R234). -/
def State.runBld (s : State) (core : CoreId) (k : CtxId) (q : EngCmd) (l : BitVec 1) (stride : BitVec 16) : CmdEnd :=
  let x := addrOf q.y 0#64
  let row (i : Nat) : Nat := (x + i * stride.toNat) % 2 ^ 57
  match s.elemPoison core k q (bldElem q.fmt) (bldRow q.fmt) ((List.range 32).map row) with
  | some va => .poison s (BitVec.ofNat 64 va)
  | none =>
    let v : Latch := Vector.ofFn (fun i => Vector.ofFn (fun j => s.elemRead core k q i.val (row i.val) j.val))
    .done (s.onCore core (fun c => (c.setLatch l v).latchMark l false)) {}

/-- Run a BROT (R207, R303): the latch leaves for the successor, with its poison (R234). DESIGN CHOICE: its
packet has priority class 0 (R95 is silent; log entry 104). -/
def State.runBrot (s : State) (core : CoreId) (q : EngCmd) (l nf : BitVec 1) (c : BitVec 5) : CmdEnd :=
  let k := s.core core
  .done (s.sendPacket 2#2 0#2 (.latch (coreIn q.x) core (k.gang.getD 0) (~~~l) (k.latch l) (k.latchPoison.getLsbD l.toNat) (nf = 1#1) c)) {}

/-- Run a TBLLD (R145, R188, R361). -/
def State.runTblld (s : State) (core : CoreId) (q : EngCmd) (sat : BitVec 1) (nan : BitVec 8) : CmdEnd :=
  let c := q.atStart (s.core core)
  let x := q.x.toNat
  match c.firstPoison [(x, 1024)] with
  | some va => .poison s (BitVec.ofNat 64 va)
  | none =>
    let v : Vector Lane 256 := Vector.ofFn (fun k =>
      if k.val = nan.toNat then nan32 else toF19 (BitVec.ofNat 32 (c.selfNum (x + 4 * k.val) 4)))
    .done (s.onCore core (fun c => { c with dtab := v, nanCode := nan, sat := sat = 1#1 })) {}

/-- Run an NTBLLD (R145, R344). -/
def State.runNtblld (s : State) (core : CoreId) (q : EngCmd) : CmdEnd :=
  let c := q.atStart (s.core core)
  let x := q.x.toNat
  match c.firstPoison [(x, 16)] with
  | some va => .poison s (BitVec.ofNat 64 va)
  | none => .done (s.onCore core (fun d => { d with itab := Vector.ofFn (fun k => c.selfByte ((x + k.val) % 2 ^ 57)) })) {}

end Sys2Proof.Machine
end

