-- ==== Sys2Proof/Machine/Engine.lean ====
section
/-! DEFINITION. EWAIT and ESTAT (R315, R316), and the ends of matrix and vector commands (R208, R235, R236, R317, R358, R363). -/
namespace Sys2Proof.Machine

/-! ## EWAIT and ESTAT -/

/-- The engines that an operand selects, all where it is 0 (R315). -/
def engSel (e : BitVec 3) : BitVec 3 := if e = 0#3 then 7#3 else e

/-- Whether the selected engines have ended every command of the activation (R315). -/
def Context.enginesEnded (x : Context) (e : BitVec 3) : Bool :=
  let own (l : List EngCmd) : Bool := l.any (fun c => c.serial = x.act.serial)
  !(e.getLsbD 0 && own x.mq) && !(e.getLsbD 1 && own x.vq)
    && !(e.getLsbD 2 && x.cq.any (fun q => q.serial = x.act.serial && !q.handed))

/-- EWAIT (R315): the kill for poison that a copy read, then an acquire at the widest scope written. -/
def execEwait (e : BitVec 3) (s : State) : Answer :=
  let sel := engSel e
  .next (
    if !s.cx.enginesEnded sel then s.await .engines false s.cx.op.phase
    else if sel.getLsbD 2 && s.cx.act.poisoned then s.killUncorrectable s.meId s.me.cur (poisonTrap 0#64)
    else
      let sc := widen (if sel.getLsbD 1 then s.cx.vScope else none) (if sel.getLsbD 2 then s.cx.cScope else none)
      (match sc with | some c => s.acquireLines s.meId s.me.cur c | none => s).retire 1)

/-- The ESTAT word (R316). -/
def Context.engineWord (x : Context) (e : BitVec 3) : Nat :=
  let bit (b : Bool) (n : Nat) : Nat := if b then n else 0
  (if e.getLsbD 0 then x.mq.length + bit x.mflt 4 else 0)
  + (if e.getLsbD 1 then 16 * x.vq.length + bit x.vflt 64 else 0)
  + (if e.getLsbD 2 then 256 * x.cq.length + bit (x.cq.any (·.handed)) 1024 else 0)

/-- ESTAT (R316). -/
def execEstat (d : BitVec 5) (e : BitVec 3) (s : State) : Answer :=
  .next (s.result d (BitVec.ofNat 64 (s.cx.engineWord (engSel e))))

/-! ## How the engines start their commands -/

/-- Whether a command decodes or encodes through the decode table (R188, R201, R370). -/
def EngCmd.usesTable (q : EngCmd) : Bool :=
  match q.op with
  | .mma .. | .mmas .. | .mmai .. | .bld .. | .tld .. | .tst .. => q.fmt = 3 || q.fmt = 4
  | .venc _ _ _ _ f | .vdec _ _ _ _ f => f = 3#5
  | _ => false

/-- Whether a command decodes or encodes through the integer table (R188, R201, R370). -/
def EngCmd.usesIntegers (q : EngCmd) : Bool :=
  match q.op with
  | .mma .. | .mmas .. | .mmai .. | .bld .. | .tld .. | .tst .. => q.fmt = 5
  | .venc _ _ _ _ f | .vdec _ _ _ _ f => f = 5#5
  | _ => false

/-- The commands that the core's matrix and vector engines execute. -/
def Core.running (c : Core) : List EngCmd := (allCtx.flatMap (fun k => (c.ctx k).mq ++ (c.ctx k).vq)).filter (·.started)

/-- Whether a latch is read by a command that executes (R207, R301). -/
def Core.latchRead (c : Core) (l : BitVec 1) : Bool := c.running.any (fun r => macLatch r.op = some l)

/-- Whether an arriving latch waits (R207): a MAC or a BROT that executes reads the latch. -/
def Core.latchBusy (c : Core) (l : BitVec 1) : Bool :=
  c.latchRead l || c.running.any (fun r => match r.op with | .brot m _ _ => m = l | _ => false)

/-- Whether a command is a BLD or a BROT, which the load path brings into a latch (R207, R208). -/
def loadsLatch : Instr → Bool
  | .bld .. | .brot .. => true
  | _ => false

/-- Whether the first command of a matrix queue that has not started stands behind a table load of its context that executes (R361). -/
def behindTable (l : List EngCmd) : Bool := l.any (fun r => r.started && onLoadPath r.op && !loadsLatch r.op)

/-- Whether a command of a context may start beside those that execute (R145, R188, R207, R208, R301, R361): one MAC, one BLD or BROT, one table load
and one vector command at a time; a BLD or BROT behind a table load of its own context's queue and beside no MAC on its latch, a MAC beside no BLD
into its latch, and a table load beside no command that reads the table. DESIGN CHOICE: two table loads do not run beside each other, nor one
behind a BLD or BROT of its own queue that executes (log entry 118). -/
def Core.mayStart (c : Core) (k : CtxId) (q : EngCmd) : Bool :=
  let run := c.running
  let latch := !run.any (fun r => loadsLatch r.op) && !behindTable (c.ctx k).mq
  let load := !run.any (fun r => onLoadPath r.op && !loadsLatch r.op) && !(c.ctx k).mq.any (fun r => r.started && loadsLatch r.op)
  match q.op with
  | .bld _ l _ | .brot l _ _ => latch && !c.latchRead l
  | .tblld .. => load && !run.any EngCmd.usesTable
  | .ntblld .. => load && !run.any EngCmd.usesIntegers
  | _ =>
    match macLatch q.op with
    | some l => !run.any (fun r => (macLatch r.op).isSome) && !run.any (fun r => match r.op with | .bld _ m _ => m = l | _ => false)
    | none => !run.any (fun r => (macLatch r.op).isNone && !onLoadPath r.op)

/-- The contexts in round-robin order after one (R208). -/
def turnsAfter (k : CtxId) : List CtxId := [k + 1#2, k + 2#2, k + 3#2, k]

/-- The first command of a queue that has not started. -/
def nextCmd (l : List EngCmd) : Option EngCmd := l.find? (fun q => !q.started)

/-- The context whose next command the matrix engine starts now (R208). -/
def Core.nextMatrix (c : Core) : Option CtxId := (turnsAfter c.mTurn).find? (fun k => (nextCmd (c.ctx k).mq).any (c.mayStart k))

/-- The scopes of the doublewords that a TST sends, in the order in which it sends them (R134, R363). -/
def State.tstScopes (s : State) (core : CoreId) (q : EngCmd) : List Scope :=
  q.chunks.flatMap (fun c => (s.tgtScope core c.1).toList.flatMap (List.replicate (c.2 / 8)))

/-- Whether the counters take every doubleword that a TST sends (R134, R363). -/
def State.tstRoom (s : State) (core : CoreId) (k : CtxId) (q : EngCmd) : Bool :=
  match q.op with
  | .tst .. | .tstPipe .. => s.takes (s.cmdReq core k q) (s.tstScopes core q)
  | _ => true

/-- The context whose next command the vector engine starts now (R134, R208). -/
def State.nextVector (s : State) (core : CoreId) : Option CtxId :=
  let c := s.core core
  (turnsAfter c.vTurn).find? (fun k => (nextCmd (c.ctx k).vq).any (fun q => c.mayStart k q && s.tstRoom core k q))

/-- A command as it starts: it finds the core's local memory and tables as they stand (R145, R188). -/
def Core.begin (c : Core) (q : EngCmd) : EngCmd := { q with started := true, seen := [(c.localMem, c.localPoison)], tables := some c.tables, input := [], sent := [] }

/-- Put the started command in the place of the first that had not. -/
def startFirst (p : EngCmd) : List EngCmd → List EngCmd
  | [] => []
  | q :: r => if q.started then q :: startFirst p r else p :: r

/-- The matrix engine starts a command, if it can (R208). -/
def State.startMatrix (s : State) (core : CoreId) : State :=
  let c := s.core core
  match c.nextMatrix.bind (fun k => (nextCmd (c.ctx k).mq).map (fun q => (k, q))) with
  | none => s
  | some (k, q) => s.onCore core (fun c => { c.setCtx k { c.ctx k with mq := startFirst (c.begin q) (c.ctx k).mq } with mTurn := k })

/-- The vector engine starts a command, if it can (R208): a transfer reads what it needs, and sends what leaves the core (R145, R363). -/
def State.startVector (s : State) (core : CoreId) : State :=
  let c := s.core core
  match (s.nextVector core).bind (fun k => (nextCmd (c.ctx k).vq).map (fun q => (k, q))) with
  | none => s
  | some (k, q) =>
    let (s1, q1) := s.startTransfer core k (c.begin q)
    s1.onCore core (fun c => { c.setCtx k { c.ctx k with vq := startFirst q1 (c.ctx k).vq } with vTurn := k })

/-- A matrix command that executes may read its next elements as local memory now stands (R202). -/
def EngCmd.note (now : Memory × List Nat) (q : EngCmd) : EngCmd :=
  if q.started && q.seen.getLast? ≠ some now then { q with seen := q.seen ++ [now] } else q

/-- Note the content of local memory for the matrix commands that execute (R202). -/
def Core.noteMemory (c : Core) : Core :=
  let f (x : Context) : Context := { x with mq := x.mq.map (EngCmd.note (c.localMem, c.localPoison)) }
  { c with ctx0 := f c.ctx0, ctx1 := f c.ctx1, ctx2 := f c.ctx2, ctx3 := f c.ctx3 }

/-- Whether an engine of the core has a command. -/
def Core.hasCommands (c : Core) : Bool := allCtx.any (fun k => let x := c.ctx k; !(x.mq.isEmpty && x.vq.isEmpty && x.cq.isEmpty))

/-- The engines of every core start what they can, and note what their commands may read; a step does so before its turn (R202, R208). -/
def State.runEngines (s : State) : State :=
  ((s.allCores.filter (fun p => p.2.hasCommands)).map (·.1)).foldl (fun s c =>
    ((((s.onCore c Core.noteMemory).startMatrix c).startMatrix c).startVector c).startCopy c) s

/-! ## How a command ends -/

/-- What waits for an engine is tested again. -/
def State.engineWake (s : State) (core : CoreId) : State :=
  s.wake core (fun w => match w with | .engineQueue | .scoreboard | .vectorFlags | .engines => true | _ => false)

/-- The marks that a command which ended faulted leaves (R316, R317): its tiles are orphaned. -/
def Context.orphan (x : Context) (q : EngCmd) (engine : BitVec 2) : Context :=
  let tiles := (shapeOf q.op).writes
  let y : Context :=
    { x with orphans := x.orphans.filter (fun o => !tiles.contains o.tile)
        ++ tiles.map (fun t => { tile := t, engine := engine, word0 := q.word0 }) }
  if engine = 0#2 then { y with mflt := true } else { y with vflt := true }

/-- A command ends faulted (R235, R316, R317). -/
def State.cmdFaulted (s : State) (core : CoreId) (k : CtxId) (q : EngCmd) (engine : BitVec 2) : State :=
  s.onCtx core k (fun x => if x.current q then x.orphan q engine else x)

/-- A command has read poison: it ends faulted, and the activation that consumed it is killed at the command's instruction (R165, R236). -/
def State.cmdPoison (s : State) (core : CoreId) (k : CtxId) (q : EngCmd) (engine : BitVec 2) (addr : Word) : State :=
  if (s.ctxAt core k).current q then (s.cmdFaulted core k q engine).killAt core k (poisonTrap addr) q.pc else s

/-- A refusal of what a command reads waits for a FENCE, in the issue order of its instruction (R103, R363). -/
def State.cmdRefused (s : State) (core : CoreId) (k : CtxId) (q : EngCmd) (addr : Word) (sc : Scope) : State :=
  s.deferAt { core := core, ctx := k, serial := q.serial } { cause := .window, addr := addr } (some sc) q.order

/-- A command's results reach its context (R34, R195, R238, R317, R359): its tiles, the flags and a mask. A tile written whole without being
read is neither orphaned nor poisoned any longer. -/
def Context.take (x : Context) (q : EngCmd) (tiles : List (BitVec 3 × Tile)) (f : FFlags) (mask : Option (BitVec 2 × BitVec 16)) :
    Context :=
  if x.current q then
    let y := (tiles.foldl (fun x p => x.setT p.1 p.2) x).orFlags f
    let sound := (shapeOf q.op).writes.foldl (fun m t => m &&& ~~~(1#8 <<< t.toNat)) y.tPoison
    let z := if clearsOrphan q.op then
        { y with orphans := y.orphans.filter (fun o => !(shapeOf q.op).writes.contains o.tile), tPoison := sound }
      else y
    match mask with | some (k, m) => z.setMask k m | none => z
  else x

/-- A TST has completed: the writes that it has performed, those that no destination has refused, widen what its activation's EWAIT acquires at
(R315, R363). -/
def State.vectorScope (s : State) (core : CoreId) (k : CtxId) (q : EngCmd) : State :=
  let sc := (q.sent.zip (s.tstScopes core q)).foldl (fun a p => if q.refused.contains p.1 then a else widen a (some p.2)) none
  s.onCtx core k (fun x => if x.current q then { x with vScope := widen x.vScope sc } else x)

/-- The end of a tile command. -/
def State.cmdEnd (core : CoreId) (k : CtxId) (q : EngCmd) (engine : BitVec 2) : CmdEnd → State
  | .done s r => s.onCtx core k (fun x => x.take q r.tile.toList r.flags r.mask)
  | .poison s va => s.cmdPoison core k q engine va
  | .refused s va sc => (s.cmdFaulted core k q engine).cmdRefused core k q va sc

/-- Run a matrix or load-path command (R203 to R207, R300 to R303, R344, R361). -/
def State.matrixRun (s : State) (core : CoreId) (k : CtxId) (q : EngCmd) : CmdEnd :=
  if (s.ctxAt core k).current q && (s.ctxAt core k).readsPoison q.op then .poison s 0#64
  else match q.op with
  | .mma t _ l z st => s.runMac core k q .mma t l z st
  | .mmas t _ _ l z st => s.runMac core k q .mmas t l z st
  | .mmai t _ l z st => s.runMac core k q .mmai t l z st
  | .bld _ l st => s.runBld core k q l st
  | .brot l nf c => s.runBrot core q l nf c
  | .tblld _ sat nan => s.runTblld core q sat nan
  | .ntblld _ => s.runNtblld core q
  | _ => .done s {}

/-- The command that executes for a context on one path of the matrix engine. -/
def Context.runningOn (x : Context) (load : Bool) : Option EngCmd := x.mq.find? (fun q => q.started && onLoadPath q.op = load)

/-- MATRIX_COMMAND_DONE (R208): the command of a context that executes on a path of the matrix engine completes, or ends faulted (R235);
one whose turn it is starts first. -/
def execMatrixCommandDone (core : CoreId) (k : CtxId) (how : MatrixEnd) (s : State) : Answer :=
  let s0 := if ((s.ctxAt core k).runningOn how.load).isNone && (s.core core).nextMatrix = some k then s.startMatrix core else s
  .next (match (s0.ctxAt core k).runningOn how.load with
    | none => s0
    | some q =>
      let s1 := s0.onCtx core k (fun x => { x with mq := x.mq.erase q })
      let s2 := if how.faulted then s1.cmdFaulted core k q 0#2 else State.cmdEnd core k q 0#2 (s1.matrixRun core k q)
      s2.engineWake core)

/-- Write the bytes that GPACK stores into the core's own memory, line by line (R216). -/
def Core.putSelf (c : Core) : (fuel va : Nat) → List Byte → Core
  | 0, _, _ => c
  | fuel + 1, va, bs =>
    let m := lineRest va bs.length
    Core.putSelf (c.localWrite (va % 2 ^ 15) m (leOf (bs.take m))) fuel ((va + m) % 2 ^ 57) (bs.drop m)

/-- Run a Gaussian command to its end. DESIGN CHOICE: the bytes that a GPACK writes are in local memory from its end on, so that a SEND before EWAIT may
see them; R216 promises them only after EWAIT (log entry 16). -/
def State.gaussEnd (s : State) (core : CoreId) (k : CtxId) (q : EngCmd) : State :=
  match runGauss (q.atStart (s.core core)) (s.ctxAt core k) q with
  | .error va => s.cmdPoison core k q 1#2 (BitVec.ofNat 64 va)
  | .ok r => (s.onCtx core k (fun x => x.take q r.tiles r.flags none)).onCore core (fun c => c.putSelf 4 q.x.toNat r.bytes)

/-- Run a TST to its end (R315, R363). -/
def State.tstEnd (s : State) (core : CoreId) (k : CtxId) (q : EngCmd) (t : BitVec 3) (r : BitVec 4) : State :=
  match s.runTst core k q t r with
  | .done s1 z => (State.cmdEnd core k q 1#2 (.done s1 z)).vectorScope core k q
  | e => State.cmdEnd core k q 1#2 e

/-- Run a vector command to its end (R358 to R374, R363, R212 to R216). -/
def State.vectorEnd (s : State) (core : CoreId) (k : CtxId) (q : EngCmd) : State :=
  if (s.ctxAt core k).current q && (s.ctxAt core k).readsPoison q.op then s.cmdPoison core k q 1#2 0#64
  else match q.op with
  | .tld t r _ _ _ => State.cmdEnd core k q 1#2 (s.runTld core k q t r)
  | .tldPipe t r _ _ => State.cmdEnd core k q 1#2 (s.runTld core k q t r)
  | .tst t r _ _ _ => s.tstEnd core k q t r
  | .tstPipe t r _ _ => s.tstEnd core k q t r
  | .gacc .. | .gpack .. | .gunpk .. | .gdamp .. => s.gaussEnd core k q
  | _ =>
    match tileResult (q.atStart (s.core core)) (s.ctxAt core k) q with
    | some r => s.onCtx core k (fun x => x.take q r.tile.toList r.flags r.mask)
    | none => s

/-- Run a vector command, whose activation may have ended: it then reads the tiles of that activation (R318). -/
def State.vectorRun (s : State) (core : CoreId) (k : CtxId) (q : EngCmd) : State :=
  match q.kept with
  | none => s.vectorEnd core k q
  | some t =>
    let now := (s.ctxAt core k).t
    ((s.onCtx core k (fun x => { x with t := t })).vectorEnd core k q).onCtx core k (fun x => { x with t := now })

/-- Whether the writes of a TST are performed (R145, R363): none is on its way to its home or to a further replica. -/
def State.sentDone (s : State) (core : CoreId) (k : CtxId) (q : EngCmd) : Bool :=
  q.sent.isEmpty || (q.sent.all (fun i => (s.packet i).isNone) && !s.net.any (fun p => match p.body with
    | .forward r _ _ _ _ _ => r.core = core && r.ctx = k
    | _ => false))

/-- VECTOR_COMMAND_DONE (R358): the vector command of a context that executes completes, or ends faulted (R235); one whose turn it is starts
first. -/
def execVectorCommandDone (core : CoreId) (k : CtxId) (faulted : Bool) (s : State) : Answer :=
  let s0 := if !(s.ctxAt core k).vq.any (·.started) && s.nextVector core = some k then s.startVector core else s
  .next (match (s0.ctxAt core k).vq with
    | [] => s0
    | q :: rest =>
      if !q.started || !s0.sentDone core k q then s0
      else
        let s1 := s0.onCtx core k (fun x => { x with vq := rest })
        let s2 := if faulted then s1.cmdFaulted core k q 1#2 else s1.vectorRun core k q
        s2.engineWake core)

end Sys2Proof.Machine
end

