-- ==== Sys2Proof/Machine/Deliver.lean ====
section
/-! DEFINITION. What the arrival of a packet at a core does to its counters, pails and local memory: the targets of R40, the counter
action of R39, R53, R66 and R380, and the fit of R34. -/
namespace Sys2Proof.Machine

/-- Take the packet of the present turn, if it is still in the mesh. -/
def State.withPicked (s : State) (f : Packet → State) : Answer :=
  .next (match s.packet s.pick with | some p => f p | none => s)

/-- What waits for something of the core to change is tested again (R331). -/
def Core.stir (c : Core) : Core := c.wake (fun w => w == WaitKind.idle)

/-- Whether a packet of a gang is at home at a core (R41). -/
def State.serves (s : State) (core : CoreId) (gang : Nat) : Bool := s.present core && (s.core core).gang = some gang

/-- A discarded packet's WINDOW record (R40, R41, R383); a core that is not there writes none. -/
def State.discard (s : State) (core : CoreId) (cause : Cause) (value : Word) : State :=
  if s.present core then s.reportBare (s.tenantNo core) cause false core 0#64 value else s

/-- Whether bytes lie wholly inside the pinned lines of the region area or of a pipe's slots (R40). -/
def Core.depositOk (c : Core) (off n : Nat) : Bool :=
  c.regionOff ≤ off && off + n ≤ c.regionEnd && off + n ≤ 0x7000
    && (List.range ((off + n + 63) / 64 - off / 64)).all (fun i => c.pinLU.getLsbD (off / 64 + i))

/-- The consumer end that counts on a counter (R81). -/
def Core.pipeOf (c : Core) (i : BitVec 5) : Option PipeEnd := if 28 ≤ i.toNat then (c.pipes.toList[i.toNat - 28]?).join else none

/-- Whether one more fill, or one more early notice, would pass the slots (R66, R380). -/
def Core.fillOver (c : Core) (i : BitVec 5) (copy : Bool) : Bool :=
  let k := c.counters[i.toNat]
  let p := c.pipeOf i
  let early := if copy && p.any (fun p => p.mode = 1) then k.early else 0
  k.pipe && (p.elim 0 (·.slots)) < k.count + early + 1

/-- The counter action of a deposit, an AQ answer or a copy notice that is not discarded (R39, R53, R66, R380). DESIGN CHOICE: a copy
notice that finds no reservation at an end that is closed or broken is dropped without a record (R380 is silent; log entry 87). -/
def Core.notify (c : Core) (i : BitVec 5) (copy : Bool) : Core :=
  let k := c.counters[i.toNat]
  if !k.pipe then c.decrement i 1
  else
    let set (k : Counter) : Core :=
      (({ c with counters := c.counters.set i.toNat k } : Core).counterMoved).wake (fun w => match w with | .pipe _ => true | _ => false)
    match (c.pipeOf i).filter (fun p => copy && p.mode = 1) with
    | none => set { k with count := k.count + 1 }
    | some p =>
      if 0 < k.reserved then set { k with count := k.count + 1, reserved := k.reserved - 1 }
      else if p.state = 0 && !p.closedHere then set { k with early := k.early + 1 }
      else c

/-- Act on a counter as a zero-length deposit, or discard it with its PIPE_BROKEN record, whose 0x18 holds `value` (R66). DESIGN CHOICE: that is an AQ
answer's descriptor, and 0 for a BROT's latch (R66 and R383 name no value for them; log entry 121). -/
def State.counterAct (s : State) (core : CoreId) (i : BitVec 5) (copy : Bool) (value : Word) : State :=
  if (s.core core).fillOver i copy then s.discard core .pipeBroken value else s.onCore core (fun c => c.notify i copy)

/-- The free pail with the lowest index (R43). -/
def Core.freePail? (c : Core) : Option Nat := c.pails.findIdx? (fun p => p.st = .free)

/-- A message fills a pail (R42, R44). -/
def Core.fillPail (c : Core) (i : Nat) (st : PailState) (start : Bool) (hdr : Word) (payload : List Word) : Core :=
  { c with
    localMem := (c.localMem.clear (128 * i) 128).storeDwords (128 * i) (hdr :: payload)
    localPoison := c.localPoison.filter (fun d => d / 16 ≠ i)
    pails := c.pails.set i { st := st, start := start } }

/-- The declared scalars and tiles of the reserve (R34). -/
def Core.reserve (c : Core) : Nat × Nat :=
  (c.handlers.filter (fun h => 252 ≤ h.index.toNat)).foldl (fun m h => (Nat.max m.1 h.sregs, Nat.max m.2 h.tiles)) (0, 0)

/-- Whether a declaration fits beside the reserve and the ordinary contexts that are not free (R34). -/
def Core.fits (c : Core) (sregs tiles : Nat) : Bool :=
  let busy := (ordinary.map c.ctx).filter (fun x => x.st ≠ .free)
  let S := sregs + c.reserve.1 + (busy.map (fun x => x.act.sregs)).sum
  let T := tiles + c.reserve.2 + (busy.map (fun x => x.act.tiles)).sum
  decide (8 * (S - 96) + 512 * (T - 16) ≤ 2048)

/-- The free ordinary context with the lowest number (R355). -/
def Core.freeCtx? (c : Core) : Option CtxId := ordinary.find? (fun k => (c.ctx k).st = .free)

/-- Whether a worker's binding leaves no room for another ordinary activation (R219). -/
def State.workerFull (s : State) (core : CoreId) : Bool :=
  (s.workerBinding core).isSome && ordinary.any (fun k => (s.ctxAt core k).st ≠ .free)

/-- Whether the entry activation of a worker is still to start. DEDUCED: the worker takes no other message, no SPAWN and no other task before it, so
that its ACT record has sequence number 1 (R278; log entry 97). -/
def State.startComing (s : State) (core : CoreId) : Bool :=
  (s.workerBinding core).isSome
  && ((s.core core).pails.any (fun p => p.start && p.st = .queued)
      || s.net.any (fun p => match p.body with | .message dst _ _ _ _ _ start => start && dst = core | _ => false))

/-- Wake contexts of every core. -/
def State.wakeAll (s : State) (p : WaitKind → Bool) : State :=
  { s with me := s.me.wake p, others := s.others.map (fun c => (c.1, c.2.wake p)) }

end Sys2Proof.Machine
end

