-- ==== Sys2Proof/Machine/CoreEvents.lean ====
section
/-! DEFINITION. A core's own steps: the dispatcher (R34, R46, R48, R91), the service context's admissions (R49, R171, R174), pails
(R43), the ends of timed waits and of IDLE (R69, R331), and the traps of a fetch or an unassigned word (R262, R267). -/
namespace Sys2Proof.Machine

/-! ## The dispatcher -/

/-- One step of age on the head of a priority's queue (R91). -/
def ageHead (p : BitVec 2) : List Task → List Task
  | [] => []
  | t :: r => if t.pri = p then { t with age := t.age + 1 } :: r else t :: ageHead p r

/-- The dispatcher's scan from a priority down (R91): the task it admits, if any, and the queue it leaves. -/
def dispatchScan (fits : Task → Bool) : List (BitVec 2) → List Task → Option Task × List Task
  | [], q => (none, q)
  | p :: ps, q =>
    match q.filter (fun t => t.pri = p) with
    | [] => dispatchScan fits ps q
    | h :: rest =>
      if fits h then (some h, q.erase h)
      else if h.age = 16 then (none, q)
      else match rest.find? fits with
        | some k => (some k, ageHead p (q.erase k))
        | none => dispatchScan fits ps (ageHead p q)

/-- The record of a task that names an invalid or reserved entry (R48, R383). -/
def State.badTask (s : State) (core : CoreId) (t : Task) : State :=
  match t.place with
  | .pail i => (s.discard core .illegal ((s.core core).pailDword i 0)).onCore core (fun c => c.freePail i)
  | _ => s.discard core .illegal (BitVec.ofNat 64 (t.handler.toNat * 2 ^ 56 + t.arg.toNat))

/-- Whether a task can start its handler (R48). -/
def Core.startable (c : Core) (t : Task) : Bool := t.handler.toNat < 252 && (c.entry? t.handler).isSome

/-- The tasks that can start nothing leave the queue with their records (R48). -/
def State.dropBad (s : State) (core : CoreId) : State :=
  let c := s.core core
  let bad := c.runq.filter (fun t => !c.startable t)
  bad.foldl (fun s t => s.badTask core t) (s.onCore core (fun c => { c with runq := c.runq.filter c.startable }))

/-- The payload doubleword of a pail's message, zero beyond its length (R31, R44). -/
def Core.payload (c : Core) (i n : Nat) : Word := if n < (c.pailDword i 0).toNat % 16 then c.pailDword i (n + 1) else 0#64

/-- The handles that are bound to a member's pipe ends (R62). -/
def Core.handles (c : Core) : BitVec 8 :=
  BitVec.ofNat 8 (((List.range 8).filter (fun q => (c.pipes.toList[q]?).join.isSome)).map (fun q => 2 ^ q)).sum

/-- Admit a task into a free ordinary context (R31, R46, R143): a pail's message, or a bound task with its argument. DESIGN CHOICE: g1 of a bound task is
0 (R31 names no value; log entry 119). -/
def State.startTask (s : State) (core : CoreId) (k : CtxId) (t : Task) (h : Handler) : State :=
  let c := s.core core
  match t.place with
  | .pail i =>
    let hdr := c.pailDword i 0
    let start := (c.pails[i]?).any (·.start)
    let a : Act := { handler := t.handler, pri := t.pri, source := .pail i, header := hdr, sregs := h.sregs, tiles := h.tiles, entry := start }
    (s.onCore core (fun c => c.onPail i (fun p => { p with st := .running }))).startIn core k a h.pc hdr (selfWindow (128 * i)) (c.payload i 0)
      (c.payload i 1) (c.payload i 2) (c.payload i 3) (if start then c.handles else 0#8) (scopeOf core (coreIn hdr))
  | _ =>
    let a : Act := { handler := t.handler, pri := t.pri, source := .task t.handler t.arg t.kills, sregs := h.sregs, tiles := h.tiles }
    s.startIn core k a h.pc 0#64 0#64 (t.arg.setWidth 64) 0#64 0#64 0#64 0#8 2#2

/-- Whether a task fits now (R34, R219). -/
def State.taskFits (s : State) (core : CoreId) (t : Task) : Bool :=
  match (s.core core).entry? t.handler with
  | some h => (s.core core).fits h.sregs h.tiles && !s.workerFull core
  | none => false

/-- The tasks among which the dispatcher chooses: all of them, and before the entry activation of a watched worker its start message's alone
(R91, R278; log entry 97). -/
def State.candidates (s : State) (core : CoreId) : List Task :=
  let c := s.core core
  if s.startComing core then c.runq.filter (fun t => match t.place with | .pail i => (c.pails[i]?).any (·.start) | _ => false) else c.runq

/-- DISPATCHER_SCAN (R91): after an event, at most one admission; one that leaves a context free is an event itself. -/
def execDispatcherScan (core : CoreId) (s : State) : Answer :=
  .next (
    if !(s.core core).scan then s
    else
      let s1 := (s.onCore core (fun c => { c with scan := false })).dropBad core
      let c := s1.core core
      if c.noAdmit || !s.present core then s1
      else match c.freeCtx? with
        | none => s1
        | some k =>
          let l := s1.candidates core
          let (t, q) := dispatchScan (s1.taskFits core) [3#2, 2#2, 1#2, 0#2] l
          let s2 := s1.onCore core (fun c => { c with runq := if s1.startComing core then q ++ c.runq.filter (fun t => !l.contains t) else q })
          match t, t.bind (fun t => c.entry? t.handler) with
          | some t, some h => (s2.startTask core k t h).onCore core (fun c => { c with scan := c.freeCtx?.isSome && !c.runq.isEmpty })
          | _, _ => s2)

/-! ## The service context -/

/-- The task that the service context admits next (R49): 255, 252, 254, then 253, each in arrival order. -/
def nextService (q : List SvcTask) : Option SvcTask :=
  [255#8, 252#8, 254#8, 253#8].findSome? (fun i => q.find? (fun t => t.index = i))

/-- The entry of a handed-back copy command is freed as its task starts (R173). -/
def dropHanded : List CopyCmd → List CopyCmd
  | [] => []
  | q :: r => if q.handed then r else q :: dropHanded r

/-- A hand-back's task starts: the descriptor lies in the service pail, and the command's entry is free (R173, R174). -/
def State.startHandback (s : State) (core : CoreId) (t : SvcTask) : State :=
  match t.copyCtx with
  | none => s
  | some k =>
    (s.onCore core (fun c =>
      let m := (c.localMem.clear c.servicePail 128).storeDwords c.servicePail t.desc
      let d := c.setCtx k { c.ctx k with cq := dropHanded (c.ctx k).cq }
      { d with localMem := m })).wake core (fun w => match w with | .engineQueue | .engines => true | _ => false)

/-- SERVICE_ADMISSION (R49, R143, R171, R174); a core that is being saved admits nothing (R177). DESIGN CHOICE: g1 is 0, and so is g2 but for handler
253 (R31 and R49 name no value; log entry 119). -/
def execServiceAdmission (core : CoreId) (s : State) : Answer :=
  .next (
    let c := s.core core
    if c.ctx3.st ≠ .free || !s.present core || s.savingAt core then s
    else match nextService c.svcq with
      | none => s
      | some t =>
        let s1 := s.onCore core (fun c => { c with svcq := c.svcq.erase t })
        match c.entry? t.index with
        | none => s1
        | some h =>
          let s2 := s1.startHandback core t
          let g2 : Word := if t.index = 253#8 then selfWindow c.servicePail else 0#64
          let a : Act := { handler := t.index, pri := h.pri, source := .service, sregs := h.sregs, tiles := h.tiles, svc := some t }
          s2.startIn core 3#2 a h.pc 0#64 g2 t.g3 t.g4 t.g5 t.g6 0#8 2#2)

/-! ## Pails and waits -/

/-- PAIL_CLEARED (R43): all 128 bytes are zero. -/
def execPailCleared (core : CoreId) (pail : Nat) (s : State) : Answer :=
  .next (
    if ((s.core core).pails[pail]?).any (fun p => p.st = .freed) then
      s.onCore core (fun c =>
        { c.onPail pail (fun _ => {}) with
          localMem := c.localMem.clear (128 * pail) 128, localPoison := c.localPoison.filter (fun d => d / 16 ≠ pail) })
    else s)

/-- WAITLIM_EXPIRY (R69, R70): a timed wait's count reaches WAITLIM, and its instruction looks once more (R347, R376). -/
def execWaitlimExpiry (core : CoreId) (k : CtxId) (s : State) : Answer :=
  .next (s.onCtx core k (fun x =>
    if x.st = .waiting && x.op.timed then { x with st := .ready, op := { x.op with elapsed := x.waitlim } } else x))

/-- IDLE_EXPIRY (R331). -/
def execIdleExpiry (core : CoreId) (k : CtxId) (s : State) : Answer :=
  .next (s.onCtx core k (fun x => if x.st = .waiting && x.op.wait = .idle then { x with st := .ready } else x))

/-! ## Fetches that give no instruction -/

/-- ILLEGAL_ENCODING (R267): ILLEGAL, precise, with FAULTADDR 0; it takes place only as the word is issued. -/
def execIllegalEncoding (_w0 : BitVec 32) (s : State) : Answer :=
  .next (if s.cx.st = .running then s.trapPlain .illegal else s)

/-- INSTRUCTION_FETCH_FAULT (R236, R262): the trap at the target, or the kill for poison; it takes place only as the word is
issued. -/
def execInstructionFetchFault (f : FetchFault) (s : State) : Answer :=
  .next (if s.cx.st = .running then s.faultOut { cause := f.cause, level := f.level, fetch := true, addr := f.addr } else s)

end Sys2Proof.Machine
end

