-- ==== Sys2Proof/Machine/Message.lean ====
section
/-! DEFINITION. The meanings of the message instructions: SEND (R350, R351), MCAST (R340), SPAWN (R354), AQ (R297) and LAUNCH
(R73). -/
namespace Sys2Proof.Machine

/-- The fields of a header that a sender may not set (R37, R350). -/
def headerBad (h : Word) : Bool :=
  let n := h.toNat
  fld n 29 3 ≠ 0 || fld n 4 1 ≠ 0 || (fld n 5 1 = 1 && fld n 11 3 ≠ 0) || (fld n 5 1 = 0 && fld n 17 12 ≠ 0)

/-- The group bound to a membership slot of a core (R86). -/
def State.groupAt (s : State) (core : CoreId) (slot : Nat) : Option Group :=
  let g := ((s.core core).grp.toList[slot]?).getD 0#64
  if g.getLsbD 63 then s.groups.find? (fun x => x.id = fld g.toNat 0 8 && x.slot = slot && x.members.contains core) else none

/-- Read a message's payload at issue: ALIGN, then plain loads (R350). -/
def State.withPayload (s : State) (h : Word) (b : BitVec 5) (f : State → List Word → State) : State :=
  let va := addrOf (s.cx.rg b) 0#64
  let n := fld h.toNat 0 4
  if n = 0 then f s []
  else if va % 8 ≠ 0 then s.trap (faultAt .align va .read 0#3)
  else s.gather va n 0 n f

/-- Make a multicast of a group (R340): a copy for every member but the issuing core. -/
def State.multicast (s : State) (h : Word) (b : BitVec 5) (slot : BitVec 2) : State :=
  match s.groupAt s.meId slot.toNat with
  | none => s.trapPlain .illegal
  | some g =>
    s.withPayload h b (fun s p =>
      let hdr := h ||| (1#64 <<< 52) ||| BitVec.ofNat 64 (g.id * 2 ^ 32)
      s.hold (.multicast slot) hdr hdr p (g.members.filter (· ≠ s.meId)) (BitVec.ofNat 2 (fld h.toNat 14 2)))

/-- The membership slot in which the core holds a group id (R351). -/
def State.slotOf (s : State) (id : Nat) : Option (BitVec 2) :=
  ([0#2, 1#2, 2#2, 3#2] : List (BitVec 2)).find? (fun k => (s.groupAt s.meId k.toNat).any (fun g => g.id = id))

/-- SEND (R350, R351). -/
def State.send (s : State) (a b : BitVec 5) : State :=
  let h := s.cx.rg a
  if headerBad h then s.trapPlain .illegal
  else if h.getLsbD 52 then
    (if fld h.toNat 40 12 ≠ 0 then s.trapPlain .illegal
     else match s.slotOf (fld h.toNat 32 8) with
      | none => s.trapPlain .illegal
      | some k => s.multicast (h &&& 0xFFE00000FFFFFFFF#64) b k)
  else
    let dst := coreIn h
    if (s.ownerOf dst).map (·.id) ≠ some (s.tenantNo s.meId) then s.trapPlain .window
    else s.withPayload h b (fun s p => s.hold .message h h p [dst] (BitVec.ofNat 2 (fld h.toNat 14 2)))

/-- SEND (R350). -/
def execSend (a b : BitVec 5) (s : State) : Answer := .next (s.send a b)

/-- MCAST (R340). -/
def execMcast (a b : BitVec 5) (slot : BitVec 2) (s : State) : Answer :=
  let h := s.cx.rg a
  .next (if (s.groupAt s.meId slot.toNat).isNone || fld h.toNat 32 21 ≠ 0 || headerBad h then s.trapPlain .illegal
         else s.multicast h b slot)

/-! ## SPAWN -/

/-- The header of a spawned child (R60): the caller's coordinates, KIND 0, IDX 0, LEN 5, at the caller's priority. -/
def spawnHeader (src : CoreId) (pri : BitVec 2) (tag : BitVec 11) : Word :=
  taggedHeader (headerForm src ||| BitVec.ofNat 64 (pri.toNat * 2 ^ 14 + 5)) tag

/-- The outbox entry of the SPAWN that the issuing context is at. -/
def State.spawnEntry (s : State) : Option OutEntry :=
  s.me.outbox.find? (fun e => e.isSpawn && e.ctx = s.me.cur && e.serial = s.cx.act.serial)

/-- Free the SPAWN's entry. -/
def State.dropSpawn (s : State) : State :=
  s.onMe (fun c => ({ c with outbox := c.outbox.filter (fun e => !(e.isSpawn && e.ctx = c.cur && e.serial = (c.ctx c.cur).act.serial)) } : Core).wake
    (fun w => w == WaitKind.outbox))

/-- The call that SPAWN becomes (R60, R354). -/
def State.inlineCall (s : State) (d b : BitVec 5) : State :=
  let target := s.cx.rg b
  s.withDest 31#5 (fun s =>
    if !(s.cx.setG 31#5 0#64).mayG d then s.trapPlain .illegal
    else s.withLog { type := 9, body := leBytesOf 4 (target - s.cx.pc).toNat } (fun s =>
      (s.dropSpawn.onCx (fun x => (x.setG 31#5 (x.pc + 4#64)).setG d 1#64)).retireTo target))

/-- Send the request and take its TAG (R354, R379). -/
def State.spawnSend (s : State) (e : OutEntry) (tgt : CoreId) (b : BitVec 5) : State :=
  let x := s.cx
  let hdr := spawnHeader s.meId x.act.pri s.me.tag
  let s1 := s.onMe (fun c =>
    { c with tag := c.tag + 1#11, outbox := c.outbox.map (fun o => if o.slot = e.slot then { o with hdr := hdr } else o) })
  (s1.sendPacket 0#2 x.act.pri
    (.spawnReq tgt (s.reqOf s.meId s.me.cur) e.slot (s.me.gang.getD 0) hdr [x.rg b, x.rg 3#5, x.rg 4#5, x.rg 5#5, x.rg 6#5]
      x.act.sregs x.act.tiles)).await .spawnAnswer false 9

/-- SPAWN (R354): the entry, the containment, then the request and its answer, or the call. -/
def State.spawn (s : State) (d a b : BitVec 5) : State :=
  let w := s.cx.rg a
  let tgt := coreIn w
  if s.me.cur = 3#2 || w.toNat / 2 ^ 52 ≠ 0 || w.toNat % 2 ^ 32 ≠ 0 then s.trapPlain .illegal
  else s.withDest d (fun s =>
    if (s.cx.rg b).toNat % 4 ≠ 0 then s.trap { cause := .align, addr := s.cx.rg b }
    else if (s.ownerOf tgt).map (·.id) ≠ some (s.tenantNo s.meId) then s.trapPlain .window
    else
      let main (s : State) (e : OutEntry) : State :=
        if s.cx.op.phase = 9 then
          match s.cx.op.status with
          | some 0 => s.withLog { type := 4, body := leBytesOf 8 e.hdr.toNat } (fun s => s.dropSpawn.finish d 0#64 1)
          | some _ => s.inlineCall d b
          | none => s.await .spawnAnswer false 9
        else if s.cx.op.phase = 8 then s.inlineCall d b
        else s.withContain 6 (fun s =>
          if tgt = s.meId then (s.onCx (fun x => { x with op := { x.op with phase := 8 } })).inlineCall d b
          else s.spawnSend e tgt b)
      match s.spawnEntry with
      | some e => main s e
      | none => s.withEntry (fun s n =>
          let e : OutEntry := { slot := n, ctx := s.me.cur, serial := s.cx.act.serial, kind := .spawn tgt, hdr := 0#64, actPri := s.cx.act.pri }
          main (s.onMe (fun c => { c with outbox := c.outbox ++ [e] })) e))

/-- SPAWN (R354, R355). -/
def execSpawn (d a b : BitVec 5) (s : State) : Answer := .next (s.spawn d a b)

/-! ## AQ and LAUNCH -/

/-- AQ (R61, R297): g[d] is the descriptor, and the answer comes later. -/
def execAq (d a b : BitVec 5) (s : State) : Answer :=
  let q := s.cx.rg d
  let op := fld q.toNat 21 3
  let va := addrOf (s.cx.rg a) 0#64
  let k : Access := if op = 0 then .read else .write
  .next (
    if q.toNat / 2 ^ 24 ≠ 0 || 3 < op || q.toNat % 8 ≠ 0 then s.trapPlain .illegal
    else if inWindow va then s.trap (faultAt .window va k 0#3)
    else if va % 8 ≠ 0 then s.trap (faultAt .align va k 0#3)
    else s.withPage va k (fun s xl =>
      if xl.region = .host && op = 2 then s.trap (faultAt .atomicPath va .write 0#3)
      else s.afterRel (relKey (.paged xl)) 8 (fun s =>
        let sc := s.scopeOfHome s.meId xl false
        s.withLineRoom xl.pa (some sc) (fun s =>
          s.withLog { type := 3, size := 3, addr := some (BitVec.ofNat 64 va), dirty := true, aq := true
                      body := leBytesOf 8 (s.cx.rg b).toNat ++ leBytesOf 8 (q ||| (1#64 <<< 63)).toNat } (fun s =>
            let r := s.reqOf s.meId s.me.cur
            (((s.dirty.purgeLine xl).countWrite r sc).sendPacket 0#2 r.pri (.aqReq r xl va q (s.cx.rg b) sc)).retire 1)))))

/-- LAUNCH (R73): a post of the record at g[a], or with b notices to a launch id. DESIGN CHOICE: a record address in the window range, for which R73
lists no fault, is checked at issue as a load there is (R103), so that a malformed one or a closed self area raises WINDOW; any other is held, and
the launch unit does not walk it (R156; log entry 117). -/
def execLaunch (a b : BitVec 5) (s : State) : Answer :=
  let x := s.cx.rg a
  let n := s.cx.rg b
  let va := addrOf x 0#64
  .next (
    if b = 0#5 then
      if va % 128 ≠ 0 then s.trap (faultAt .align va .read 0#3)
      else s.withTarget va 1 .read false (fun s _ =>
        s.hold (.post (BitVec.ofNat 64 va)) 0#64 (BitVec.ofNat 64 (va / 128)) [] [] s.cx.act.pri)
    else if n.toNat / 65536 ≠ 0 || x.toNat / 4096 ≠ 0 || x.toNat = 0 then s.trapPlain .illegal
    else if n.toNat = 0 then s.retire 1
    else s.hold (.notice x.toNat n.toNat) 0#64 (BitVec.ofNat 64 (2 ^ 52 + n.toNat * 4096 + x.toNat)) [] [] s.cx.act.pri)

end Sys2Proof.Machine
end

