-- ==== Sys2Proof/Machine/Task.lean ====
section
/-! DEFINITION. The meanings of the task instructions: CNTSET, CNTADD and CNTWAIT (R53, R306 to R308), EXIT and CONTAIN (R309,
R318), YIELD (R378), GBAR and GRED (R325 to R328). -/
namespace Sys2Proof.Machine

/-! ## Counters -/

/-- Go on for a join counter; a pipe counter is ILLEGAL (R53). -/
def State.withJoin (s : State) (c : BitVec 5) (f : State → Counter → State) : State :=
  let k := s.me.counters[c.toNat]
  if k.pipe then s.trapPlain .illegal else f s k

/-- Replace a counter of the issuing core. -/
def State.putCounter (s : State) (c : BitVec 5) (k : Counter) : State :=
  s.onMe (fun m => ({ m with counters := m.counters.set c.toNat k } : Core).counterMoved)

/-- CNTSET (R307). -/
def execCntset (a b c : BitVec 5) (s : State) : Answer :=
  let n := s.cx.rg a
  let t := s.cx.rg b
  .next (s.withJoin c (fun s k =>
    if n.toNat / 65536 ≠ 0 || 252 ≤ t.toNat / 2 ^ 56 then s.trapPlain .illegal
    else
      let s1 := s.putCounter c { k with count := n.toNat, b := true, e := false, handler := BitVec.ofNat 8 (t.toNat / 2 ^ 56)
                                        arg := BitVec.ofNat 56 t.toNat }
      (if n = 0#64 then s1.onMe (fun m => m.fire c) else s1).retire 1))

/-- The counter after CNTADD, and whether its bound task is queued (R306). -/
def cntAdd (k : Counter) (m : Int) : Counter × Bool :=
  let v : Int := k.count + m
  if 65535 < v then ({ k with count := 65535, e := true }, false)
  else if v < 0 then ({ k with count := 0, e := true, b := false }, false)
  else ({ k with count := v.toNat }, decide (m < 0) && decide (v = 0) && k.b)

/-- The word that CNTADD returns. -/
def Counter.word (k : Counter) : Word :=
  BitVec.ofNat 64 (k.count + (if k.b then 65536 else 0) + (if k.e then 131072 else 0))

/-- CNTADD (R306): the counter's state afterwards. -/
def execCntadd (d a c : BitVec 5) (s : State) : Answer :=
  .next (s.withDest d (fun s => s.withJoin c (fun s k =>
    let (k1, fires) := cntAdd k (s.cx.rg a).toInt
    let s1 := s.putCounter c k1
    let s2 := if fires then s1.onMe (fun m => m.fire c) else s1
    s2.finish d (s2.me.counters[c.toNat].word) 1)))

/-- CNTWAIT (R308): an acquire at mod when the count is 0. -/
def execCntwait (d c : BitVec 5) (s : State) : Answer :=
  .next (s.withDest d (fun s => s.withJoin c (fun s k =>
    if k.count = 0 then (s.acquireLines s.meId s.me.cur 2#2).waitEnd d 0 none
    else if s.cx.timedOut then s.waitEnd d 1 (some .waitTimeout)
    else s.await (.counterZero c) true 0)))

/-! ## EXIT, CONTAIN and YIELD -/

/-- A clean end of the issuing activation (R318): its pail is freed and the context becomes free. -/
def State.cleanEnd (s : State) : State :=
  (s.onMe (fun c => c.freeActPail (c.ctx c.cur).act)).endActivation s.meId s.me.cur

/-- EXIT (R318). -/
def execExit (s : State) : Answer := .next (s.withContain 7 State.cleanEnd)

/-- CONTAIN (R309). -/
def execContain (s : State) : Answer := .next (s.withContain 6 (fun s => s.retire 1))

/-- The other contexts of the core that are ready. -/
def Core.readyOthers (c : Core) (k : CtxId) : BitVec 4 :=
  allCtx.foldl (fun m j => if j ≠ k && (c.ctx j).st = .ready then m ||| (1#4 <<< j.toNat) else m) 0#4

/-- YIELD (R378): the context waits for each ready one to issue once. -/
def execYield (s : State) : Answer :=
  .next ((s.onCx (fun x => { x with yieldOn := s.me.readyOthers s.me.cur })).retire 1)

/-! ## Groups -/

/-- The narrowest scope that holds every member of a group (R144). -/
def groupScope (members : List CoreId) : Scope :=
  members.foldl (fun a m => Scope.max a (scopeOf (members.headD 0#20) m)) 0#2

/-- The members of a group on a die (R86). -/
def Group.membersOn (g : Group) (die : Nat) : List CoreId := g.members.filter (fun m => dieOf m = die)

/-- The dies on which a group is present, lowest first. -/
def Group.dies (g : Group) : List Nat := (List.range 32).filter (fun d => g.members.any (fun m => dieOf m = d))

/-- The group's home slice on a die: the slice of its lowest-rank member there (R86). -/
def Group.homeSlice (g : Group) (die : Nat) : CoreId := ((g.membersOn die).head?.map clusterOf).getD 0#20

/-- The root of the group's tree: its lowest die (R86). -/
def Group.root (g : Group) : Nat := g.dies.headD 0

/-- A die's parent in the group's tree. DESIGN CHOICE: every other die is a child of the root, since R86 fixes the root alone (log
entry 98). -/
def Group.parent (g : Group) (die : Nat) : Option Nat := if die = g.root then none else some g.root

/-- A die's children in the group's tree (R86; log entry 98). -/
def Group.children (g : Group) (die : Nat) : List Nat := if die = g.root then g.dies.filter (· ≠ die) else []

/-- Whether a core has an arrival at a group that is counted or on its way (R326). -/
def State.arrivalOut (s : State) (g : Group) (core : CoreId) : Bool :=
  g.arrivals.any (fun a => g.members[a.1]? = some core)
  || s.net.any (fun p => match p.body with
    | .arrive _ gang id _ r slot _ _ => gang = g.gang && id = g.id && slot.toNat = g.slot && r.core = core
    | .episode r slot _ => r.core = core && slot.toNat = g.slot
    | _ => false)

/-- Change a group. -/
def State.onGroup (s : State) (g : Group) (f : Group → Group) : State :=
  { s with groups := s.groups.map (fun x => if x.gang = g.gang && x.id = g.id && x.slot = g.slot && x.members = g.members then f x else x) }

/-- Withdraw the arrival of the issuing context (R326): whether it could be withdrawn, being counted in an incomplete episode. One that
is still on its way to the home is looked at there first, and a completion on its way ends the instruction as if it had not timed out. -/
def State.withdrawArrival (s : State) (slot : BitVec 2) : State × Bool :=
  let me := s.meId
  let coming := s.net.any (fun p => match p.body with
    | .arrive _ _ _ _ r sl _ _ | .episode r sl _ => r.core = me && r.ctx = s.me.cur && sl = slot
    | _ => false)
  if coming then (s, false)
  else match s.groupAt me slot.toNat with
    | none => (s, true)
    | some g =>
      (s.onGroup g (fun g =>
        let l := g.arrivals.filter (fun a => g.members[a.1]? ≠ some me)
        { g with arrivals := l, kind := if l.isEmpty then none else g.kind }), true)

/-- Arrive at the group of a slot with a kind and an operand, and end as the episode ends (R325 to R327): `passed` takes the
result, `short` the timeout. A group that is unbound during the arrival's release ends it as a timeout (R326). -/
def State.arriveAt (s : State) (slot : BitVec 2) (kind : Nat) (operand : Word) (passed : State → Word → State)
    (short : State → State) : State :=
  if s.cx.op.phase = 9 then
    match s.cx.op.status with
    | some 0 => passed (s.acquireLines s.meId s.me.cur (BitVec.ofNat 2 s.cx.op.aux)) (s.cx.op.result.getD 0#64)
    | some 2 => s.trapPlain .illegal
    | some _ => short s
    | none =>
      if s.cx.timedOut then
        (match s.withdrawArrival slot with
         | (s1, true) => short s1
         | (s1, false) => s1.await (.group slot) true 9)
      else s.await (.group slot) true 9
  else match s.groupAt s.meId slot.toNat with
    | none => if s.cx.op.phase = 1 then short s else s.trapPlain .illegal
    | some g =>
      if s.arrivalOut g s.meId then s.trapPlain .illegal
      else
        let sc := groupScope g.members
        s.withRelease sc 1 (fun s =>
          let rank := (g.members.findIdx? (· = s.meId)).getD 0
          let s1 := s.onCx (fun x => { x with op := { x.op with aux := sc.toNat } })
          (s1.sendPacket 0#2 s1.cx.act.pri (.arrive (g.homeSlice (dieOf s1.meId)) g.gang g.id rank (s1.reqOf s1.meId s1.me.cur) slot kind operand)).await
            (.group slot) true 9)

/-- GBAR (R325). -/
def execGbar (d : BitVec 5) (slot : BitVec 2) (s : State) : Answer :=
  .next (s.withDest d (fun s =>
    s.arriveAt slot 0 0#64 (fun s _ => s.waitEnd d 0 none) (fun s => s.waitEnd d 1 (some .waitTimeout))))

/-- GRED (R327): no status register, so a timeout traps. -/
def execGred (d a : BitVec 5) (op : BitVec 3) (slot : BitVec 2) (s : State) : Answer :=
  .next (s.withDest d (fun s =>
    s.arriveAt slot (1 + op.toNat) (s.cx.rg a) (fun s v => s.finish d v 1) (fun s => s.trapPlain .waitTimeout)))

end Sys2Proof.Machine
end

