-- ==== Sys2Proof/Machine/GroupConfig.lean ====
section
/-! DEFINITION. The meaning of GRPCFG (R329, R330): binding and unbinding groups on the membership slots 2 and 3, with the group
ids of R85. -/
namespace Sys2Proof.Machine

/-- The group ids in use on a die (R85). -/
def State.idsOn (s : State) (die : Nat) : List Nat :=
  (s.groups.filter (fun g => g.members.any (fun m => dieOf m = die))).map (·.id)

/-- The lowest id that is free on every die of some members (R85, R330). -/
def State.freeId (s : State) (members : List CoreId) : Option Nat :=
  let used := (distinct (members.map dieOf)).flatMap s.idsOn
  (List.range 256).find? (fun i => !used.contains i)

/-- The GRP word of a member (R86). -/
def groupWord (size rank id : Nat) : Word := BitVec.ofNat 64 (2 ^ 63 + size * 2 ^ 40 + rank * 2 ^ 20 + id)

/-- Set a membership slot of a core. -/
def Core.setGrp (c : Core) (slot : Nat) (w : Word) : Core :=
  if h : slot < 4 then { c with grp := c.grp.set slot w } else c

/-- Set the slot of every member of a group from rank `i` on (R330). -/
def State.bindSlots (s : State) (slot size id : Nat) : Nat → List CoreId → State
  | _, [] => s
  | i, m :: r => State.bindSlots (s.onCore m (fun c => c.setGrp slot (groupWord size i id))) slot size id (i + 1) r

/-- End every waiting arrival of a group as a timeout (R326, R330). -/
def State.endArrivals (s : State) (g : Group) : State :=
  let out := s.net.filterMap (fun p => match p.body with
    | .arrive _ gang id _ r sl _ _ => if gang = g.gang && id = g.id && sl.toNat = g.slot && g.members.contains r.core then some r else none
    | _ => none)
  let waiting : List Req := g.arrivals.map (·.2.1)
  let s1 := { s with net := s.net.filter (fun p => match p.body with
    | .arrive _ gang id _ r sl _ _ => !(gang = g.gang && id = g.id && sl.toNat = g.slot && g.members.contains r.core)
    | _ => true) }
  (waiting ++ out).foldl (fun s r => s.answer r (fun o => { o with status := some 1 })) s1

/-- The loss of a member of a gang ends every waiting arrival of its groups as a timeout (R326). -/
def State.endEpisodes (s : State) (gang : Nat) : State :=
  (s.groups.filter (fun g => g.gang = gang)).foldl (fun s g => (s.endArrivals g).onGroup g (fun g => { g with kind := none, arrivals := [] })) s

/-- Unbind a group at every member, end its arrivals and free its id (R330). -/
def State.dropGroup (s : State) (g : Group) : State :=
  let s1 := g.members.foldl (fun s m => s.onCore m (fun c => c.setGrp g.slot 0#64)) (s.endArrivals g)
  { s1 with groups := s1.groups.filter (fun x => !(x.gang = g.gang && x.id = g.id && x.slot = g.slot && x.members = g.members)) }

/-- The status of a bind, and its effect (R330). -/
def State.groupBind (s : State) (slot gang : Nat) (cores : List CoreId) (l : List Word) : State × Nat :=
  let ms := l.map coreIn
  if l.any notCoreWord then (s, 4)
  else if ms.any (fun m => !cores.contains m) || (distinct ms).length ≠ ms.length then (s, 2)
  else if ms.any (fun m => (((s.core m).grp.toList[slot]?).getD 0#64).getLsbD 63) then (s, 3)
  else match s.freeId ms with
    | none => (s, 1)
    | some id =>
      ({ (s.bindSlots slot ms.length id 0 ms) with groups := s.groups ++ [{ gang := gang, id := id, slot := slot, members := ms }] }, 0)

/-- GRPCFG (R329, R330): the release at mod, the block, and for a bind the member list. -/
def execGrpcfg (d a : BitVec 5) (slot : BitVec 2) (s : State) : Answer :=
  let va := addrOf (s.cx.rg a) 0#64
  .next (
    if slot.toNat < 2 then s.trapPlain .illegal
    else s.withDest d (fun s => s.withRelease 2#2 1 (fun s =>
      if va % 64 ≠ 0 then s.trap (faultAt .align va .read 0#3)
      else s.gather va 8 0 8 (fun s b =>
        let w (i : Nat) : Word := (b[i]?).getD 0#64
        let n := (w 0).toNat % 2 ^ 20
        let gang := s.me.gang.getD 0
        let cores := ((s.gang? gang).elim [] (·.members)).map (·.core)
        let bad := (w 0).toNat / 2 ^ 20 ≠ 0 || (List.range 6).any (fun i => w (i + 2) ≠ 0#64) || cores.length < n
        if bad then s.finish d 4#64 1
        else if n = 0 then
          match s.groupAt s.meId slot.toNat with
          | none => s.finish d 3#64 1
          | some g => (s.dropGroup g).finish d 0#64 1
        else s.gather (addrOf (w 1) 0#64) n 8 n (fun s l =>
          let (s1, st) := s.groupBind slot.toNat gang cores l
          s1.finish d (BitVec.ofNat 64 st) 1)))))

end Sys2Proof.Machine
end

