-- ==== Sys2Proof/Machine/Lifeguard.lean ====
section
/-! DEFINITION. The meanings of LGBIND (R219 to R221, R336), LGNEXT (R226), LGVERD (R227, R337) and LGSTAT (R228). -/
namespace Sys2Proof.Machine

/-! ## LGBIND -/

/-- Status 3 of a bind (R220). DESIGN CHOICE: it is also the status for a replay buffer whose address or size is no multiple of 64 with D = 1 (R220
names no status for it; log entry 124). -/
def lgBlockBad (w : Nat → Word) : Bool :=
  let n (i : Nat) : Nat := (w i).toNat
  let rsz := n 2 % 16
  let lag := fld (n 3) 16 14
  let d := (w 2).getLsbD 9
  notCoreWord (w 0) || n 1 / 2 ^ 52 ≠ 0 || fld (n 1) 15 17 ≠ 0
  || fld (n 2) 4 4 ≠ 0 || n 2 / 2 ^ 10 ≠ 0 || rsz < 9 || 13 < rsz
  || n 3 / 2 ^ 30 ≠ 0 || lag < 64 || 2 ^ rsz < lag
  || n 1 % 2 ^ 15 % 2 ^ rsz ≠ 0
  || (if d then n 4 % 64 ≠ 0 || n 5 % 64 ≠ 0 else n 4 ≠ 0 || n 5 ≠ 0)
  || n 6 ≠ 0 || n 7 ≠ 0

/-- Whether a core is in a binding in any role (R219). -/
def State.isBound (s : State) (c : CoreId) : Bool := s.bindings.any (fun b => b.worker = c || b.guard = c)

/-- Whether every line of a ring is one that PIN has pinned (R220, status 4). -/
def Core.ringPinned (c : Core) (off len : Nat) : Bool :=
  off + len ≤ 0x7000 && (List.range (len / 64)).all (fun i => c.pinBy.getLsbD (off / 64 + i))

/-- The binding that a block describes (R220). -/
def bindingOf (w : Nat → Word) : Binding :=
  { worker := coreIn (w 0), guard := coreIn (w 1), ringOff := (w 1).toNat % 2 ^ 15, rsz := (w 2).toNat % 16
    p := (w 2).getLsbD 8, d := (w 2).getLsbD 9, filter := BitVec.ofNat 16 (w 3).toNat, lag := fld (w 3).toNat 16 14
    bufVa := w 4, bufLen := w 5 }

/-- The status of a bind, and the binding where it is 0 (R220). -/
def State.lgBind (s : State) (w : Nat → Word) : State × Nat :=
  let b := bindingOf w
  let owned (c : CoreId) : Bool := (s.ownerOf c).map (·.id) = some (s.tenantNo s.meId)
  if lgBlockBad w then (s, 3)
  else if !owned b.worker || !owned b.guard || b.worker = b.guard then (s, 1)
  else if s.isBound b.worker || s.isBound b.guard then (s, 2)
  else if !(s.core b.guard).ringPinned b.ringOff (2 ^ b.rsz) then (s, 4)
  else if allCtx.any (fun k => (s.ctxAt b.worker k).st ≠ .free) then (s, 5)
  else
    let s1 := s.onCore b.guard (fun c => { c with ringOff := b.ringOff, ringLen := 2 ^ b.rsz })
    ({ s1 with bindings := s1.bindings ++ [b] }, 0)

/-- The status of an unbind (R220, R221). -/
def State.lgUnbind (s : State) (w : Word) : State × Nat :=
  let c := coreIn w
  if notCoreWord w then (s, 3)
  else if (s.ownerOf c).map (·.id) ≠ some (s.tenantNo s.meId) then (s, 1)
  else match s.workerBinding c with
    | none => (s, 2)
    | some b => (s.endBinding b, 0)

/-- LGBIND (R220, R336): supervisor only; a release at mod, the block, then the status. -/
def State.lgbind (s : State) (d a : BitVec 5) (n : Nat) (serve : State → (Nat → Word) → State × Nat) : State :=
  let va := addrOf (s.cx.rg a) 0#64
  s.withPriv (fun s => s.withDest d (fun s =>
    if va % 64 ≠ 0 then s.trap (faultAt .align va .read 0#3)
    else s.withRelease 2#2 1 (fun s => s.gather va n 0 n (fun s b =>
      let (s1, st) := serve s (fun i => (b[i]?).getD 0#64)
      s1.finish d (BitVec.ofNat 64 st) 1))))

/-- LGBIND bind (R220). -/
def execLgbindBind (d a : BitVec 5) (s : State) : Answer := .next (s.lgbind d a 8 State.lgBind)

/-- LGBIND unbind (R220): only offset 0x00 is read. -/
def execLgbindUnbind (d a : BitVec 5) (s : State) : Answer := .next (s.lgbind d a 1 (fun s w => s.lgUnbind (w 0)))

/-! ## LGNEXT -/

/-- A decoded record (R223, R226): the bytes it takes with the PAD before it, its type, its address, and what g2, g3, g4 and
g6 receive. -/
structure RecordView where
  used : Nat
  type : Nat
  addr : Option Word := none
  g2 : Word := 0#64
  g3 : Word := 0#64
  g4 : Word := 0#64
  g6 : Word := 0#64
  deriving DecidableEq, Repr

/-- Decode the record at a ring position (R223, R226); `aq` says that the log unit wrote it for an AQ. -/
def Binding.view (b : Binding) (m : Memory) (aq : Bool) : RecordView :=
  let size := 2 ^ b.rsz
  let byte (i : Nat) : Nat := (m.get (b.ringOff + i % size)).toNat
  let skip := if byte b.rp / 16 = 15 then 64 - b.rp % 64 else 0
  let at_ := b.rp + skip
  let val (off n : Nat) : Nat := leOf ((List.range n).map (fun i => m.get (b.ringOff + (at_ + off + i) % size)))
  let h := byte at_
  let type := h / 16
  let mode := h / 4 % 4
  let sz := 2 ^ (h % 4)
  let p := if b.p then 4 else 0
  let pc : Word := if b.p then BitVec.ofNat 64 (val 1 4) else 0#64
  let o := 1 + p
  let alen := match mode with | 0 => 0 | 1 => 1 | 2 => 2 | _ => 8
  let addr : Word := if mode = 3 then BitVec.ofNat 64 (val o 8) else b.readBase + (if alen = 0 then 0#64 else sextBytes alen (val o alen))
  let w (off n : Nat) : Word := BitVec.ofNat 64 (val off n)
  let r (len : Nat) (g2 g3 g6 : Word) (a : Option Word) : RecordView :=
    { used := skip + len, type := type, addr := a, g2 := g2, g3 := g3, g4 := pc, g6 := g6 }
  match type with
  | 0 | 4 | 5 => r (o + 8) 0#64 (w o 8) 0#64 none
  | 1 => if b.d then r (o + alen + sz) addr (w (o + alen) sz) 0#64 (some addr) else r (o + alen) addr 0#64 0#64 (some addr)
  | 2 => r (o + alen + sz) addr (w (o + alen) sz) 0#64 (some addr)
  | 3 =>
    if aq then r (o + alen + 16) addr (w (o + alen) 8) (w (o + alen + 8) 8) (some addr)
    else if b.d then r (o + alen + 2 * sz) addr (w (o + alen) sz) (w (o + alen + sz) sz) (some addr)
    else r (o + alen + sz) addr (w (o + alen) sz) 0#64 (some addr)
  | 8 => r (o + 9) (w (o + 1) 8) (w o 1) 0#64 none
  | 9 => r (o + 4) 0#64 (sextBytes 4 (val o 4)) 0#64 none
  | _ => r (o + 4) 0#64 (w o 4) 0#64 none

/-- Whether an activation may write several registers one after another (R34). -/
def Context.mayAll (x : Context) : List (BitVec 5) → Bool
  | [] => true
  | d :: r => x.mayG d && Context.mayAll (x.setG d 0#64) r

/-- Deliver a record to its reader: the registers, the read pointer and the jump (R226). -/
def State.deliverRecord (s : State) (b : Binding) (v : RecordView) (d : BitVec 5) (target : Word) : State :=
  let size := 2 ^ b.rsz
  let rp := (b.rp + v.used) % size
  let s1 := s.onBinding b.worker (fun x =>
    { x with rp := rp, readTotal := x.readTotal + v.used, lastDel := x.nextDel, nextDel := (x.nextDel + 1) % 2 ^ 32
             readBase := v.addr.getD (if v.type = 0 then 0#64 else x.readBase)
             history := x.history.dropWhile (fun h => h.seq ≠ x.nextDel) })
  let s2 := s1.sendPacket 1#2 s1.cx.act.pri (.readPointer b.worker rp (b.readTotal + v.used))
  let s3 := s2.onCx (fun x =>
    ((((((x.setG 1#5 (BitVec.ofNat 64 v.type)).setG 2#5 v.g2).setG 3#5 v.g3).setG 4#5 v.g4).setG 5#5 (BitVec.ofNat 64 b.nextDel)).setG 6#5
      v.g6).setG d 0#64)
  s3.retireTo target

/-- LGNEXT (R226). -/
def execLgnext (d : BitVec 5) (s : State) : Answer :=
  let me : CtxId × Nat := (s.me.cur, s.cx.act.serial)
  .next (
    if (1 ≤ d.toNat && d.toNat ≤ 6) || s.me.cur = 3#2 then s.trapPlain .illegal
    else s.withDest d (fun s =>
      match s.guardBinding s.meId with
      | none => s.waitEnd d 2 none
      | some b =>
        if b.reader.any (· ≠ me) then s.trapPlain .illegal
        else
          let s := s.onBinding b.worker (fun x => { x with reader := some me })
          if b.readTotal = b.shown then
            (if s.cx.timedOut then s.waitEnd d 1 (some .waitTimeout) else s.await .ring true 0)
          else
            let aq := (b.history.find? (fun h => h.seq = b.nextDel)).any (·.aq)
            let v := b.view s.me.localMem aq
            let at_ := s.cx.lgtbase + BitVec.ofNat 64 (8 * v.type)
            if !s.cx.mayAll [1#5, 2#5, 3#5, 4#5, 5#5, 6#5, d] then s.trapPlain .illegal
            else
              let s1 := if s.cx.op.phase = 0 then
                  (s.acquireLines s.meId s.me.cur (scopeOf b.worker b.guard)).onCx (fun x => { x with op := { x.op with phase := 1 } })
                else s
              s1.load (addrOf at_ 0#64) 8 .plain (fun s t => s.deliverRecord b v d (BitVec.ofNat 64 t))))

/-! ## LGVERD and LGSTAT -/

/-- The status of a verdict on a record (R227); before the first delivery no record has been delivered. -/
def Binding.verdict (b : Binding) (n : Nat) (fail : Bool) : Nat :=
  if b.readTotal = 0 || seqDist b.lastDel < seqDist n then 1
  else if !fail then 0
  else if covers b.sent n then 3
  else if n = b.lastDel then 0
  else 2

/-- LGVERD (R227, R337). -/
def execLgverd (d a b : BitVec 5) (s : State) : Answer :=
  let g := s.cx.rg b
  let n := (s.cx.rg a).toNat % 2 ^ 32
  .next (
    match s.guardBinding s.meId with
    | none => s.trapPlain .illegal
    | some bd =>
      if 1 < g.toNat || bd.reader ≠ some (s.me.cur, s.cx.act.serial) then s.trapPlain .illegal
      else s.withDest d (fun s =>
        let st := bd.verdict n (g = 1#64)
        let s1 :=
          if st ≠ 0 then s
          else if g = 1#64 then s.sendPacket 1#2 s.cx.act.pri (.verdict bd.worker n
            (some ((bd.history.find? (fun h => h.seq = n)).getD { seq := n, type := 0, pc := 0#64, addr := 0#64, dirty := false })))
          else if covers bd.sent n then s
          else (s.onBinding bd.worker (fun x => { x with sent := some n })).sendPacket 1#2 s.cx.act.pri (.verdict bd.worker n none)
        s1.finish d (BitVec.ofNat 64 st) 1))

/-- The two words of LGSTAT (R228). -/
def State.lgStat (s : State) (n : BitVec 5) : Word :=
  let mk (b : Binding) (guard : Bool) : Word :=
    if n = 0#5 then
      BitVec.ofNat 64 ((if guard then b.nextDel else b.nextLog) * 2 ^ 32 + b.wp * 2 ^ 16 + (if guard then b.rp else b.rpSeen))
    else
      headerForm (if guard then b.worker else b.guard) |||
        BitVec.ofNat 64 ((if guard then 2 ^ 63 else 2 ^ 62) + (if b.ovf then 2 ^ 61 else 0) + ((if guard then b.sent else b.pass).getD 0))
  match s.guardBinding s.meId, s.workerBinding s.meId with
  | some b, _ => mk b true
  | none, some b => mk b false
  | none, none => 0#64

/-- LGSTAT (R228). -/
def execLgstat (d n : BitVec 5) (s : State) : Answer := .next (s.result d (s.lgStat n))

end Sys2Proof.Machine
end

