-- ==== Sys2Proof/Machine/Image.lean ====
section
/-! DEFINITION. Launch records and program images: their fields, the checks of R82 in order, and the layout of a member's local
memory (R48, R78 to R82, R107, R258, R261, R274, R275). -/
namespace Sys2Proof.Machine

/-! ## The fields of a record (R78 to R81) -/

/-- A doubleword of the record. -/
def LaunchRec.w (r : LaunchRec) (i : Nat) : Nat := ((r.dw[i]?).getD 0#64).toNat
/-- The number of groups. -/
def LaunchRec.groups (r : LaunchRec) : Nat := fld (r.w 1) 32 8
/-- The number of pipes. -/
def LaunchRec.pipes (r : LaunchRec) : Nat := fld (r.w 1) 40 8
/-- The launch id that receives a notice at completion. -/
def LaunchRec.succ (r : LaunchRec) : Nat := fld (r.w 1) 20 12
/-- LGT: apply the tenant's lifeguard template. -/
def LaunchRec.lgt (r : LaunchRec) : Bool := (r.w 1).testBit 18
/-- AUTO: placement by cost. -/
def LaunchRec.auto (r : LaunchRec) : Bool := (r.w 1).testBit 17
/-- RST: restartable after a loss. -/
def LaunchRec.rst (r : LaunchRec) : Bool := (r.w 1).testBit 16
/-- The gang priority. -/
def LaunchRec.pri (r : LaunchRec) : BitVec 2 := BitVec.ofNat 2 (fld (r.w 1) 8 8)
/-- A group's descriptor. -/
def LaunchRec.group (r : LaunchRec) (k : Nat) : Nat := r.w (2 + k)
/-- The cores of a group. -/
def LaunchRec.count (r : LaunchRec) (k : Nat) : Nat := r.group k % 2 ^ 32
/-- Whether a group forms a ring. -/
def LaunchRec.ring (r : LaunchRec) (k : Nat) : Bool := (r.group k).testBit 40
/-- A group's entry handler: ENTRY plus HBASE modulo 256. -/
def LaunchRec.entry (r : LaunchRec) (k : Nat) : BitVec 8 := BitVec.ofNat 8 (r.w 1 + fld (r.group k) 32 8)
/-- Whether a die is allowed for a group. -/
def LaunchRec.allows (r : LaunchRec) (k die : Nat) : Bool :=
  !(r.group k).testBit 63 || (fld (r.group k) 48 5 ≤ die && die ≤ fld (r.group k) 53 5)
/-- A pipe's descriptor. -/
def LaunchRec.pipe (r : LaunchRec) (j : Nat) : Nat := r.w (6 + j)
/-- The producer group of a pipe. -/
def LaunchRec.prod (r : LaunchRec) (j : Nat) : Nat := fld (r.pipe j) 0 8
/-- The consumer group of a pipe. -/
def LaunchRec.cons (r : LaunchRec) (j : Nat) : Nat := fld (r.pipe j) 8 8
/-- log2 of a pipe's slot size. -/
def LaunchRec.lsz (r : LaunchRec) (j : Nat) : Nat := fld (r.pipe j) 16 8
/-- A pipe's slots. -/
def LaunchRec.slots (r : LaunchRec) (j : Nat) : Nat := fld (r.pipe j) 24 8
/-- A pipe's mode. -/
def LaunchRec.mode (r : LaunchRec) (j : Nat) : Nat := fld (r.pipe j) 32 8
/-- The named vats. -/
def LaunchRec.vats (r : LaunchRec) : List Nat := ((List.range 4).map (fun i => fld (r.w 10) (16 * i) 16)).filter (· ≠ 0xFFFF)
/-- The dependency count. -/
def LaunchRec.deps (r : LaunchRec) : Nat := fld (r.w 11) 0 16
/-- The launch id. -/
def LaunchRec.id (r : LaunchRec) : Nat := fld (r.w 11) 16 12
/-- The deadline in microseconds, 0 for none. -/
def LaunchRec.deadline (r : LaunchRec) : Nat := fld (r.w 11) 32 32
/-- The completion address, 0 for none. -/
def LaunchRec.done (r : LaunchRec) : Nat := r.w 12
/-- The cores of all groups. -/
def LaunchRec.total (r : LaunchRec) : Nat := ((List.range r.groups).map r.count).sum

/-! ## The checks on the record's own bytes -/

/-- Check 1 (R78, R79, R82): status 0x10. -/
def LaunchRec.bad10 (r : LaunchRec) : Bool :=
  r.w 0 % 4096 ≠ 0 || fld (r.w 1) 48 16 ≠ 0 || (r.w 1).testBit 19 || 4 < r.pipes || r.groups = 0 || 4 < r.groups
  || 3 < fld (r.w 1) 8 8 || r.w 14 ≠ 0 || r.w 15 ≠ 0 || fld (r.w 11) 28 4 ≠ 0 || (r.deps ≠ 0 && r.id = 0)
  || (List.range 4).any (fun k => if k < r.groups then fld (r.group k) 58 5 ≠ 0 || fld (r.group k) 41 7 ≠ 0 else r.group k ≠ 0)
  || (List.range 4).any (fun j => if j < r.pipes then fld (r.pipe j) 40 24 ≠ 0 else r.pipe j ≠ 0)

/-- Check 2 (R79, R80, R82): status 0x17. -/
def LaunchRec.bad17 (r : LaunchRec) : Bool :=
  (List.range r.groups).any (fun k =>
    r.count k = 0 || 663552 < r.count k || (!(r.group k).testBit 63 && !r.auto)
    || ((r.group k).testBit 63 && fld (r.group k) 53 5 < fld (r.group k) 48 5))
  || (r.lgt && (r.groups = 1 || r.count (r.groups - 1) ≠ r.count 0))

/-- Check 3 (R78, R82, R127): status 0x13. -/
def LaunchRec.bad13 (t : Tenant) (r : LaunchRec) : Bool := r.vats.any (fun v => (t.liveVat v).isNone)

/-- The bytes of slots that a member of a group consumes from (R81). -/
def LaunchRec.slotBytes (r : LaunchRec) (k : Nat) : Nat :=
  (((List.range r.pipes).filter (fun j => r.cons j = k)).map (fun j => r.slots j * 2 ^ r.lsz j)).sum

/-- Check 5 (R81, R82): status 0x14. -/
def LaunchRec.bad14 (r : LaunchRec) : Bool :=
  (List.range r.pipes).any (fun j =>
    1 < r.mode j || r.slots j = 0 || r.lsz j < 4 || 12 < r.lsz j || r.groups ≤ r.cons j || r.groups ≤ r.prod j
    || (if r.prod j = r.cons j then !r.ring (r.prod j) else r.count (r.prod j) ≠ r.count (r.cons j)))
  || (List.range r.groups).any (fun k => 16384 < r.slotBytes k)

/-! ## Program images (R274, R275) -/

/-- What a launch unit takes from an image. -/
structure Image where
  pcode : Nat
  sup : Bool
  htbase : Word
  handlers : List Handler
  regions : List Nat
  stack : Option Nat
  deriving DecidableEq, Repr

/-- Round up to a multiple. -/
def alignUp (a n : Nat) : Nat := (a + n - 1) / n * n

/-- Whether the header breaks its limits (R274). -/
def imageHeaderBad (h : Nat → Nat) : Bool :=
  h 0 ≠ 0x145444249 || h 1 / 8 ≠ 0 || h 1 % 4 = 3 || h 2 % 16 ≠ 0 || 256 < h 3 || h 4 % 8 ≠ 0 || h 5 / 65536 ≠ 0
  || (List.range 10).any (fun i => h (6 + i) ≠ 0) || (fld (h 5) 8 8 ≠ 0xFF && h 5 % 256 ≤ fld (h 5) 8 8)

/-- Whether an entry of the handler table breaks R48. -/
def handlerBad (pc hi : Nat) : Bool := hi / 65536 ≠ 0 || hi.testBit 14 || 8 < fld hi 8 4 || 31 < hi % 256 || pc % 4 ≠ 0

/-- The valid entries of a handler table from entry `i` on (R47). -/
def handlersOf : Nat → List Word → List Handler
  | i, pc :: hi :: r =>
    let h := hi.toNat
    if h.testBit 15 then
      { index := BitVec.ofNat 8 i, pc := pc, pri := BitVec.ofNat 2 (fld h 12 2), sregs := h % 256, tiles := fld h 8 4 }
        :: handlersOf (i + 1) r
    else handlersOf (i + 1) r
  | _, _ => []

/-- Whether any entry of a table breaks R48. -/
def tableBad : List Word → Bool
  | pc :: hi :: r => handlerBad pc.toNat hi.toNat || tableBad r
  | _ => false

/-- Read an image through a tenant's translation, in supervisor mode, by the unit on a die (R274): what it holds, or that it
breaks a limit, or the fault of the read. -/
def State.readImage (s : State) (tn die : Nat) (va : Word) : State × Except (Option UnitFault) Image :=
  match s.unitDwords tn die false (va.toNat % 2 ^ 57) 16 with
  | (s1, .error e) => (s1, .error (some e))
  | (s1, .ok l) =>
    let h (i : Nat) : Nat := ((l[i]?).getD 0#64).toNat
    if imageHeaderBad h then (s1, .error none)
    else match s1.unitDwords tn die false ((va.toNat + h 4) % 2 ^ 57) (h 5 % 256) with
      | (s2, .error e) => (s2, .error (some e))
      | (s2, .ok rt) => match s2.unitDwords tn die false ((va.toNat + h 2) % 2 ^ 57) (2 * h 3) with
        | (s3, .error e) => (s3, .error (some e))
        | (s3, .ok ht) =>
          if rt.any (fun w => w.toNat / 2 ^ 32 ≠ 0) || tableBad ht then (s3, .error none)
          else (s3, .ok { pcode := h 1 % 4, sup := (h 1).testBit 2, htbase := va + BitVec.ofNat 64 (h 2), handlers := handlersOf 0 ht
                          regions := rt.map (fun w => w.toNat), stack := if fld (h 5) 8 8 = 0xFF then none else some (fld (h 5) 8 8) })

/-! ## The layout of local memory (R42, R107) -/

/-- The pails that PCODE names (R42). -/
def pailsOf (pcode : Nat) : Nat := match pcode with | 0 => 16 | 1 => 8 | _ => 32

/-- Where a member's areas lie: the end of the reserved areas, the ring, the region area with the end of its last pinned line (R40), the stack
region and each pipe's slots. -/
structure Layout where
  pails : Nat
  ringOff : Nat
  regionOff : Nat
  regionEnd : Nat
  stack : Option (Nat × Nat)
  slots : List (Nat × Nat)
  deriving DecidableEq, Repr

/-- Lay regions out one after another, each rounded to 64 bytes; the second component is the end. -/
def layRegions : Nat → List Nat → List (Nat × Nat) × Nat
  | o, [] => ([], o)
  | o, z :: r => let (l, e) := layRegions (o + alignUp z 64) r; ((o, alignUp z 64) :: l, e)

/-- Lay pipe slots out, each pipe aligned to its slot size: pairs of pipe and offset, and the end. -/
def laySlots (r : LaunchRec) : Nat → List Nat → List (Nat × Nat) × Nat
  | o, [] => ([], o)
  | o, j :: js =>
    let b := alignUp o (2 ^ r.lsz j)
    let (l, e) := laySlots r (b + r.slots j * 2 ^ r.lsz j) js
    ((j, b) :: l, e)

/-- The layout of a member of a group; `ring` is the ring's size, 0 for none (R107). -/
def layoutOf (i : Image) (r : LaunchRec) (k ring : Nat) : Layout :=
  let reserved := 128 * pailsOf i.pcode + 2176
  let ringOff := if ring = 0 then 0 else alignUp reserved ring
  let o := alignUp (if ring = 0 then reserved else ringOff + ring) 64
  let (regs, o1) := layRegions o i.regions
  let (slots, o2) := laySlots r o1 ((List.range r.pipes).filter (fun j => r.cons j = k))
  { pails := pailsOf i.pcode, ringOff := ringOff, regionOff := o, regionEnd := alignUp o2 64, stack := i.stack.bind (fun n => regs[n]?), slots := slots }

/-- The ring's size for a member of a group under a template. -/
def ringSize (r : LaunchRec) (k : Nat) (tmpl : Nat → Word) : Nat :=
  if r.lgt && k + 1 = r.groups then 2 ^ ((tmpl 2).toNat % 16) else 0

/-- Check 7 (R82, R107): status 0x11. -/
def LaunchRec.layoutBad (r : LaunchRec) (i : Image) (tmpl : Nat → Word) : Bool :=
  (List.range r.groups).any (fun k => 0x7000 < (layoutOf i r k (ringSize r k tmpl)).regionEnd)

/-! ## The lifeguard template (R261) -/

/-- The part of the replay buffer that each binding takes (R261). -/
def replayShare (tmpl : Nat → Word) (count : Nat) : Nat := (tmpl 5).toNat / count / 64 * 64

/-- The template block of a tenant, if it keeps the limits (R220, R261). -/
def State.template (s : State) (t : Tenant) (count : Nat) : State × Option (Nat → Word) :=
  if !t.lgtempl.getLsbD 0 then (s, none)
  else
    let (s1, l, bad) := s.readPhysN t (fld t.lgtempl.toNat 6 46 * 64) 8
    let w (i : Nat) : Word := (l[i]?).getD 0#64
    (s1, if bad || w 0 ≠ 0#64 || w 1 ≠ 0#64 || lgBlockBad w || ((w 2).getLsbD 9 && replayShare w count = 0) then none else some w)

/-! ## All the checks (R82) -/

/-- What checks 4 to 7 answer: the image and the template, or a status. -/
inductive ImageCheck where
  | ok (i : Image) (tmpl : Nat → Word)
  | bad (status : Nat)

/-- Checks 4 to 7 (R48, R80, R81, R107, R258, R261, R274): an image that cannot be read gives a fault record besides. -/
def State.checkImage (s : State) (t : Tenant) (r : LaunchRec) : State × ImageCheck :=
  match s.readImage t.id t.homeDie (BitVec.ofNat 64 (r.w 0)) with
  | (s1, .error none) => (s1, .bad 0x11)
  | (s1, .error (some e)) =>
    (s1.reportTo t.id { cause := e.cause, flags := 0x10#8, w10 := r.va, w18 := BitVec.ofNat 64 e.addr }, .bad 0x11)
  | (s1, .ok i) =>
    let entryOk (k : Nat) : Bool := (r.entry k).toNat < 252 && i.handlers.any (fun h => h.index = r.entry k)
    if (i.sup && !r.supPost) || !(List.range r.groups).all entryOk then (s1, .bad 0x11)
    else if r.bad14 then (s1, .bad 0x14)
    else
      let (s2, tmpl) := if r.lgt then s1.template t (r.count 0) else (s1, some (fun _ => 0#64))
      match tmpl with
      | none => (s2, .bad 0x16)
      | some w => if r.layoutBad i w then (s2, .bad 0x11) else (s2, .ok i w)

/-- Checks 1 to 8 of a record (R82): the status of the first that fails, or 0. -/
def State.checkRecord (s : State) (t : Tenant) (r : LaunchRec) : State × Nat :=
  if r.bad10 then (s, 0x10)
  else if r.bad17 then (s, 0x17)
  else if r.bad13 t then (s, 0x13)
  else match s.checkImage t r with
    | (s1, .bad st) => (s1, st)
    | (s1, .ok _ _) => if s1.presentCount t < r.total then (s1, 0x12) else (s1, 0)

end Sys2Proof.Machine
end

