-- ==== Sys2Proof/Machine/Launch.lean ====
section
/-! DEFINITION. The home launch unit: posts and notices (R72 to R77, R82, R83), the pending table and the launch queue, fault records
(R170), and what ends a gang: aborts (R49), completion (R89, R279) and deadlines. -/
namespace Sys2Proof.Machine

/-! ## Status words and notices -/

/-- The count of a launch id (R83). -/
def Tenant.notes (t : Tenant) (id : Nat) : Nat := (assoc? id t.notices).getD 0

/-- A record whose count has been reached is marked with the step at which it was (R83). -/
def Tenant.markReached (t : Tenant) (tick : Nat) : Tenant :=
  { t with pending := t.pending.map (fun r => if r.reached = 0 && r.deps ≤ t.notes r.id then { r with reached := tick + 1 } else r) }

/-- The reached record that waits longest. -/
def firstReached (l : List LaunchRec) : Option LaunchRec :=
  (l.filter (fun r => r.reached ≠ 0)).foldl (fun b r => match b with
    | none => some r
    | some x => if r.reached < x.reached then some r else some x) none

/-- Records whose counts are reached enter the launch queue while it has places, in the order in which they were reached; each
lowers its count (R83). `n` bounds the records. -/
def Tenant.promote : Nat → Tenant → Tenant
  | 0, t => t
  | n + 1, t =>
    if 64 ≤ t.queue.length then t
    else match firstReached t.pending with
      | none => t
      | some r => Tenant.promote n
          { t with pending := t.pending.filter (fun x => x.key ≠ r.key), queue := t.queue ++ [r]
                   notices := assocSet r.id (t.notes r.id - r.deps) t.notices }

/-- Look at a tenant's pending table again. -/
def State.promote (s : State) (tn : Nat) : State := s.onTenant tn (fun t => Tenant.promote t.pending.length (t.markReached s.tick))

/-- Notices add to a launch id's count; id 0 has none, and a count beyond 65,535 saturates (R83). -/
def State.addNotices (s : State) (tn id n : Nat) : State :=
  if id = 0 then s
  else (s.onTenant tn (fun t =>
    let c := t.notes id + n
    { t with notices := assocSet id (Nat.min 65535 c) t.notices
             overflow := if 65535 < c then distinct (id :: t.overflow) else t.overflow })).promote tn

/-- The status word (R82). -/
def statusWord (r : LaunchRec) (time status : Nat) : Nat := time * 2 ^ 32 + r.id * 2 ^ 16 + r.restarts * 2 ^ 8 + status

/-- Write the status word to DONE, a release at sys (R82). -/
def State.writeStatus (s : State) (tn : Nat) (r : LaunchRec) (time status : Nat) : State :=
  match s.tenant tn with
  | none => s
  | some t => if r.done = 0 then s
    else (s.unitWrite tn t.homeDie false 2 (r.done % 2 ^ 57) (leBytesOf 8 (statusWord r time status))).1

/-- Reject a record (R82). -/
def State.reject (s : State) (tn : Nat) (r : LaunchRec) (status : Nat) : State := s.writeStatus tn r 0 status

/-- Complete a record: its status word, then its notice to SUCC (R82, R83). -/
def State.complete (s : State) (tn : Nat) (r : LaunchRec) (status : Nat) : State :=
  (s.writeStatus tn r (Nat.min (2 ^ 32 - 1) (Config.micros r.accepted s.tick)) status).addNotices tn r.succ 1

/-! ## Posts -/

/-- Whether RESET or DESTROY runs for a tenant: its doorbell writes are discarded and inbound peer requests refused (R252). -/
def Parlour.resetting (p : Parlour) (tenant : Nat) : Bool := (p.busy = some 2 || p.busy = some 3) && fld p.running[0].toNat 8 4 = tenant

/-- What a write to a tenant's launch doorbell does (R74): a post, notices, or a WINDOW record. DESIGN CHOICE: its packet has priority class 0
(R95 is silent; log entry 104). -/
def State.launchDoorbell (s : State) (tenant : Nat) (value : Word) : State :=
  let v := value.toNat
  if (s.tenant tenant).isNone || s.parlour.resetting tenant then s
  else if v.testBit 63 then
    (if fld v 48 15 = 0 && fld v 12 20 = 0 && v % 4096 ≠ 0 then
      s.sendPacket 2#2 0#2 (.notices tenant (v % 4096) (fld v 32 16) none)
     else s.reportBare tenant .window false 0#20 0#64 value)
  else if fld v 57 6 = 0 && v % 128 = 0 then s.sendPacket 2#2 0#2 (.post tenant value true none)
  else s.reportBare tenant .window false 0#20 0#64 value

/-- LAUNCH_DOORBELL (R74, R242). -/
def execLaunchDoorbell (tenant : Nat) (value : Word) (s : State) : Answer := .next (s.launchDoorbell tenant value)

/-- Answer the sender of a LAUNCH message; a doorbell has none. -/
def State.answerPost (s : State) (t : Tenant) (src : Option (CoreId × Nat)) (ok : Bool) : State :=
  match src with
  | none => s
  | some (c, slot) =>
    let u := launchUnit t.homeDie
    s.sendPacket 1#2 (s.slotPri c slot) (if ok then .accepted c slot u else .refused c slot u)

/-- A record that passed checks 1 to 8 is accepted into the pending table or the launch queue, or rejected by check 9 (R82,
R83). -/
def State.acceptRec (s : State) (t : Tenant) (r : LaunchRec) : State :=
  if r.id ≠ 0 && t.overflow.contains r.id then
    (s.onTenant t.id (fun t => { t with overflow := t.overflow.filter (· ≠ r.id) })).reject t.id r 0x15
  else if r.deps = 0 then s.onTenant t.id (fun t => { t with queue := t.queue ++ [r] })
  else if 256 ≤ t.pending.length || t.pending.any (fun x => x.id = r.id) then s.reject t.id r 0x15
  else (s.onTenant t.id (fun t => { t with pending := t.pending ++ [r] })).promote t.id

/-- Read and check a posted record (R82, R383). -/
def State.takePost (s : State) (t : Tenant) (va : Word) (sup : Bool) : State :=
  match s.unitDwords t.id t.homeDie false (va.toNat % 2 ^ 57) 16 with
  | (s1, .error e) => s1.reportTo t.id { cause := e.cause, flags := 0x10#8, w10 := va, w18 := BitVec.ofNat 64 e.addr }
  | (s1, .ok dw) =>
    let r : LaunchRec := { key := s1.nextKey, va := va, dw := dw, accepted := s1.tick, supPost := sup }
    let s2 := { s1 with nextKey := s1.nextKey + 1 }
    if r.done % 8 ≠ 0 then s2.reportBare t.id .align false 0#20 va (BitVec.ofNat 64 r.done)
    else
      let (s3, st) := s2.checkRecord t r
      if st ≠ 0 then s3.reject t.id r st
      else match s3.tenant t.id with
        | none => s3
        | some t' => s3.acceptRec t' r

/-- LAUNCH_POST (R76, R77, R82): a full launch queue refuses the message, and withholds the doorbell's. -/
def execLaunchPost (s : State) : Answer :=
  s.withPicked (fun p => match p.body with
    | .post tn va sup src =>
      match s.tenant tn with
      | none => s.dropPacket p.id
      | some t =>
        if 64 ≤ t.queue.length then (if src.isNone then s else (s.dropPacket p.id).answerPost t src false)
        else s.attempt (fun s => ((s.dropPacket p.id).answerPost t src true).takePost t va sup)
    | _ => s)

/-- LAUNCH_NOTICE (R76, R83): notices are never refused. -/
def execLaunchNotice (s : State) : Answer :=
  s.withPicked (fun p => match p.body with
    | .notices tn id n src =>
      match s.tenant tn with
      | none => s.dropPacket p.id
      | some t => ((s.dropPacket p.id).answerPost t src true).addNotices tn id n
    | _ => s)

/-! ## Fault records -/

/-- The four doublewords of a fault record (R170). -/
def FaultRec.words (r : FaultRec) (seq : BitVec 32) (drop : BitVec 16) : List Word :=
  [ BitVec.ofNat 64 (seq.toNat * 2 ^ 32 + causeCode r.cause * 2 ^ 24 + r.flags.toNat * 2 ^ 16 + drop.toNat)
  , headerForm r.core ||| r.low8.setWidth 64, r.w10, r.w18 ]

/-- FAULT_RECORD (R170): the next record is written at its slot, or discarded and counted. -/
def execFaultRecord (tenant : Nat) (s : State) : Answer :=
  .next (match s.tenant tenant with
    | none => s
    | some t => match t.records with
      | [] => s
      | r :: rest =>
        let s1 := s.onTenant tenant (fun t => { t with records := rest })
        let lost (s : State) : State :=
          s.onTenant tenant (fun t => { t with drop := if t.drop = 0xFFFF#16 then t.drop else t.drop + 1#16 })
        let size := t.faultq.toNat % 32
        if size = 0 then lost s1
        else
          let seq := t.faultSeq + 1#32
          let slot := fld t.faultq.toNat 12 40 * 4096 + 32 * (t.faultSeq.toNat % 2 ^ size)
          let (s2, w, _) := s1.readPhys t slot
          if w ≠ 0#64 then lost s2
          else (s2.onTenant tenant (fun t => { t with faultSeq := seq, drop := 0#16 })).performPhys t slot (r.words seq t.drop))

/-! ## Gang abort -/

/-- A context without the copy commands whose hand-back task is dropped (R49, R173). -/
def Context.dropHandbacks (x : Context) : Context := { x with cq := x.cq.filter (fun q => !q.handed) }

/-- The queued tasks of a core's gang are dropped: pails are freed, bound counters lose B, and what a dropped hand-back stood for
leaves its copy queue (R49). -/
def Core.dropQueued (c : Core) : Core :=
  let c1 := c.runq.foldl (fun c t => match t.place with
    | .pail i => c.freePail i
    | _ => c) c
  { c1 with runq := [], svcq := [], dropTasks := true, counters := c1.counters.map (fun k => { k with b := false })
            ctx0 := c1.ctx0.dropHandbacks, ctx1 := c1.ctx1.dropHandbacks, ctx2 := c1.ctx2.dropHandbacks, ctx3 := c1.ctx3.dropHandbacks }

/-- Abort a gang on one member (R49): handler 255 with the reason and the lost member, or the default action.
DESIGN CHOICE: the TRAP record of an activation that this kills, or that a host's command kills, has cause 0, which R166 calls no cause (log
entry 111). -/
def State.abortMember (s : State) (core : CoreId) (reason : Nat) (lost : Word) : State :=
  if ((s.core core).entry? 255#8).isSome then
    s.onCore core (fun c => c.serve { index := 255#8, g3 := BitVec.ofNat 64 reason, g4 := lost })
  else
    allCtx.foldl (fun s k => if (s.ctxAt core k).st = .free then s else s.killOnly core k 0) (s.onCore core Core.dropQueued)

/-- A member that is at its core. -/
def Member.there (m : Member) : Bool := !m.lost && !m.saved

/-- The save blocks of a gang are free again (R176). -/
def State.freeBlocks (s : State) (t : Tenant) (blocks : List Nat) : State :=
  let base := fld t.savebase.toNat 17 35 * 2 ^ 17
  blocks.foldl (fun s b =>
    let (s1, w, _) := s.readPhys t (base + 8 * (b / 64))
    s1.performPhys t (base + 8 * (b / 64)) [w &&& ~~~(1#64 <<< (b % 64))]) s

/-- The blocks that a gang holds: a member's own, and an acceptance bitmap of one or two. -/
def Gang.blocks (g : Gang) : List Nat :=
  g.members.flatMap (fun m => (if m.block = 0 then [] else [m.block]) ++ m.extra.map (·.2))

/-- A pre-emption or save that an abort or a loss ends (R177): what has not stopped goes on, and a context in state saving, which
leaves it only for free (R30), is killed (log entry 49). -/
def State.endSave (s : State) (g : Gang) : State :=
  let s1 := (g.members.filter Member.there).foldl (fun s m =>
    allCtx.foldl (fun s k => if (s.ctxAt m.core k).st = .saving then s.killOnly m.core k 0 else s)
      (s.onCore m.core (fun c => { c with noAdmit := false, scan := true }))) s
  let s2 := match s1.tenant g.tenant with | some t => s1.freeBlocks t g.blocks | none => s1
  { s2.onGang g.key (fun g => { g with phase := .started, members := g.members.map (fun m => { m with block := 0, extra := [] }) }) with
    parlour := { s2.parlour with awaits := s2.parlour.awaits.filter (· ≠ g.key) } }

/-- Abort a gang (R49, R89): every member that is there is told once. A saved gang is told when it is restored. -/
def State.abortGang (s : State) (key reason : Nat) (lost : CoreId) : State :=
  match s.gang? key with
  | none => s
  | some g =>
    let first := g.abort.isNone
    let s1 := s.onGang key (fun g =>
      { g with abort := some (if first || g.abort = some 1 then reason else g.abort.getD reason), lostCore := if first then lost else g.lostCore })
    let s2 := if g.phase = .preempting || g.phase = .saving then s1.endSave g else s1
    if !first || g.phase = .placed || g.phase = .saved || g.phase = .restoring then s2
    else (g.members.filter Member.there).foldl (fun s m => s.abortMember m.core reason (if reason = 1 then headerForm lost else 0#64)) s2

/-! ## Completion -/

/-- Whether a packet keeps a gang from being quiet (R89): a message, a notice, a latch or a request of one of its cores. -/
def Packet.keeps (key : Nat) (cores : List CoreId) (p : Packet) : Bool :=
  match p.body with
  | .message _ _ gang _ _ _ _ | .notice _ _ gang _ | .latch _ _ gang _ _ _ _ _ => gang = key
  | .spawnReq _ r _ _ _ _ _ _ | .spawnAns r _ _ | .aqReq r _ _ _ _ _ | .aqAns r _ _ _ _ => cores.contains r.core
  | _ => false

/-- Whether a core holds nothing of its gang (R89). -/
def Core.quiet (c : Core) : Bool :=
  c.runq.isEmpty && c.svcq.isEmpty && c.outbox.all (fun e => !e.released)
  && allCtx.all (fun k => let x := c.ctx k; x.st = .free && x.mq.isEmpty && x.vq.isEmpty && x.cq.isEmpty && x.rel.isEmpty)

/-- Whether a gang is quiet (R89), and its replay buffers are written (R232). -/
def State.gangQuiet (s : State) (g : Gang) : Bool :=
  let there := g.members.filter Member.there
  there.all (fun m => (s.core m.core).quiet) && !s.net.any (fun p => p.keeps g.key (there.map (·.core)))
  && s.copied (fun c => there.any (fun m => m.core = c))

/-- A core leaves its gang (R89, R107, R112, R160): nothing is pinned, and both translation caches are empty. -/
def Core.vacate (c : Core) : Core := { serial := c.serial, replays := c.replays, l1 := c.l1 }

/-- The request that a packet belongs to, if it has one. -/
def Packet.req? (p : Packet) : Option Req :=
  match p.body with
  | .spawnReq _ r _ _ _ _ _ _ | .spawnAns r _ _ | .aqReq r _ _ _ _ _ | .aqAns r _ _ _ _ | .window _ r _ _ _ _
  | .atomic r _ _ _ _ _ _ _ _ _ _ | .atomicAns r .. | .write r _ _ _ _ _ _ | .forward r _ _ _ _ _ | .fill r _ _ _ _ | .ack r _
  | .arrive _ _ _ _ r _ _ _ | .episode r _ _ | .xlateReq r _ _ _ _ _ _ | .walk r _ _ _ _ _ _ | .xlateAns r _ _ _ _ _
  | .shootReq _ _ _ _ _ _ r | .shootAck r | .hostRead r _ _ => some r
  | .waitReq e => some e.req
  | _ => none

/-- A core leaves its gang, and what its ended activations had asked for is forgotten. -/
def State.vacate (s : State) (core : CoreId) : State :=
  ({ s with net := s.net.filter (fun p => !p.req?.any (fun r : Req => r.core = core)) }).onCore core Core.vacate

/-- Free the cores and the group ids of a gang, and end its bindings (R89, R221). -/
def State.dissolve (s : State) (g : Gang) : State :=
  let here (c : CoreId) : Bool := g.members.any (fun m => m.there && m.core = c)
  let s1 := (s.bindings.filter (fun b => here b.worker || here b.guard)).foldl (fun s b => s.endBinding b) s
  let s2 := (s1.groups.filter (fun x => x.gang = g.key)).foldl (fun s x => s.dropGroup x) s1
  let s3 := (g.members.filter Member.there).foldl (fun s m => s.vacate m.core) s2
  { s3 with gangs := s3.gangs.filter (fun x => x.key ≠ g.key)
            parlour := { s3.parlour with awaits := s3.parlour.awaits.filter (· ≠ g.key) } }

/-- The status with which a gang completes (R82). -/
def Gang.status (g : Gang) : Nat := match g.abort with | none => 1 | some r => r + 1

/-- Whether a gang that lost a member is relaunched (R89). -/
def Gang.relaunches (g : Gang) : Bool := g.abort = some 1 && g.rcd.rst && g.rcd.restarts < 2

/-- The gang has ended: its status word and notice, or a relaunch from its record (R82, R83, R89). -/
def State.endGang (s : State) (g : Gang) : State :=
  let s1 := s.dissolve g
  if g.relaunches then
    { s1.onTenant g.tenant (fun t =>
        { t with queue := { g.rcd with key := s1.nextKey, restarts := g.rcd.restarts + 1, age := 0 } :: t.queue }) with nextKey := s1.nextKey + 1 }
  else s1.complete g.tenant g.rcd g.status

/-- GANG_COMPLETION (R89, R279): a quiet gang writes back, drains its counters, and ends. -/
def execGangCompletion (gang : Nat) (s : State) : Answer :=
  .next (match s.gang? gang with
    | none => s
    | some g =>
      if g.phase ≠ .started && g.phase ≠ .preempting || !s.gangQuiet g then s
      else
        let there := g.members.filter Member.there
        let s1 := there.foldl (fun s m =>
          if s.roomFor (bgReq m.core) (fun _ => true) none then s.l1WriteBack (bgReq m.core) (fun _ => true) else s) s
        if there.all (fun m => (s1.core m.core).drained 3#2) then
          s1.attempt (fun s1 => (match s1.tenant g.tenant with | some t => s1.freeBlocks t g.blocks | none => s1).endGang g)
        else s1)

/-! ## Deadlines and kills -/

/-- Take a record out of the queue and the pending table; a saved gang's stays. -/
def State.unqueue (s : State) (tn key : Nat) : State :=
  (s.onTenant tn (fun t => { t with queue := t.queue.filter (fun r => r.key ≠ key), pending := t.pending.filter (fun r => r.key ≠ key) })).promote tn

/-- DEADLINE_EXPIRY (R89): a waiting record completes with 0x04, and a placed gang aborts with reason 3. -/
def execDeadlineExpiry (tenant : Nat) (key : Nat) (s : State) : Answer :=
  .next (match s.tenant tenant with
    | none => s
    | some t =>
      match s.gang? key with
      | some g => if g.tenant = tenant && g.rcd.deadline ≠ 0 && !(g.abort.isSome && g.abort ≠ some 1) then s.abortGang key 3 0#20 else s
      | none => match (t.queue ++ t.pending).find? (fun r => r.key = key && r.deadline ≠ 0) with
        | none => s
        | some r => s.attempt (fun s => (s.unqueue tenant key).complete tenant r 0x04))

end Sys2Proof.Machine
end

