-- ==== Sys2Proof/Machine/MemoryEvents.lean ====
section
/-! DEFINITION. The steps of memory: window accesses at their owner (R104, R142), writes, atomics and fills at their homes (R108,
R121, R132, R133, R147, R149, R294), acknowledgements (R134), release stores (R137), stamp drains (R147, R148) and address waits
(R375, R376). -/
namespace Sys2Proof.Machine

/-! ## Window accesses -/

/-- What a window access finds at its owner: a refusal, poison, or the bytes (R25, R104, R105, R236). -/
def State.windowOpen (s : State) (dst : CoreId) (r : Req) (off : Nat) : Bool :=
  s.present dst && s.tenantNo dst = s.tenantNo r.core && s.tenantNo r.core < 16 && (s.core dst).otherOpen off

/-- A window load at its owner (R103, R104). -/
def State.windowLoad (s : State) (dst : CoreId) (r : Req) (off n : Nat) (va : Word) : State :=
  let c := s.core dst
  if !s.windowOpen dst r off then s.answer r (fun o => { o with fault := some { cause := .window, addr := va } })
  else if c.localBad off n then s.answer r (fun o => { o with fault := some (poisonTrap va) })
  else s.answer r (fun o => { o with result := some (BitVec.ofNat 64 (c.localRead off n)) })

/-- A window store at its owner; a refusal waits for the issuer's FENCE (R103). -/
def State.windowStore (s : State) (id : Nat) (dst : CoreId) (r : Req) (off n v : Nat) (va : Word) (sc : Scope) : State :=
  if s.windowOpen dst r off then s.onCore dst (fun c => c.localWrite off n v)
  else s.refuse id r { cause := .window, write := true, addr := va } sc

/-- A window atomic at its owner, one indivisible read-modify-write (R104, R294). -/
def State.windowAtomic (s : State) (id : Nat) (dst : CoreId) (r : Req) (off : Nat) (aop : BitVec 4) (dword : Bool) (operand compare : Word)
    (ret : Bool) (va : Word) (sc : Scope) : State :=
  let n := if dword then 8 else 4
  let c := s.core dst
  if !s.windowOpen dst r off then
    if ret then s.answer r (fun o => { o with fault := some { cause := .window, write := true, addr := va } })
    else s.refuse id r { cause := .window, write := true, addr := va } sc
  else if c.localBad off n then
    if ret then s.answer r (fun o => { o with fault := some (poisonAtomic va) }) else s
  else
    let old := c.localRead off n
    let s1 := match amoValue aop.toNat n old operand.toNat compare.toNat with
      | some v => s.onCore dst (fun c => c.localWrite off n v)
      | none => s
    if ret then s1.answer r (fun o => { o with result := some (BitVec.ofNat 64 old) }) else s1

/-- The bytes of a window access. -/
def WinOp.bytes : WinOp → Nat
  | .load n _ => n
  | .store n _ => n
  | .atomic _ d _ _ _ => if d then 8 else 4

/-- Whether an earlier access of the same context to some of the same bytes is still on its way (R133, R141, R152). -/
def State.windowAhead (s : State) (id : Nat) (dst : CoreId) (r : Req) (off n : Nat) : Bool :=
  s.net.any (fun p => p.id < id && (match p.body with
    | .window d q o _ op _ => d = dst && q.core = r.core && q.ctx = r.ctx && o < off + n && off < o + op.bytes
    | _ => false))

/-- WINDOW_ACCESS (R104): behind the context's earlier accesses to the same bytes (R133), the owner performs it and answers a load or a returning atomic, and acknowledges the rest (R142). -/
def execWindowAccess (s : State) : Answer :=
  s.withPicked (fun p => match p.body with
    | .window dst r off va op sc =>
      if s.windowAhead p.id dst r off op.bytes then s
      else
      let s1 := s.dropPacket p.id
      (match op with
      | .load n _ => s1.windowLoad dst r off n va
      | .store n v => (s1.windowStore p.id dst r off n v.toNat va sc).sendAck r sc
      | .atomic aop dword operand compare ret =>
        let s2 := s1.windowAtomic p.id dst r off aop dword operand compare ret va sc
        if ret then s2 else s2.sendAck r sc)
    | _ => s)

/-! ## At the home -/

/-- ATOMIC_AT_HOME (R294, R147): an atomic behind its core's earlier writes of the line (R133), or the answer of one that is held for a drain. -/
def execAtomicAtHome (s : State) : Answer :=
  s.withPicked (fun p => match p.body with
    | .atomic r xl .. => s.serveLine r.core xl.pa p.id
    | .atomicAns r slice st sc n old due => s.giveHeld p.id r slice st sc n old due
    | _ => s)

/-- WRITE_AT_HOME (R121, R132, R147, R149): a write at its home, or at a further replica. -/
def execWriteAtHome (s : State) : Answer :=
  s.withPicked (fun p => match p.body with
    | .write r xl .. => s.serveLine r.core xl.pa p.id
    | .forward r xl cells poison rest sc => s.serveForward p r xl cells poison rest sc
    | _ => s)

/-- LINE_FILL (R108): the line reaches the core, around its dirty bytes; a release that waits for prefetches is tested again
(R345). A line of host memory comes with HOST_READ_COMPLETION. -/
def execLineFill (s : State) : Answer :=
  s.withPicked (fun p => match p.body with
    | .fill r xl va stream ifetch =>
      if xl.region = .host || (!ifetch && !s.installRoom r.core xl) then s else (s.serveFill p.id r xl va stream ifetch).wake r.core (fun w => w == WaitKind.counters)
    | _ => s)

/-- WRITE_ACKNOWLEDGEMENT (R134). -/
def execWriteAcknowledgement (s : State) : Answer :=
  s.withPicked (fun p => match p.body with
    | .ack r sc => (s.dropPacket p.id).creditWrite r sc
    | _ => s)

/-! ## Release stores -/

/-- The request under which a release store is performed: its activation's, or the background's once that has ended (R134). -/
def State.relReq (s : State) (core : CoreId) (k : CtxId) (w : RelStore) : Req :=
  { core := core, ctx := k, serial := w.serial, bg := (s.ctxAt core k).act.serial ≠ w.serial, pri := w.pri }

/-- Perform a release store: locally, or as a counted write to its owner or its home, where it leaves its stamp, with the core's L1 copy
updated in place but for bytes stored there since (R108, R137, R147). -/
def State.performRel (s : State) (core : CoreId) (k : CtxId) (w : RelStore) : State :=
  let r := s.relReq core k w
  match w.tgt with
  | .self off => s.onCore core (fun c => c.localWrite off w.size w.value.toNat)
  | .core dst off => s.sendingAs w.place (fun s => (s.countWrite r (scopeOf core dst)).sendWindow r dst off w.va (.store w.size w.value))
  | .paged xl =>
    let cells := cellsAt xl.pa (leBytesOf w.size w.value.toNat)
    (s.sendingAs w.place (fun s => s.sendWrite r xl w.va cells false (some w.scope))).onCore core (fun c => c.l1Update xl.pa (c.cleanCells cells))

/-- Whether the counter takes a release store's write (R134). -/
def State.relRoom (s : State) (core : CoreId) (k : CtxId) (w : RelStore) : Bool :=
  let r := s.relReq core k w
  match w.tgt with
  | .self _ => true
  | .core dst _ => s.roomFor r (fun _ => false) (some (scopeOf core dst))
  | .paged xl => s.roomFor r (fun _ => false) (some (s.scopeOfHome core xl false))

/-- RELEASE_COMPLETE (R137): the oldest release store of a context is performed once its steps are done. DESIGN CHOICE: where an earlier release
store's home lies outside a later one's scope, the later one waits until the earlier is sent, not until it is performed (log entry 110). -/
def execReleaseComplete (core : CoreId) (k : CtxId) (s : State) : Answer :=
  .next (match (s.ctxAt core k).rel with
    | [] => s
    | w :: rest =>
      if s.settled core k w.scope && s.relRoom core k w then
        ((s.onCtx core k (fun x => { x with rel := rest })).performRel core k w).wake core (fun w => w == WaitKind.counters)
      else s)

/-! ## Stamps -/

/-- The drained stamp is widened, or dropped where the table needed its place (R147, R148). -/
def Slice.afterDrain (sl : Slice) (core : CoreId) (pa : Nat) (sc : Scope) (drop : Bool) : Slice :=
  let mine (st : Stamp) : Bool := st.core = core && st.on pa
  { sl with stamps := if drop then sl.stamps.filter (fun st => !mine st)
                      else sl.stamps.map (fun st => if mine st then { st with scope := sc } else st) }

/-- The answers of atomics that were held for a drain leave their home now (R147). -/
def Packet.drained (core slice : CoreId) (pa : Nat) (sc : Scope) (p : Packet) : Packet :=
  match p.body with
  | .atomicAns r sl st need n old due =>
    { p with body := .atomicAns r sl st need n old (due && !(sl = slice && st.core = core && st.on pa && need.toNat ≤ sc.toNat)) }
  | _ => p

/-- The slice goes on with what waited for the drain. -/
def State.drainDone (s : State) (core slice : CoreId) (pa : Nat) (sc : Scope) (drop : Bool) : State :=
  (((({ s with net := s.net.map (Packet.drained core slice pa sc) }).onSlice slice (fun sl => sl.afterDrain core pa sc drop)).placeStamps slice).answerHits slice).wakeAll (fun w => w == WaitKind.reply)

/-- STAMP_DRAIN (R147, R148): the releaser's core writes back, and replies once its counters are zero; a lost releaser's stamp is
dropped. DESIGN CHOICE: the write-backs are counted in the core's background counters (R134 names none; log entry 76). -/
def execStampDrain (s : State) : Answer :=
  s.withPicked (fun p => match p.body with
    | .drain dst slice pa sc drop =>
      if !s.present dst then (s.dropPacket p.id).drainDone dst slice pa 3#2 true
      else
        if !s.roomFor (bgReq dst) (fun l => l.within sc) none then s
        else
          let s1 := s.releaseLines (bgReq dst) sc
          if (s1.core dst).drained sc then ((s1.dropPacket p.id).health (64 + dieOf slice)).drainDone dst slice pa sc drop else s1
    | _ => s)

/-! ## Address waits -/

/-- The context that waits at an address is still there. -/
def State.waitsFor (s : State) (e : WaitEntry) : Bool := (s.ctxAt e.req.core e.req.ctx).act.serial = e.req.serial

/-- An entry has been recorded; a WAITLIM of 0 has run out with the first test (R70). -/
def State.recorded (s : State) (e : WaitEntry) : State :=
  if (s.ctxAt e.req.core e.req.ctx).timedOut then s.ready e.req.core e.req.ctx else s

/-- An address wait at a slice (R375, R376). -/
def State.waitAtHome (s : State) (t : Tenant) (e : WaitEntry) : State :=
  let home := s.homeOf t.id e.xl (dieOf e.req.core) false
  let (s1, bytes, bad) := s.readHome t (dieOf e.req.core) e.xl e.size false
  if bad then s1.answer e.req (fun o => { o with fault := some (poisonTrap (BitVec.ofNat 64 e.xl.pa)) })
  else if e.test bytes then
    match s1.blockingStamp home e.req.core e.xl.pa with
    | none => s1.answer e.req (fun o => { o with status := some 0 })
    | some st => (s1.onSlice home (fun sl => { sl with waits := sl.waits ++ [{ e with hit := true }] })).askDrain home st
        (scopeOf st.core e.req.core) false
  else if 16 ≤ ((s1.slice home).waits.filter (fun w => !w.hit)).length then s1.answer e.req (fun o => { o with status := some 2 })
  else (s1.onSlice home (fun sl => { sl with waits := sl.waits ++ [e] })).recorded e

/-- Whether the home at a peer has no room for one more wait (R375). DESIGN CHOICE: which slice of the peer is the home of a line is not
known, so 16 entries for the line fill it, and 16 for the whole peer may fill it (log entry 28). -/
def State.peerFull (s : State) (t : Tenant) (e : WaitEntry) : Bool :=
  let key := peerKey t e.xl.pa
  let at_ (lg : Nat) : Nat :=
    (s.peerWaits.filter (fun w => (s.ownerOf w.req.core).any (fun u => peerKey u w.xl.pa / 2 ^ lg = key / 2 ^ lg))).length
  16 ≤ at_ 6 || (16 ≤ at_ 44 && (Config.freeWord s.tick).getLsbD 0)

/-- An address wait at a peer's home (R246, R376); one that the peer refuses faults. -/
def State.waitAtPeer (s : State) (t : Tenant) (e : WaitEntry) : State :=
  if s.peerDenies t e.xl then s.answer e.req (fun o => { o with fault := some { cause := .window } })
  else if e.test (s.peerMem.read (peerKey t e.xl.pa) e.size) then s.answer e.req (fun o => { o with status := some 0 })
  else if s.peerFull t e then s.answer e.req (fun o => { o with status := some 2 })
  else ({ s with peerWaits := s.peerWaits ++ [e] }).recorded e

/-- ADDRESS_WAIT_ENTRY (R375): the test at the home, behind the core's own writes of the line (R133). -/
def execAddressWaitEntry (s : State) : Answer :=
  s.withPicked (fun p => match p.body with
    | .waitReq e =>
      match s.ownerOf e.req.core with
      | none => s.dropPacket p.id
      | some t =>
        if !s.waitsFor e then s.dropPacket p.id
        else
          let s1 := (s.serveLine e.req.core e.xl.pa p.id).dropPacket p.id
          if e.xl.region = .peer then s1.waitAtPeer t e else s1.waitAtHome t e
    | _ => s)

end Sys2Proof.Machine
end

