-- ==== Sys2Proof/Machine/HostEvents.lean ====
section
/-! DEFINITION. What reaches the module from outside: the host's memory window (R243), host reads and writes with their links (R244,
R245), Blulin peers (R246), and the Ethernet controller's queue pairs and regions (R247, R251). -/
namespace Sys2Proof.Machine

/-! ## The memory window -/

/-- The record of a fault that a host access met (R243, R383). -/
def State.windowFault (s : State) (tn : Nat) (e : UnitFault) (write : Bool) (va : Nat) : State :=
  s.reportBare tn e.cause write 0#20 0#64 (BitVec.ofNat 64 va)

/-- Complete a host read: 0 with its bytes, 1 Unsupported Request, 2 poisoned, 4 Completer Abort. -/
def State.hostAnswer (s : State) (status : Nat) (data : List Byte) : State :=
  { s with parlour := { s.parlour with hostReply := some (status, data) } }

/-- Whether a walk of a host access has read a poisoned page-table entry: such a fault has the entry's level (R382). -/
def UnitFault.poisonedEntry (e : UnitFault) : Bool := e.cause = .uncorrectable && e.level ≠ 0#3

/-- Count a host access that met a poisoned page-table entry (R382). DESIGN CHOICE: R254 lists no counter for it, so which one counts it is
free (log entry 103). -/
def State.countPoisonedEntry (s : State) : State := s.health ((Config.freeWord s.tick).toNat % 100)

/-- A host read of a tenant's memory (R243): a plain access in supervisor mode; with HWBASE = 0, or no such tenant, an Unsupported Request. -/
def State.windowRead (s : State) (tenant off size : Nat) : State :=
  match s.tenant tenant with
  | none => s.hostAnswer 1 []
  | some t =>
    if t.hwbase = 0#64 || 2 ^ 32 < off + size then s.hostAnswer 1 []
    else
      let va := (t.hwbase.toNat + off) % 2 ^ 57
      match s.unitRead tenant t.homeDie false (size / 64 + 2) va size with
      | (s1, .ok bs) => s1.hostAnswer 0 bs
      | (s1, .error e) =>
        if e.poisonedEntry then s1.countPoisonedEntry.hostAnswer 4 []
        else if e.cause = .uncorrectable then s1.hostAnswer 2 []
        else (s1.windowFault tenant e false va).hostAnswer 4 []

/-- Discard a host write that cannot be performed: with a record, or counted where an entry of the tables is poisoned (R243, R382). -/
def State.windowDiscard (s : State) (tenant : Nat) (e : UnitFault) (va : Nat) : State :=
  if e.poisonedEntry then s.countPoisonedEntry else s.windowFault tenant e true va

/-- A host write of a tenant's memory (R243): one whose translation fails anywhere is discarded whole. -/
def State.windowWrite (s : State) (tenant off : Nat) (data : List Byte) : State :=
  match s.tenant tenant with
  | none => s
  | some t =>
    if t.hwbase = 0#64 || 2 ^ 32 < off + data.length || data.isEmpty then s
    else
      let va := (t.hwbase.toNat + off) % 2 ^ 57
      match s.unitXl tenant t.homeDie va .write false with
      | (s1, .error e) => s1.windowDiscard tenant e va
      | (s1, .ok _) =>
        match s1.unitXl tenant t.homeDie ((va + data.length - 1) % 2 ^ 57) .write false with
        | (s2, .error e) => s2.windowDiscard tenant e va
        | (s2, .ok _) =>
          match s2.unitWrite tenant t.homeDie false (data.length / 64 + 2) va data with
          | (s3, none) => s3
          | (s3, some e) => s3.windowDiscard tenant e va

/-! ## The BARs (R242) -/

/-- The INVENTORY doubleword (R1, R248). -/
def Parlour.inventory (p : Parlour) : Word :=
  BitVec.ofNat 64 (p.present.toNat * 2 ^ 44 + p.state % 256 * 2 ^ 32 + 0xB0 * 2 ^ 16 + 0x0A31)

/-- A management register by its offset in BAR2 (R248, R250, R253, R254), if the offset has one. -/
def Parlour.register? (p : Parlour) (off : Nat) : Option Word :=
  if off = 0 then some p.inventory
  else if 0x100 ≤ off && off < 0x140 then p.block.toList[(off - 0x100) / 8]?
  else if off = 0x140 then some p.status
  else if 0x1000 ≤ off && off < 0x1100 then p.diePower.toList[(off - 0x1000) / 8]?
  else if 0x2000 ≤ off && off < 0x2320 then p.health.toList[(off - 0x2000) / 8]?
  else none

/-- A byte of BAR2 as the host reads it. DESIGN CHOICE: at an offset without a register it is free (log entry 103). -/
def State.managementByte (s : State) (off : Nat) : Byte :=
  ((s.parlour.register? (off / 8 * 8)).map (fun w => BitVec.ofNat 8 (w.toNat / 2 ^ (8 * (off % 8))))).getD (freeByteAt s.tick off)

/-- HOST_WINDOW_READ (R242, R243, R248): BAR0 reads zero, BAR2 gives the management registers, and BAR4 the tenants' memories. -/
def execHostWindowRead (bar : Nat) (off : Nat) (size : Nat) (s : State) : Answer :=
  .next (match bar with
    | 0 => if off + size ≤ 2 ^ 20 then s.hostAnswer 0 (List.replicate size 0#8) else s.hostAnswer 1 []
    | 2 => if off + size ≤ 2 ^ 16 then s.hostAnswer 0 ((List.range size).map (fun i => s.managementByte (off + i))) else s.hostAnswer 1 []
    | 4 => if off < 2 ^ 36 then s.attempt (fun s => s.windowRead (off / 2 ^ 32) (off % 2 ^ 32) size) else s.hostAnswer 1 []
    | _ => s.hostAnswer 1 [])

/-- HOST_WINDOW_WRITE (R242, R243): BAR0 takes a tenant's launch doorbell and discards every other write, and BAR4 writes the tenants'
memories; the writes to BAR2 are REGISTER_WRITE and COMMAND_DOORBELL. -/
def execHostWindowWrite (bar : Nat) (off : Nat) (data : List Byte) (s : State) : Answer :=
  .next (match bar with
    | 0 => if off < 2 ^ 20 && off % 2 ^ 16 = 0 && data.length = 8 then s.launchDoorbell (off / 2 ^ 16) (BitVec.ofNat 64 (leOf data)) else s
    | 4 => if off < 2 ^ 36 then s.attempt (fun s => s.windowWrite (off / 2 ^ 32) (off % 2 ^ 32) data) else s
    | _ => s)

/-! ## Host memory -/

/-- Take posted writes out of the ports and acknowledge them to their cores (R245). -/
def State.ackPosted (s : State) (p : Posted → Bool) : State :=
  let s1 := { s with parlour := { s.parlour with posted := s.parlour.posted.filter (fun w => !p w) } }
  (s.parlour.posted.filter p).foldl (fun s w => w.ack.elim s (fun a => s.sendAck a.1 a.2)) s1

/-- HOST_WRITE_FLUSH_COMPLETE (R245): the port's zero-length read has completed, so the writes before it are performed and their cores
are told; for the writes after it the port issues the next one. -/
def execHostWriteFlushComplete (port : Nat) (s : State) : Answer :=
  let s1 := s.pushHost.ackPosted (fun w => w.port = port && w.asked)
  .next { s1 with parlour := { s1.parlour with posted := s1.parlour.posted.map (fun w => if w.port = port then { w with asked := true } else w) } }

/-- Give a core's outstanding request poison, or acknowledge and discard its write (R245). -/
def State.failPacket (s : State) (p : Packet) : State :=
  let s1 := s.dropPacket p.id
  let bad (r : Req) (va : Word) : State := s1.answer r (fun o => { o with fault := some (poisonTrap va) })
  match p.body with
  | .write r _ _ _ _ _ sc => s1.sendAck r sc
  | .atomic r _ va _ _ _ _ ret _ _ sc => if ret then bad r va else s1.sendAck r sc
  | .aqReq r _ _ desc _ sc => s1.sendPacket 1#2 p.pri (.aqAns r desc (Config.freeWord s.tick) true sc)
  | .fill r xl va stream ifetch =>
    let s2 :=
      if ifetch then s1.onCore r.core (fun c =>
        { c with il1 := lruPut (fun l : ILine => l.pa = xl.base.pa) 128 { pa := xl.base.pa, data := [], poison := true } c.il1 })
      else ((s1.l1Agree r.core xl).l1Fill r.core xl va (List.replicate 64 0#8) true stream).afterFill r.core xl p.acquired
    (s2.answer r (fun o => o)).wake r.core (fun w => w == WaitKind.counters)
  | .hostRead r _ _ => bad r 0#64
  | .waitReq e => bad e.req (BitVec.ofNat 64 e.xl.pa)
  | _ => s

/-- The translated address of a packet's request. -/
def Packet.xl? (p : Packet) : Option Xl :=
  match p.body with
  | .write _ xl _ _ _ _ _ | .atomic _ xl _ _ _ _ _ _ _ _ _ | .aqReq _ xl _ _ _ _ | .fill _ xl _ _ _ => some xl
  | .waitReq e => some e.xl
  | _ => none

/-- Whether a packet reads host memory: a read or an atomic whose completion carries data. -/
def Packet.readsHost (p : Packet) : Bool :=
  match p.body with
  | .hostRead .. => true
  | .fill _ xl _ _ _ | .aqReq _ xl _ _ _ _ => xl.region = .host
  | .atomic _ xl _ _ _ _ _ ret _ _ _ => xl.region = .host && ret
  | _ => false

/-- HOST_READ_COMPLETION (R245): the data, behind the core's own earlier writes of the line (R133), or poison for an error status. -/
def execHostReadCompletion (error : Bool) (s : State) : Answer :=
  s.withPicked (fun p =>
    if !p.readsHost then s
    else if error then s.failPacket p
    else match p.body with
      | .hostRead r bus n =>
        (match s.ownerOf r.core with
        | none => s.dropPacket p.id
        | some t =>
          if s.parlour.linkDown.contains t.aport then s.failPacket p
          else
            let s1 := s.serveLine r.core (2 ^ 51 + (bus - t.aperture)) s.nextPkt
            (s1.pushHost.dropPacket p.id).answer r (fun o => { o with result := some (BitVec.ofNat 64 (s1.hostView.value bus n)) }))
      | .fill r xl va stream ifetch => if !ifetch && !s.installRoom r.core xl then s else (s.serveFill p.id r xl va stream ifetch).wake r.core (fun w => w == WaitKind.counters)
      | .atomic r xl .. | .aqReq r xl .. => s.serveLine r.core xl.pa p.id
      | _ => s)

/-- HOST_READ_TIMEOUT (R245): no completion for 50 ms. -/
def execHostReadTimeout (s : State) : Answer := s.withPicked (fun p => if p.readsHost then s.failPacket p else s)

/-- HOST_LINK_DOWN (R245): outstanding writes are acknowledged and discarded, outstanding reads return poison, and the event is
counted. -/
def execHostLinkDown (port : Nat) (s : State) : Answer :=
  let on (r : Req) : Bool := (s.ownerOf r.core).any (fun t => t.aport = port)
  let hit (p : Packet) : Bool :=
    match p.body with
    | .hostRead r _ _ => on r
    | .write r xl _ _ _ _ _ | .atomic r xl _ _ _ _ _ _ _ _ _ | .aqReq r xl _ _ _ _ | .fill r xl _ _ _ => xl.region = .host && on r
    | _ => false
  .next (
    if 2 ≤ port then s
    else
      let s1 := (s.net.filter hit).foldl (fun s p => s.failPacket p) s
      let s2 := s1.ackPosted (fun w => w.port = port)
      { s2 with parlour := { s2.parlour with linkDown := distinct (s2.parlour.linkDown ++ [port]) } }.health 99)

/-! ## Peers -/

/-- The Blulin port of a peer address of a tenant's core (R246). -/
def State.peerPort (s : State) (r : Req) (xl : Xl) : Option Nat :=
  if xl.region = .peer then ((s.ownerOf r.core).bind (fun t => assoc? (fld xl.pa 44 6) t.windows)).map (fun w => fld w.toNat 56 7) else none

/-- BLULIN_PEER_TIMEOUT (R246): what is outstanding at a silent peer fails as on a link that goes down. -/
def execBlulinPeerTimeout (port : Nat) (s : State) : Answer :=
  let hit (p : Packet) : Bool := p.xl?.any (fun xl => p.req?.any (fun r : Req => s.peerPort r xl = some port))
  let waits := s.peerWaits.filter (fun w => s.peerPort w.req w.xl = some port)
  let s1 := (s.net.filter hit).foldl (fun s p => s.failPacket p) s
  let s2 := waits.foldl (fun s w => s.answer w.req (fun o => { o with fault := some (poisonTrap (BitVec.ofNat 64 w.xl.pa)) })) s1
  .next ({ s2 with peerWaits := s2.peerWaits.filter (fun w => !waits.contains w) }.health 99)

/-- Write bytes at physical addresses that follow one another, line by line. -/
def State.writePa (s : State) (t : Tenant) (xl : Xl) : (fuel : Nat) → List Byte → State
  | 0, _ => s
  | f + 1, bs =>
    if bs.isEmpty then s
    else
      let k := lineRest xl.pa bs.length
      State.writePa (s.performAll t t.homeDie xl (cellsAt xl.pa (bs.take k)) false) t { xl with pa := xl.pa + k } f (bs.drop k)

/-- Read bytes at physical addresses that follow one another, with their poison. -/
def State.readPa (s : State) (t : Tenant) (xl : Xl) : (fuel n : Nat) → State × List Byte × Bool
  | 0, _ => (s, [], false)
  | f + 1, n =>
    if n = 0 then (s, [], false)
    else
      let k := lineRest xl.pa n
      let (s1, bs, bad) := s.readHome t t.homeDie xl k true
      let (s2, r, bad') := State.readPa s1 t { xl with pa := xl.pa + k } f (n - k)
      (s2, bs ++ r, bad || bad')

/-- The stamp that an acquire from outside the module meets, with the slice that holds it: its scope is sys, and every stamp's is narrower (R147,
R246, R247). -/
def State.outsideStamp (s : State) (t : Tenant) (xl : Xl) : Option (CoreId × Stamp) :=
  let home := s.homeOf t.id xl t.homeDie false
  match xl.region with
  | .hbm => ((s.slice home).stamp? xl.pa).map (fun st => (home, st))
  | _ => none

/-- Answer a request from outside with an old value, which an acquiring one has once the stamp that it met is drained to sys (R71, R147, R246). -/
def State.outsideOld (s : State) (block : Option (CoreId × Stamp)) (bytes : List Byte) : State :=
  match block with
  | none => s.peerAnswer 0 bytes
  | some (home, st) =>
    ({ s with parlour := { s.parlour with peerReply := none } }.askDrain home st 3#2 false).sendPacket 1#2 outsideReq.pri
      (.atomicAns outsideReq home st 3#2 bytes.length (BitVec.ofNat 64 (leOf bytes)) true)

/-- Read, change and write one value for a requester outside the module, and answer its old value. -/
def State.outsideRmw (s : State) (t : Tenant) (xl : Xl) (n : Nat) (acquire : Bool) (f : Nat → Option Nat) : State :=
  let block := if acquire then s.outsideStamp t xl else none
  let (s1, bs, bad) := s.readHome t t.homeDie xl n false
  if bad then s1.peerAnswer 3 []
  else
    let s2 := match f (leOf bs) with
      | some v => s1.performAll t t.homeDie xl (cellsAt xl.pa (leBytesOf n v)) false
      | none => s1
    s2.outsideOld block bs

/-- Another module's address wait at its home (R246, R375, R376): answered at once where its test holds and no stamp blocks it, else recorded
where one of the home's 16 entries is free. -/
def State.outsideWait (s : State) (t : Tenant) (e : WaitEntry) : State :=
  let home := s.homeOf t.id e.xl t.homeDie false
  let (s1, bs, bad) := s.readHome t t.homeDie e.xl e.size false
  if bad then s1.peerAnswer 3 []
  else if e.test bs then
    match s1.waitBlock home e with
    | none => s1.peerAnswer 0 []
    | some st => (s1.onSlice home (fun sl => { sl with waits := sl.waits ++ [{ e with hit := true }] })).askDrain home st (e.scopeFrom st.core) false
  else if 16 ≤ ((s1.slice home).waits.filter (fun w => !w.hit)).length then s1.peerAnswer 2 []
  else s1.onSlice home (fun sl => { sl with waits := sl.waits ++ [e] })

/-- Another module withdraws its address wait (R375, R376): answered 0, or 1 where none is recorded that has not been satisfied. -/
def State.outsideWithdraw (s : State) (t : Tenant) (e : WaitEntry) : State :=
  let home := s.homeOf t.id e.xl t.homeDie false
  if (s.slice home).waits.contains e then (s.onSlice home (fun sl => { sl with waits := sl.waits.erase e })).peerAnswer 0 [] else s.peerAnswer 1 []

/-- Perform an outside request at a home (R246, R247); `src` is the source module and the tenant there. An acquiring load that meets a stamp has it
drained, and takes place once it is (R147). -/
def State.outsideOp (s : State) (t : Tenant) (src : Nat × Nat) (xl : Xl) (op : PeerOp) : State :=
  let entry (n : Nat) (cmp : BitVec 3) (expected mask : Word) : WaitEntry :=
    { req := outsideReq, xl := xl, size := n, cmp := cmp, expected := expected, mask := mask, peer := some (src.1, src.2, t.id) }
  match op with
  | .read n acquire =>
    match (if acquire then s.outsideStamp t xl else none) with
    | some (home, st) => s.askDrain home st 3#2 false
    | none =>
      let (s1, bs, bad) := s.readPa t xl (n / 64 + 2) n
      if bad then s1.peerAnswer 3 [] else s1.peerAnswer 0 bs
  | .write d => (s.writePa t xl (d.length / 64 + 2) d).peerAnswer 0 []
  | .atomic aop dword operand compare acquire =>
    let n := if dword then 8 else 4
    s.outsideRmw t xl n acquire (fun old => amoValue aop.toNat n old operand.toNat compare.toNat)
  | .aq op operand => s.outsideRmw t xl 8 false (fun old => (aqValue op.toNat (BitVec.ofNat 64 old) operand).map (·.toNat))
  | .wait n cmp expected mask => s.outsideWait t (entry n cmp expected mask)
  | .withdraw n cmp expected mask => s.outsideWithdraw t (entry n cmp expected mask)

/-- The bytes that an outside request reaches. -/
def peerSize : PeerOp → Nat
  | .read n _ => n
  | .write d => d.length
  | .atomic _ dword _ _ _ => if dword then 8 else 4
  | .aq _ _ => 8
  | .wait n _ _ _ | .withdraw n _ _ _ => n

/-- BLULIN_INBOUND_REQUEST (R5, R246): accepted where the grant list holds the pair and the bytes lie in the tenant's ranges, and performed
at the home that vat 0 gives. -/
def execBlulinInboundRequest (src : Nat) (srcTenant : Nat) (tenant : Nat) (op : PeerOp) (pa : Nat) (s : State) : Answer :=
  .next (match s.tenant tenant with
    | none => s.peerAnswer 1 []
    | some t =>
      let granted := t.grants.any (fun g => g.2.getLsbD 63 && fld g.2.toNat 32 16 = src && g.2.toNat % 16 = srcTenant)
      let a := pa % 2 ^ 44
      let inside (b : Nat) : Bool := regionOf b = some .hbm && t.reaches b
      if granted && !s.parlour.resetting tenant && inside a && inside (a + (peerSize op - 1)) then s.outsideOp t (src, srcTenant) (physXl a) op else s.peerAnswer 1 [])

/-! ## Ethernet -/

/-- A queue pair by number. -/
def State.qp? (s : State) (n : Nat) : Option QueuePair := s.parlour.qps.find? (fun q => q.num = n)

/-- Change a queue pair. -/
def State.onQp (s : State) (n : Nat) (f : QueuePair → QueuePair) : State :=
  { s with parlour := { s.parlour with qps := s.parlour.qps.map (fun q => if q.num = n then f q else q) } }

/-- A doubleword of a tenant's memory as the Ethernet controller reads it (R381). -/
def State.ethRead (s : State) (tn va : Nat) : State × Option Word :=
  match s.tenant tn with
  | none => (s, none)
  | some t => match s.unitDwords tn t.homeDie false (va % 2 ^ 57) 1 with
    | (s1, .ok l) => (s1, l.head?)
    | (s1, .error _) => (s1, none)

/-- The Ethernet controller acquires at sys at an address: a stamp on its line has to be drained first (R147, R247). -/
def State.ethAcquire (s : State) (tn va : Nat) : State :=
  match s.tenant tn with
  | none => s
  | some t => match s.unitXl tn t.homeDie (va % 2 ^ 57) .read false with
    | (s1, .ok xl) => (s1.outsideStamp t xl).elim s1 (fun p => { s1 with blocked := some (p.1, p.2, 3#2) })
    | (s1, .error _) => s1

/-- QP_TAIL_POLL (R247): the tail as the tenant last released it, read as an acquire at sys. -/
def execQpTailPoll (qp : Nat) (s : State) : Answer :=
  .next (s.attempt (fun s => match s.qp? qp with
    | none => s
    | some q => match (s.ethAcquire q.tenant q.tailVa.toNat).ethRead q.tenant q.tailVa.toNat with
      | (s1, some w) => s1.onQp qp (fun q => { q with tail := w })
      | (s1, none) => s1))

/-- The local side of a work request (R247): SEND and WRITE read local bytes, and READ and the atomics write there what the remote
side returned, which the module does not decide. The answer says whether the tenant's tables allow it. DESIGN CHOICE: an operation code above 6,
for which R247 gives no outcome, acts as an 8-byte atomic (log entry 114). -/
def State.localSide (s : State) (q : QueuePair) (op len : Nat) (va : Word) : State × Bool :=
  match s.tenant q.tenant with
  | none => (s, false)
  | some t =>
    let n := if 5 ≤ op then 8 else len
    let a := va.toNat % 2 ^ 57
    if op ≤ 3 then
      (match s.unitRead q.tenant t.homeDie false (n / 64 + 2) a n with
      | (s1, .ok _) => (s1, true)
      | (s1, .error _) => (s1, false))
    else
      let bytes := (List.range n).map (fun i => freeByteAt s.tick i)
      match s.unitWrite q.tenant t.homeDie false (n / 64 + 2) a bytes with
      | (s1, none) => (s1, true)
      | (s1, some _) => (s1, false)

/-- Write a completion entry (R247). -/
def State.putCompletion (s : State) (q : QueuePair) (id : Word) (status len : Nat) : State :=
  match s.tenant q.tenant with
  | none => s
  | some t =>
    let ws := [id, BitVec.ofNat 64 (status + len * 2 ^ 32), BitVec.ofNat 64 q.num, 0#64]
    let s1 := (s.unitWrite q.tenant t.homeDie false 3 ((q.compVa.toNat + 32 * q.comp) % 2 ^ 57) (ws.flatMap (fun w => leBytesOf 8 w.toNat))).1
    s1.onQp q.num (fun q => { q with comp := (q.comp + 1) % q.compLen })

/-- Note which posted writes a queue pair's local side has made, those behind the first `n` (R247). -/
def State.ownPosts (s : State) (qp n : Nat) : State :=
  let l := s.parlour.posted
  { s with parlour := { s.parlour with posted := l.take n ++ (l.drop n).map (fun p => { p with qp := some qp }) } }

/-- Whether a write to host memory by a queue pair's local side is still to be flushed (R245, R247). -/
def State.qpPosted (s : State) (qp : Nat) : Bool := s.parlour.posted.any (fun p => p.qp = some qp)

/-- Give a finished work request its completion entry, which ends with a release at sys: it waits until the writes of its local side are flushed (R245,
R247). -/
def State.completeWork (s : State) (q : QueuePair) (id : Word) (status len : Nat) : State :=
  if s.qpPosted q.num then s.onQp q.num (fun q => { q with side := some (id, status, len) })
  else
    let next := (q.next + 1) % q.sendLen
    (s.onQp q.num (fun q => { q with next := next, side := none })).putCompletion { q with next := next } id status len

/-- QP_WORK_COMPLETION (R247, R251): the next entry finishes with the status that the network gave it, or with 3 where the tenant's
tables forbid its local side; a signalled or failed one gets its completion entry. It waits for a resolved destination and for
room in the completion ring, and its completion entry for the flush of what its local side has written to host memory. -/
def execQpWorkCompletion (qp : Nat) (status : Nat) (s : State) : Answer :=
  .next (s.attempt (fun s => match s.qp? qp with
    | none => s
    | some q =>
      if let some (id, st, len) := q.side then s.completeWork q id st len
      else if q.mac.isNone || 2 < status || q.next = q.tail.toNat % q.sendLen then s
      else match s.ethRead q.tenant q.headVa.toNat with
        | (s1, none) => s1
        | (s1, some head) =>
          if (q.comp + 1) % q.compLen = head.toNat % q.compLen then s1
          else match s1.tenant q.tenant with
            | none => s1
            | some t =>
              match s1.unitDwords q.tenant t.homeDie false ((q.sendVa.toNat + 64 * q.next) % 2 ^ 57) 8 with
              | (s2, .error _) => s2
              | (s2, .ok w) =>
                let d (i : Nat) : Word := (w[i]?).getD 0#64
                let op := (d 0).toNat % 256
                let len := fld (d 0).toNat 32 32
                let (s3, ok) := if status = 0 then s2.localSide q op len (d 1) else (s2, true)
                let st := if ok then status else 3
                let s4 := s3.ownPosts qp s2.parlour.posted.length
                if (d 0).getLsbD 8 || st ≠ 0 then s4.completeWork q (d 6) st len
                else s4.onQp qp (fun q => { q with next := (q.next + 1) % q.sendLen })))

/-- The flag that an inbound operation needs of its region (R251); the controller carries no other operation (R247). -/
def regionAllows (flags : BitVec 3) : PeerOp → Bool
  | .write _ => flags.getLsbD 0
  | .read _ acquire => !acquire && flags.getLsbD 1
  | .atomic aop dword _ _ acquire => !acquire && flags.getLsbD 2 && dword && (aop = 0#4 || aop = 12#4)
  | _ => false

/-- RDMA_INBOUND (R247): a registered region of that rkey which allows it, through its owner's tables. -/
def execRdmaInbound (rkey : Nat) (op : PeerOp) (va : Word) (s : State) : Answer :=
  .next (s.attempt (fun s => match s.parlour.regions.find? (fun r => r.rkey = rkey) with
    | none => s.peerAnswer 1 []
    | some r => match s.tenant r.tenant with
      | none => s.peerAnswer 1 []
      | some t =>
        let a := va.toNat
        let inside := r.va.toNat ≤ a && a + peerSize op ≤ r.va.toNat + r.len.toNat
        if !inside || !regionAllows r.flags op then s.peerAnswer 1 []
        else match op with
          | .read n _ => match s.unitRead t.id t.homeDie false (n / 64 + 2) (a % 2 ^ 57) n with
            | (s1, .ok bs) => s1.peerAnswer 0 bs
            | (s1, .error e) => s1.peerAnswer (if e.cause = .uncorrectable then 3 else 1) []
          | .write d => match s.unitWrite t.id t.homeDie false (d.length / 64 + 2) (a % 2 ^ 57) d with
            | (s1, none) => s1.peerAnswer 0 []
            | (s1, some _) => s1.peerAnswer 1 []
          | _ =>
            if a % 8 ≠ 0 then s.peerAnswer 1 []
            else match s.unitXl t.id t.homeDie (a % 2 ^ 57) .write false with
              | (s1, .ok xl) => s1.outsideOp t (0, 0) xl op
              | (s1, .error _) => s1.peerAnswer 1 []))

/-- ARP_NEIGHBOUR_DISCOVERY (R251): the destination's MAC is resolved; the answers for the source GID change nothing here. -/
def execArpNeighbourDiscovery (qp : Nat) (mac : BitVec 48) (s : State) : Answer := .next (s.onQp qp (fun q => { q with mac := some mac }))

end Sys2Proof.Machine
end

