-- ==== Sys2Proof/Machine/Integer.lean ====
section
/-! DEFINITION. The meanings of the integer register instructions (R200, R292, R293, R299, R305, R313, R338, R339, R343, R352,
R353). -/
namespace Sys2Proof.Machine

/-! ## Results -/

/-- ADD. -/
def addV (x y : Word) : Word := x + y
/-- SUB. -/
def subV (x y : Word) : Word := x - y
/-- AND. -/
def andV (x y : Word) : Word := x &&& y
/-- OR. -/
def orV (x y : Word) : Word := x ||| y
/-- XOR. -/
def xorV (x y : Word) : Word := x ^^^ y
/-- SHL by y[5:0]. -/
def shlV (x y : Word) : Word := x <<< (y.toNat % 64)
/-- SHR by y[5:0]. -/
def shrV (x y : Word) : Word := x >>> (y.toNat % 64)
/-- SAR by y[5:0]. -/
def sarV (x y : Word) : Word := x.sshiftRight (y.toNat % 64)
/-- ROTR by y[5:0]. -/
def rotrV (x y : Word) : Word := x.rotateRight (y.toNat % 64)
/-- 1 or 0. -/
def boolV (b : Bool) : Word := if b then 1#64 else 0#64
/-- SLT. -/
def sltV (x y : Word) : Word := boolV (x.slt y)
/-- SLTU. -/
def sltuV (x y : Word) : Word := boolV (x.ult y)
/-- MIN. -/
def minV (x y : Word) : Word := if x.slt y then x else y
/-- MAX. -/
def maxV (x y : Word) : Word := if x.slt y then y else x
/-- MINU. -/
def minuV (x y : Word) : Word := if x.ult y then x else y
/-- MAXU. -/
def maxuV (x y : Word) : Word := if x.ult y then y else x
/-- ADDW. -/
def addwV (x y : Word) : Word := ((x + y).setWidth 32).signExtend 64
/-- SUBW. -/
def subwV (x y : Word) : Word := ((x - y).setWidth 32).signExtend 64
/-- MUL. -/
def mulV (x y : Word) : Word := x * y
/-- MULH: the high half of the signed product. -/
def mulhV (x y : Word) : Word := ((x.signExtend 128 * y.signExtend 128) >>> 64).setWidth 64
/-- MULHU: the high half of the unsigned product. -/
def mulhuV (x y : Word) : Word := ((x.setWidth 128 * y.setWidth 128) >>> 64).setWidth 64
/-- DIV: toward zero; 0 for a zero divisor; −2^63 by −1 stays −2^63 (R200). -/
def divV (x y : Word) : Word := if y = 0#64 then 0#64 else x.sdiv y
/-- DIVU. -/
def divuV (x y : Word) : Word := if y = 0#64 then 0#64 else x.udiv y
/-- REM: with the sign of the dividend; the dividend for a zero divisor (R200). -/
def remV (x y : Word) : Word := if y = 0#64 then x else x.srem y
/-- REMU. -/
def remuV (x y : Word) : Word := if y = 0#64 then x else x.umod y
/-- The zero bits above the highest one bit. -/
def clzV (x : Word) : Word := if x = 0#64 then 64#64 else BitVec.ofNat 64 (63 - Nat.log2 x.toNat)
/-- The zero bits below the lowest one bit. -/
def ctzV (x : Word) : Word := BitVec.ofNat 64 (((List.range 64).find? (fun i => x.getLsbD i)).getD 64)
/-- The one bits. -/
def popcV (x : Word) : Word := BitVec.ofNat 64 (popcount 64 x.toNat)
/-- SEXT of the low 8, 16 or 32 bits (R266, R352). -/
def sextV (w : BitVec 5) (x : Word) : Word :=
  match w.toNat with
  | 0 => (x.setWidth 8).signExtend 64
  | 1 => (x.setWidth 16).signExtend 64
  | _ => (x.setWidth 32).signExtend 64
/-- ZEXT of the low 8, 16 or 32 bits. -/
def zextV (w : BitVec 5) (x : Word) : Word :=
  match w.toNat with
  | 0 => (x.setWidth 8).setWidth 64
  | 1 => (x.setWidth 16).setWidth 64
  | _ => (x.setWidth 32).setWidth 64
/-- The ones of a field of length y[11:6] + 1. -/
def fieldOnes (y : Word) : Word := BitVec.ofNat 64 (2 ^ (fld y.toNat 6 6 + 1) - 1)
/-- BEXT. -/
def bextV (x y : Word) : Word := (x >>> (y.toNat % 64)) &&& fieldOnes y
/-- BINS into the old value of the destination. -/
def binsV (old x y : Word) : Word :=
  let mask := fieldOnes y <<< (y.toNat % 64)
  (old &&& ~~~mask) ||| ((x <<< (y.toNat % 64)) &&& mask)

/-! ## The forms -/

/-- g[d] from g[a] and g[b]. -/
def State.binary (s : State) (f : Word → Word → Word) (d a b : BitVec 5) : State := s.result d (f (s.cx.rg a) (s.cx.rg b))
/-- g[d] from g[a] and an immediate. -/
def State.immediate (s : State) (f : Word → Word → Word) (d a : BitVec 5) (v : Word) : State := s.result d (f (s.cx.rg a) v)
/-- g[d] from g[a]. -/
def State.unary (s : State) (f : Word → Word) (d a : BitVec 5) : State := s.result d (f (s.cx.rg a))
/-- A division: a zero divisor traps DIVZERO when DZT is set (R200, R313). -/
def State.division (s : State) (f : Word → Word → Word) (d a b : BitVec 5) : State :=
  if s.cx.rg b = 0#64 && s.cx.dzt then s.trapPlain .divzero else s.binary f d a b

/-! ## Meanings -/

/-- ADD (R292). -/
def execAdd (d a b : BitVec 5) (s : State) : Answer := .next (s.binary addV d a b)

/-- SUB (R292). -/
def execSub (d a b : BitVec 5) (s : State) : Answer := .next (s.binary subV d a b)

/-- AND (R292). -/
def execAnd (d a b : BitVec 5) (s : State) : Answer := .next (s.binary andV d a b)

/-- OR (R292). -/
def execOr (d a b : BitVec 5) (s : State) : Answer := .next (s.binary orV d a b)

/-- XOR (R292). -/
def execXor (d a b : BitVec 5) (s : State) : Answer := .next (s.binary xorV d a b)

/-- SHL (R292). -/
def execShl (d a b : BitVec 5) (s : State) : Answer := .next (s.binary shlV d a b)

/-- SHR (R292). -/
def execShr (d a b : BitVec 5) (s : State) : Answer := .next (s.binary shrV d a b)

/-- SAR (R292). -/
def execSar (d a b : BitVec 5) (s : State) : Answer := .next (s.binary sarV d a b)

/-- ROTR (R292). -/
def execRotr (d a b : BitVec 5) (s : State) : Answer := .next (s.binary rotrV d a b)

/-- SLT (R292). -/
def execSlt (d a b : BitVec 5) (s : State) : Answer := .next (s.binary sltV d a b)

/-- SLTU (R292). -/
def execSltu (d a b : BitVec 5) (s : State) : Answer := .next (s.binary sltuV d a b)

/-- MIN (R292). -/
def execMin (d a b : BitVec 5) (s : State) : Answer := .next (s.binary minV d a b)

/-- MAX (R292). -/
def execMax (d a b : BitVec 5) (s : State) : Answer := .next (s.binary maxV d a b)

/-- MINU (R292). -/
def execMinu (d a b : BitVec 5) (s : State) : Answer := .next (s.binary minuV d a b)

/-- MAXU (R292). -/
def execMaxu (d a b : BitVec 5) (s : State) : Answer := .next (s.binary maxuV d a b)

/-- ADDW (R292). -/
def execAddw (d a b : BitVec 5) (s : State) : Answer := .next (s.binary addwV d a b)

/-- SUBW (R292). -/
def execSubw (d a b : BitVec 5) (s : State) : Answer := .next (s.binary subwV d a b)

/-- ADDI (R293). -/
def execAddi (d a : BitVec 5) (i : BitVec 16) (s : State) : Answer := .next (s.immediate addV d a (i.signExtend 64))

/-- ANDI (R293). -/
def execAndi (d a : BitVec 5) (i : BitVec 16) (s : State) : Answer := .next (s.immediate andV d a (i.setWidth 64))

/-- ORI (R293). -/
def execOri (d a : BitVec 5) (i : BitVec 16) (s : State) : Answer := .next (s.immediate orV d a (i.setWidth 64))

/-- XORI (R293). -/
def execXori (d a : BitVec 5) (i : BitVec 16) (s : State) : Answer := .next (s.immediate xorV d a (i.setWidth 64))

/-- SLTI (R293). -/
def execSlti (d a : BitVec 5) (i : BitVec 16) (s : State) : Answer := .next (s.immediate sltV d a (i.signExtend 64))

/-- SLTIU (R293). -/
def execSltiu (d a : BitVec 5) (i : BitVec 16) (s : State) : Answer := .next (s.immediate sltuV d a (i.signExtend 64))

/-- SHLI (R353). -/
def execShli (d a : BitVec 5) (sh : BitVec 6) (s : State) : Answer := .next (s.immediate shlV d a (sh.setWidth 64))

/-- SHRI (R353). -/
def execShri (d a : BitVec 5) (sh : BitVec 6) (s : State) : Answer := .next (s.immediate shrV d a (sh.setWidth 64))

/-- SARI (R353). -/
def execSari (d a : BitVec 5) (sh : BitVec 6) (s : State) : Answer := .next (s.immediate sarV d a (sh.setWidth 64))

/-- ROTRI (R353). -/
def execRotri (d a : BitVec 5) (sh : BitVec 6) (s : State) : Answer := .next (s.immediate rotrV d a (sh.setWidth 64))

/-- LIH (R338). -/
def execLih (d : BitVec 5) (i : BitVec 16) (s : State) : Answer := .next (s.result d (i.signExtend 64 <<< 16))

/-- LIW (R339): both words are passed. -/
def execLiw (d : BitVec 5) (i : BitVec 32) (s : State) : Answer := .next (s.withDest d (fun s => s.finish d (i.signExtend 64) 2))

/-- MUL (R343). -/
def execMul (d a b : BitVec 5) (s : State) : Answer := .next (s.binary mulV d a b)

/-- MULH (R343). -/
def execMulh (d a b : BitVec 5) (s : State) : Answer := .next (s.binary mulhV d a b)

/-- MULHU (R343). -/
def execMulhu (d a b : BitVec 5) (s : State) : Answer := .next (s.binary mulhuV d a b)

/-- DIV (R200, R313). -/
def execDiv (d a b : BitVec 5) (s : State) : Answer := .next (s.division divV d a b)

/-- DIVU (R200, R313). -/
def execDivu (d a b : BitVec 5) (s : State) : Answer := .next (s.division divuV d a b)

/-- REM (R200, R313). -/
def execRem (d a b : BitVec 5) (s : State) : Answer := .next (s.division remV d a b)

/-- REMU (R200, R313). -/
def execRemu (d a b : BitVec 5) (s : State) : Answer := .next (s.division remuV d a b)

/-- CLZ (R305). -/
def execClz (d a : BitVec 5) (s : State) : Answer := .next (s.unary clzV d a)

/-- CTZ (R305). -/
def execCtz (d a : BitVec 5) (s : State) : Answer := .next (s.unary ctzV d a)

/-- POPC (R305). -/
def execPopc (d a : BitVec 5) (s : State) : Answer := .next (s.unary popcV d a)

/-- SEXT (R352). -/
def execSext (d a w : BitVec 5) (s : State) : Answer := .next (s.unary (sextV w) d a)

/-- ZEXT (R352). -/
def execZext (d a w : BitVec 5) (s : State) : Answer := .next (s.unary (zextV w) d a)

/-- BEXT (R299). -/
def execBext (d a b : BitVec 5) (s : State) : Answer := .next (s.binary bextV d a b)

/-- BINS (R299): g[d] is read and written. -/
def execBins (d a b : BitVec 5) (s : State) : Answer := .next (s.binary (binsV (s.cx.rg d)) d a b)

end Sys2Proof.Machine
end

