-- ==== Sys2Proof/Machine/LinkEvents.lean ====
section
/-! DEFINITION. What pipes, groups and lifeguards send each other: fills, credits and departures (R64, R66, R346, R347, R380),
arrivals and completions of episodes (R326 to R328), verdicts and read pointers (R222, R229, R233); and a packet's wait in the
mesh (R94, R95). -/
namespace Sys2Proof.Machine

/-! ## Pipes -/

/-- Whether an earlier change for the same pipe end is still on its way (R64, R346). DESIGN CHOICE: the changes that a departure follows are the
advances and the departures of the end; a copy notice or a deposit that the end has sent to the counter is no change of the pipe that is waited for
(R64 names none; log entry 120). -/
def State.pipeAhead (s : State) (id : Nat) (dst : CoreId) (q : BitVec 3) : Bool :=
  s.net.any (fun p => p.id < id && (match p.body with
    | .pipe d q' _ _ => d = dst && q' = q
    | .depart d q' _ _ => d = dst && q' = q
    | _ => false))

/-- Change a pipe end. -/
def Core.onEnd (c : Core) (q : BitVec 3) (f : PipeEnd → PipeEnd) : Core := { c with pipes := c.pipes.set q.toNat ((c.pipes[q.toNat]).map f) }

/-- What waits on a pipe end is tested again. -/
def Core.pipeWake (c : Core) (q : BitVec 3) : Core := c.wake (fun w => w == WaitKind.pipe q)

/-- A change reaches a pipe end (R346, R380); a consumer end that is closed or broken takes no fill. -/
def Core.pipeChange (c : Core) (q : BitVec 3) (m : PipeMsg) : Core :=
  match c.pipes[q.toNat] with
  | none => c
  | some p =>
    match m with
    | .credits n => c.onEnd q (fun p => { p with credits := p.credits + n })
    | .fill n => if p.closedHere || p.state = 2 then c else c.onFill p (fun k => { k with count := k.count + n })
    | .reserve n =>
      if p.closedHere || p.state = 2 then c
      else c.onFill p (fun k =>
        let e := Nat.min n k.early
        { k with early := k.early - e, count := k.count + e, reserved := k.reserved + (n - e) })

/-- PIPE_FAR_END_UPDATE (R346): in the order in which the far end performed its changes; a release that waits for it is tested again
(R152). -/
def execPipeFarEndUpdate (s : State) : Answer :=
  s.withPicked (fun p => match p.body with
    | .pipe dst q gang m =>
      if s.pipeAhead p.id dst q then s
      else
        let s1 := (s.dropPacket p.id).wakeAll (fun w => w == WaitKind.counters)
        if s.serves dst gang then s1.onCore dst (fun c => (c.pipeChange q m).pipeWake q) else s1
    | _ => s)

/-- A departure of the far end (R64, R347, R380): a broken pipe stays broken, and early notices are discarded. -/
def Core.farDeparts (c : Core) (q : BitVec 3) (closed : Bool) : Core :=
  match c.pipes[q.toNat] with
  | none => c
  | some p =>
    let d := c.onEnd q (fun p => { p with state := if closed then (if p.state = 0 then 1 else p.state) else 2 })
    (d.dropEarly p).pipeWake q

/-- PIPE_DEPARTURE (R64): after every earlier change of that end. -/
def execPipeDeparture (s : State) : Answer :=
  s.withPicked (fun p => match p.body with
    | .depart dst q gang closed =>
      if s.pipeAhead p.id dst q then s
      else if s.serves dst gang then (s.dropPacket p.id).onCore dst (fun c => c.farDeparts q closed)
      else s.dropPacket p.id
    | _ => s)

/-! ## Groups -/

/-- Combine two operands of a reduction (R328). -/
def combine (op : Nat) (x y : Word) : Word :=
  let f (g : Lane → Lane → FOut) : Word := ((g (x.setWidth 32) (y.setWidth 32)).v).setWidth 64
  match op with
  | 0 => x + y
  | 1 => if x.slt y then y else x
  | 2 => if x.slt y then x else y
  | 3 => f (fAdd 0#3)
  | 4 => f fMax
  | _ => f fMin

/-- One round of the combination (R328). -/
def combineRound (op : Nat) : List Word → List Word
  | x :: y :: r => combine op x y :: combineRound op r
  | l => l

/-- The result of a reduction, whose operands come in rank order (R328). -/
def combineAll (op : Nat) : (fuel : Nat) → List Word → Word
  | 0, l => l.headD 0#64
  | n + 1, l => match l with
    | [] => 0#64
    | [x] => x
    | _ => combineAll op n (combineRound op l)

/-- The operand of a rank in an episode. -/
def operandOf (l : List (Nat × Req × Word)) (rank : Nat) : Word := ((l.find? (fun a => a.1 = rank)).map (fun a => a.2.2)).getD 0#64

/-- The result of a reduction with one member (R328): an FP32 operand is zero-extended, and a NaN is canonical. -/
def aloneResult (op : Nat) (v : Word) : Word :=
  if op < 3 then v else (if isNan (v.setWidth 32) then 0x7FC00000#32 else v.setWidth 32).setWidth 64

/-- Send every member of a complete episode its end (R326). -/
def State.completeEpisode (s : State) (g : Group) (kind : Nat) (l : List (Nat × Req × Word)) : State :=
  let n := g.members.length
  let v := if kind = 0 then 0#64
    else if n = 1 then aloneResult (kind - 1) (operandOf l 0)
    else combineAll (kind - 1) n ((List.range n).map (operandOf l))
  l.foldl (fun s a => s.sendPacket 1#2 a.2.1.pri (.episode a.2.1 (BitVec.ofNat 2 g.slot) (.passed v))) s

/-- Whether a gang has lost a member, so that no arrival of its groups waits any longer (R326). -/
def State.gangLost (s : State) (gang : Nat) : Bool := (s.gang? gang).any (fun g => g.members.any (·.lost))

/-- GROUP_ARRIVAL (R70, R86, R326): passed up the group's tree to the root's home slice, and there counted, refused because of its kind,
or ended because its group is gone; a WAITLIM of 0 has run out with the first look. -/
def execGroupArrival (s : State) : Answer :=
  s.withPicked (fun p => match p.body with
    | .arrive home gang id rank r slot kind operand =>
      let s1 := s.dropPacket p.id
      let reply (e : GroupEnd) : State := s1.sendPacket 1#2 p.pri (.episode r slot e)
      match s.groups.find? (fun g => g.gang = gang && g.id = id && g.slot = slot.toNat && g.members.contains r.core) with
      | none => reply .ended
      | some g =>
        if s.gangLost gang then reply .ended
        else match g.parent (dieOf home) with
        | some up => s1.sendPacket 0#2 p.pri (.arrive (g.homeSlice up) gang id rank r slot kind operand)
        | none =>
        if g.kind.any (· ≠ kind) then reply .refused
        else
          let l := g.arrivals ++ [(rank, r, operand)]
          if l.length = g.members.length then
            (s1.onGroup g (fun g => { g with kind := none, arrivals := [] })).completeEpisode g kind l
          else
            let s2 := s1.onGroup g (fun g => { g with kind := some kind, arrivals := l })
            if (s.ctxAt r.core r.ctx).timedOut then s2.ready r.core r.ctx else s2
    | _ => s)

/-- GROUP_EPISODE_COMPLETE (R326, R327). -/
def execGroupEpisodeComplete (s : State) : Answer :=
  s.withPicked (fun p => match p.body with
    | .episode r _ e => (s.dropPacket p.id).answer r (fun o => match e with
      | .passed v => { o with status := some 0, result := some v }
      | .refused => { o with status := some 2 }
      | .ended => { o with status := some 1 })
    | _ => s)

/-! ## Lifeguards -/

/-- Whether an earlier verdict for the same worker is still on its way (R227). -/
def State.verdictAhead (s : State) (id : Nat) (worker : CoreId) : Bool :=
  s.net.any (fun p => p.id < id && (match p.body with | .verdict w _ _ => w = worker | _ => false))

/-- LIFEGUARD_VERDICT (R227, R229): a pass covers the records up to it; a fail kills the activation that logged the record, and is
ignored once that activation has ended. -/
def execLifeguardVerdict (s : State) : Answer :=
  s.withPicked (fun p => match p.body with
    | .verdict worker n fail =>
      if s.verdictAhead p.id worker then s
      else
        let s1 := s.dropPacket p.id
        match fail with
        | none =>
          (s1.onBinding worker (fun b => if covers b.pass n then b else { b with pass := some n })).wake worker
            (fun w => match w with | .verdict _ => true | _ => false)
        | some r =>
          if (s.ctxAt worker r.ctx).act.serial = r.serial then s1.lgFail worker r.ctx r.type n r.pc r.addr r.dirty else s1
    | _ => s)

/-- LOG_READ_POINTER_ADVANCE (R222). -/
def execLogReadPointerAdvance (s : State) : Answer :=
  s.withPicked (fun p => match p.body with
    | .readPointer worker rp total =>
      ((s.dropPacket p.id).onBinding worker (fun b =>
        if b.seenTotal < total then { b with rpSeen := rp, seenTotal := total } else b)).wake worker
        (fun w => match w with | .lag | .startLag => true | _ => false)
    | _ => s)

/-- LOG_DEFERRED_TRAP_RECORD (R233): the oldest record that a kill left is written once it fits. -/
def execLogDeferredTrapRecord (worker : CoreId) (s : State) : Answer :=
  .next (match s.workerBinding worker with
    | none => s
    | some b =>
      match b.heldTrap with
      | [] => s
      | h :: rest =>
        let b1 : Binding := { b with heldTrap := [] }
        if b1.fits (recordBytes b1 h.pc h.item).length then
          (s.appendLog { b with heldTrap := rest } h.ctx h.serial h.pc h.item).wake worker (fun w => match w with | .lag | .startLag => true | _ => false)
        else s)

/-! ## The mesh -/

/-- Change a packet in the mesh. -/
def State.onPacket (s : State) (id : Nat) (f : Packet → Packet) : State :=
  { s with net := s.net.map (fun p => if p.id = id then f p else p) }

/-- PACKET_ESCAPE (R94): a packet that has been blocked for 8,192 mesh cycles at a router's head keeps its class and stays on its escape
channel. -/
def execPacketEscape (s : State) : Answer :=
  .next (s.onPacket s.pick (fun p => if 8192 ≤ p.blocked then { p with escape := true } else p))

/-- PACKET_AGE_SATURATION (R95): S is set once the counter would rise past 255. -/
def execPacketAgeSaturation (s : State) : Answer :=
  .next (s.onPacket s.pick (fun p => if 4096 ≤ p.waited then { p with age := 255#8, s := true } else p))

end Sys2Proof.Machine
end

