-- ==== Sys2Proof/Machine/LoadStore.lean ====
section
/-! DEFINITION. The meanings of the loads, the store and the atomics (R294 to R296, R334, R335, R356, R357). -/
namespace Sys2Proof.Machine

/-- How a load of an order field reads (R264, R334). -/
def loadMode (o sc : BitVec 2) : LoadMode := if o = 1#2 then .acquire sc else if o = 2#2 then .stream else .plain

/-- Whether the core's log is in record mode (R232). -/
def State.recordMode (s : State) : Bool := (s.workerBinding s.meId).any (·.d)

/-- A LOAD record, with its value in record mode (R224). -/
def loadItem (d : Bool) (z : BitVec 2) (va v : Nat) : LogItem :=
  { type := 1, size := z.toNat, addr := some (BitVec.ofNat 64 va), body := if d then leBytesOf (2 ^ z.toNat) v else [] }

/-- A load of 2^z bytes into g[d], extended as given (R334, R335). -/
def State.loadReg (s : State) (ext : Nat → Nat → Word) (d a : BitVec 5) (i : BitVec 10) (sc z o : BitVec 2) : State :=
  let va := addrOf (s.cx.rg a) (i.signExtend 64)
  let n := 2 ^ z.toNat
  s.withDest d (fun s => s.load va n (loadMode o sc) (fun s v =>
    s.withLog (loadItem s.recordMode z va v) (fun s => s.finish d (ext n v) 1)))

/-- LD (R334): zero-extended. -/
def execLd (d a : BitVec 5) (i : BitVec 10) (sc z o : BitVec 2) (s : State) : Answer :=
  .next (s.loadReg (fun _ v => BitVec.ofNat 64 v) d a i sc z o)

/-- LDS (R334): sign-extended. -/
def execLds (d a : BitVec 5) (i : BitVec 10) (sc z o : BitVec 2) (s : State) : Answer :=
  .next (s.loadReg sextBytes d a i sc z o)

/-- A STORE record (R224). -/
def storeItem (z : BitVec 2) (va v : Nat) : LogItem :=
  { type := 2, size := z.toNat, addr := some (BitVec.ofNat 64 va), body := leBytesOf (2 ^ z.toNat) v, dirty := true }

/-- The store itself, by its order field (R356). -/
def State.storeBy (s : State) (o sc : BitVec 2) (t : Tgt) (va n v : Nat) : State :=
  if o = 1#2 then s.storeRelease t va n v sc
  else if o = 2#2 then s.storeStream t va n v
  else s.storePlain t va n v

/-- ST (R356, R357): the low 2^z bytes of g[v]. The context's release stores are performed in their order, so that one of them waits for no
other (R137, R284). -/
def execSt (v a : BitVec 5) (i : BitVec 10) (sc z o : BitVec 2) (s : State) : Answer :=
  let va := addrOf (s.cx.rg a) (i.signExtend 64)
  let n := 2 ^ z.toNat
  let w := (s.cx.rg v).toNat % 2 ^ (8 * n)
  let behind (s : State) (t : Tgt) (f : State → State) : State := if o = 1#2 then f s else s.afterRel (relKey t) n f
  .next (s.withTarget va n .write false (fun s t =>
    behind s t (fun s =>
      s.withStoreRoom o sc t (fun s =>
        s.withLog (storeItem z va w) (fun s => (s.dirty.storeBy o sc t va n w).retire 1)))))

/-! ## Atomics -/

/-- An ATOMIC record: the operand and, in record mode, the old value (R224). -/
def atomicItem (d : Bool) (n va operand old : Nat) : LogItem :=
  { type := 3, size := if n = 8 then 3 else 2, addr := some (BitVec.ofNat 64 va),
    body := leBytesOf n operand ++ (if d then leBytesOf n old else []), dirty := true }

/-- The operands of an atomic. -/
structure Amo where
  aop : BitVec 4
  d : BitVec 5
  va : Nat
  n : Nat
  operand : Word
  compare : Word
  scope : Scope
  release : Bool
  acquire : Bool

/-- The operands of an AMO word (R294). -/
def State.amoOf (s : State) (aop : BitVec 4) (d a b : BitVec 5) (sc z o : BitVec 2) : Amo :=
  { aop := aop, d := d, va := addrOf (s.cx.rg a) 0#64, n := if z = 3#2 then 8 else 4, operand := s.cx.rg b, compare := s.cx.rg d,
    scope := sc, release := o.getLsbD 1, acquire := o.getLsbD 0 }

/-- The old value that a record in record mode carries of a reduction that is not performed: the manual states none (log entry
13). -/
def State.unreturned (s : State) : Nat := (Config.freeWord s.tick).toNat

/-- Retire an atomic with its old value: the acquire, then g[d] (R141, R294). -/
def State.amoDone (s : State) (m : Amo) (old : Nat) : State :=
  (if m.acquire then s.acquireLines s.meId s.me.cur m.scope else s).finish m.d (BitVec.ofNat 64 (old % 2 ^ (8 * m.n))) 1

/-- An atomic on the issuing core's own local memory, at context scope (R295). -/
def State.amoSelf (s : State) (m : Amo) (off : Nat) : State :=
  if s.me.localBad off m.n then
    (if m.d = 0#5 then s.withLog (atomicItem s.recordMode m.n m.va m.operand.toNat s.unreturned) (fun s => s.dirty.retire 1)
     else s.faultOut (poisonAtomic (BitVec.ofNat 64 m.va)))
  else
    let old := s.me.localRead off m.n
    s.withLog (atomicItem s.recordMode m.n m.va m.operand.toNat old) (fun s =>
      let s1 := match amoValue m.aop.toNat m.n old m.operand.toNat m.compare.toNat with
        | some v => s.onMe (fun c => c.localWrite off m.n v)
        | none => s
      s1.dirty.amoDone m old)

/-- The request of an atomic to its home or to the owning core. -/
def State.amoSend (s : State) (m : Amo) (t : Tgt) (ret : Bool) : State :=
  let r := s.reqOf s.meId s.me.cur
  match t with
  | .paged xl =>
    let s1 := s.purgeLine xl
    let sc := s.scopeOfHome s.meId xl false
    (if ret then s1 else s1.countWrite r sc).sendPacket 0#2 r.pri
      (.atomic r xl (BitVec.ofNat 64 m.va) m.aop (m.n = 8) m.operand m.compare ret (if m.release then some m.scope else none)
        (if m.acquire then some m.scope else none) sc)
  | .core dst off =>
    (if ret then s else s.countWrite r (scopeOf s.meId dst)).sendWindow r dst off m.va (.atomic m.aop (m.n = 8) m.operand m.compare ret)
  | .self _ => s

/-- Go on once the counter takes what an atomic sends: the write-back of its line, and a reduction itself (R134). -/
def State.withAmoRoom (s : State) (t : Tgt) (ret : Bool) (f : State → State) : State :=
  match t with
  | .paged xl => s.withLineRoom xl.pa (if ret then none else some (s.scopeOfHome s.meId xl false)) f
  | .core dst _ => if ret then f s else s.withCount (scopeOf s.meId dst) f
  | .self _ => f s

/-- A reduction whose translation faults retires unperformed, its record logged and its fault kept for the next FENCE of any scope
(R141, R296); poison on the walk kills (R382). -/
def State.amoDefer (s : State) (m : Amo) (i : TrapInfo) : State :=
  if i.cause = .uncorrectable then s.faultOut i
  else s.withLog (atomicItem s.recordMode m.n m.va m.operand.toNat s.unreturned) (fun s => (s.dirty.defer i none).retire 1)

/-- Whether a reduction's record needs its old value, for which it then waits (R224, R232; log entry 13). -/
def State.recordsOld (s : State) : Bool := s.recordMode && (s.workerBinding s.meId).any (fun b => b.logs 3)

/-- The scope of a destination that has refused a request: that of the core which a window address names, and sys for a peer (R103, R246). -/
def State.vaScope (s : State) (va : Nat) : Scope :=
  match (if inWindow va then windowTarget s.meId va else none) with
  | some (.core c _) => scopeOf s.meId c
  | _ => 3#2

/-- A reduction that waited for its old value retires unperformed (R296): a refusal is kept for the FENCE that covers its destination,
and poison at the home ends nothing. -/
def State.amoRefused (s : State) (m : Amo) (i : TrapInfo) : State :=
  s.withLog (atomicItem s.recordMode m.n m.va m.operand.toNat s.unreturned) (fun s =>
    let s1 := if i.cause = .uncorrectable then s.dirty
      else s.dirty.defer i (some (s.vaScope m.va))
    s1.retire 1)

/-- An atomic once its target is known (R141, R294 to R296). -/
def State.amoAt (s : State) (m : Amo) (t : Tgt) : State :=
  let isHost := match t with | .paged xl => xl.region = .host | _ => false
  if isHost && !hostAtomic m.aop.toNat then s.trap (faultAt .atomicPath m.va .write 0#3)
  else
    s.afterRel (relKey t) m.n (fun s =>
      let go (s : State) : State :=
        match t with
        | .self off => s.amoSelf m off
        | _ =>
          if m.d = 0#5 && !s.recordsOld then
            s.withAmoRoom t false (fun s =>
              s.withLog (atomicItem s.recordMode m.n m.va m.operand.toNat s.unreturned) (fun s => (s.dirty.amoSend m t false).retire 1))
          else s.withAmoRoom t true (fun s => (s.amoSend m t true).awaitReply)
      if m.release then s.withRelease m.scope 1 go else go s)

/-- An AMO (R294): a returning one that has been sent waits for its old value; faults of a no-return reduction's translation are
deferred. -/
def State.amo (s : State) (m : Amo) : State :=
  if s.cx.op.phase = 9 then
    match s.cx.op.fault, s.cx.op.result with
    | some i, _ => if m.d = 0#5 then s.amoRefused m i else s.faultOut i
    | none, some v =>
      s.withLog (atomicItem s.recordMode m.n m.va m.operand.toNat v.toNat) (fun s => s.dirty.amoDone m v.toNat)
    | none, none => s.awaitReply
  else if m.d = 0#5 then s.withTargetOr m.va m.n .write true (fun s i => s.amoDefer m i) (fun s t => s.amoAt m t)
  else s.withDest m.d (fun s => s.withTarget m.va m.n .write true (fun s t => s.amoAt m t))

/-- AMOADD (R294). -/
def execAmoadd (d a b : BitVec 5) (sc z o : BitVec 2) (s : State) : Answer := .next (s.amo (s.amoOf 0#4 d a b sc z o))

/-- AMOSWP (R294). -/
def execAmoswp (d a b : BitVec 5) (sc z o : BitVec 2) (s : State) : Answer := .next (s.amo (s.amoOf 1#4 d a b sc z o))

/-- AMOAND (R294). -/
def execAmoand (d a b : BitVec 5) (sc z o : BitVec 2) (s : State) : Answer := .next (s.amo (s.amoOf 2#4 d a b sc z o))

/-- AMOOR (R294). -/
def execAmoor (d a b : BitVec 5) (sc z o : BitVec 2) (s : State) : Answer := .next (s.amo (s.amoOf 3#4 d a b sc z o))

/-- AMOXOR (R294). -/
def execAmoxor (d a b : BitVec 5) (sc z o : BitVec 2) (s : State) : Answer := .next (s.amo (s.amoOf 4#4 d a b sc z o))

/-- AMOMIN (R294). -/
def execAmomin (d a b : BitVec 5) (sc z o : BitVec 2) (s : State) : Answer := .next (s.amo (s.amoOf 5#4 d a b sc z o))

/-- AMOMAX (R294). -/
def execAmomax (d a b : BitVec 5) (sc z o : BitVec 2) (s : State) : Answer := .next (s.amo (s.amoOf 6#4 d a b sc z o))

/-- AMOMINU (R294). -/
def execAmominu (d a b : BitVec 5) (sc z o : BitVec 2) (s : State) : Answer := .next (s.amo (s.amoOf 7#4 d a b sc z o))

/-- AMOMAXU (R294). -/
def execAmomaxu (d a b : BitVec 5) (sc z o : BitVec 2) (s : State) : Answer := .next (s.amo (s.amoOf 8#4 d a b sc z o))

/-- AMOFADD (R294). -/
def execAmofadd (d a b : BitVec 5) (sc z o : BitVec 2) (s : State) : Answer := .next (s.amo (s.amoOf 9#4 d a b sc z o))

/-- AMOFMIN (R294). -/
def execAmofmin (d a b : BitVec 5) (sc z o : BitVec 2) (s : State) : Answer := .next (s.amo (s.amoOf 10#4 d a b sc z o))

/-- AMOFMAX (R294). -/
def execAmofmax (d a b : BitVec 5) (sc z o : BitVec 2) (s : State) : Answer := .next (s.amo (s.amoOf 11#4 d a b sc z o))

/-- AMOCAS (R294). -/
def execAmocas (d a b : BitVec 5) (sc z o : BitVec 2) (s : State) : Answer := .next (s.amo (s.amoOf 12#4 d a b sc z o))

end Sys2Proof.Machine
end

