-- ==== Sys2Proof/Machine/MessageEvents.lean ====
section
/-! DEFINITION. The arrival of messages, deposits, SPAWN requests, AQ answers, copy notices and latches, and the network
interface's answers and retries (R36 to R45, R48, R56, R59 to R61, R71, R77, R207, R297, R304, R354, R355, R379, R380). -/
namespace Sys2Proof.Machine

/-! ## Handler messages and deposits -/

/-- Tell the sender that its message is taken, which frees its outbox entry (R41, R56); a start message has no entry (R88). -/
def State.accept (s : State) (src : CoreId) (slot : Nat) (core : CoreId) (start : Bool) : State :=
  if start then s else s.sendPacket 1#2 (s.slotPri src slot) (.accepted src slot core)

/-- A handler message at a core that serves its gang (R43, R48, R49): the lowest free pail, or a refusal; a start message that is
refused is sent again by its launch unit (R77, R88). -/
def State.takeMessage (s : State) (core src : CoreId) (hdr : Word) (payload : List Word) (slot : Nat) (start : Bool) : State :=
  let c := s.core core
  let idx : BitVec 8 := BitVec.ofNat 8 (fld hdr.toNat 6 8)
  match c.freePail? with
  | none =>
    if start then s.sendPacket 2#2 (BitVec.ofNat 2 (fld hdr.toNat 14 2)) (.message core src (c.gang.getD 0) hdr payload slot true)
    else s.sendPacket 1#2 (s.slotPri src slot) (.refused src slot core)
  | some i =>
    let s1 := s.accept src slot core start
    if c.dropTasks then s1
    else match c.entry? idx with
      | some h =>
        if 252 ≤ idx.toNat then (s1.onCore core (fun c => (c.fillPail i .freed false hdr payload))).discard core .illegal hdr
        else s1.onCore core (fun c => (c.fillPail i .queued start hdr payload).enqueue
          { place := .pail i, pri := maxPri (BitVec.ofNat 2 (fld hdr.toNat 14 2)) h.pri, handler := idx })
      | none => (s1.onCore core (fun c => c.fillPail i .freed false hdr payload)).discard core .illegal hdr

/-- Whether a gang's start message finds its member saved: it waits for the restore (R88, R177, R181). -/
def State.startWaits (s : State) (core : CoreId) (gang : Nat) : Bool :=
  !s.serves core gang && (s.gang? gang).any (fun g => g.phase = .saving || g.phase = .saved || g.phase = .restoring)

/-- HANDLER_MESSAGE (R38, R41, R43, R48, R77, R278). What a watched worker does not take before its start message is refused while its gang
saves, so that the save does not wait for it (R177). -/
def execHandlerMessage (s : State) : Answer :=
  s.withPicked (fun p => match p.body with
    | .message dst src gang hdr payload slot start =>
      if hdr.getLsbD 5 || (start && s.startWaits dst gang) then s
      else if !start && s.startComing dst then
        (if s.savingAt dst then (s.dropPacket p.id).sendPacket 1#2 (s.slotPri src slot) (.refused src slot dst) else s)
      else
        let s1 := (s.dropPacket p.id).onCore dst Core.stir
        if s.serves dst gang then s1.takeMessage dst src hdr payload slot start
        else (s1.accept src slot dst start).discard dst .window hdr
    | _ => s)

/-- DEPOSIT_MESSAGE (R39 to R41, R66): the payload, then the counter, or neither. -/
def execDepositMessage (s : State) : Answer :=
  s.withPicked (fun p => match p.body with
    | .message dst src gang hdr payload slot start =>
      if !hdr.getLsbD 5 then s
      else
        let s1 := ((s.dropPacket p.id).onCore dst Core.stir).accept src slot dst start
        let off := 8 * fld hdr.toNat 17 12
        let i : BitVec 5 := BitVec.ofNat 5 (fld hdr.toNat 6 5)
        let c := s.core dst
        if !s.serves dst gang then s1.discard dst .window hdr
        else if !payload.isEmpty && !c.depositOk off (8 * payload.length) then s1.discard dst .window hdr
        else if c.fillOver i false then s1.discard dst .pipeBroken hdr
        else s1.onCore dst (fun c => ({ c with localMem := c.localMem.storeDwords off payload } : Core).notify i false)
    | _ => s)

/-! ## Answers to the sender -/

/-- An outbox entry is freed, and what waits for one is tested again (R56, R57). -/
def Core.freeEntry (c : Core) (slot : Nat) : Core :=
  ({ c with outbox := c.outbox.filter (fun e => e.slot ≠ slot) } : Core).wake (fun w => w == WaitKind.outbox)

/-- A destination has taken a message: its entry is freed when no destination is left (R56, R340). -/
def Core.delivered (c : Core) (slot : Nat) (member : CoreId) : Core :=
  match c.outbox.find? (fun e => e.slot = slot && e.released) with
  | none => c
  | some e =>
    let left := e.dests.filter (fun d => d.core ≠ member)
    if left.isEmpty then c.freeEntry slot
    else { c with outbox := c.outbox.map (fun x => if x.slot = slot then { x with dests := left } else x) }

/-- MESSAGE_ACCEPTANCE (R56). -/
def execMessageAcceptance (s : State) : Answer :=
  s.withPicked (fun p => match p.body with
    | .accepted dst slot member => (s.dropPacket p.id).onCore dst (fun c => c.delivered slot member)
    | _ => s)

/-- The refused destination of an entry waits for its backoff (R71). -/
def OutEntry.refused (e : OutEntry) (member : CoreId) : OutEntry :=
  if e.dests.any (fun d => d.core = member) then
    { e with dests := e.dests.map (fun d => if d.core = member then { d with inFlight := false } else d) }
  else { e with dests := e.dests ++ [{ core := member, inFlight := false }] }

/-- MESSAGE_REFUSAL (R77). -/
def execMessageRefusal (s : State) : Answer :=
  s.withPicked (fun p => match p.body with
    | .refused dst slot member => (s.dropPacket p.id).onCore dst (fun c =>
        { c with outbox := c.outbox.map (fun e => if e.slot = slot && e.released then e.refused member else e) })
    | _ => s)

/-- Send an entry to one destination again. -/
def State.resend (s : State) (core : CoreId) (e : OutEntry) (dst : CoreId) : State :=
  match e.kind with
  | .message | .multicast _ => s.sendCopy core e dst
  | _ => s.sendEntry core e

/-- The group of an outbox entry's multicast. -/
def State.entryGroup (s : State) (core : CoreId) (e : OutEntry) : Option Group :=
  match e.kind with
  | .multicast slot => s.groupAt core slot.toNat
  | _ => none

/-- Whether some members have accepted a released multicast and some have not (R177). -/
def State.partly (s : State) (core : CoreId) (e : OutEntry) : Bool :=
  e.released && (s.entryGroup core e).any (fun g => e.dests.length + 1 < g.members.length)

/-- Whether an acceptance bitmap has been written for an outbox entry (R177). -/
def State.hasBitmap (s : State) (core : CoreId) (slot : Nat) : Bool :=
  ((s.core core).gang.bind s.gang?).any (fun g => g.members.any (fun m => m.core = core && m.extra.any (fun x => x.1 = slot)))

/-- REFUSAL_BACKOFF_EXPIRY (R71): the message is sent again, and the next backoff is twice as long, up to 4,096 mesh cycles. While
its gang saves, it stays in the outbox, but for a multicast that some members have accepted and that has no acceptance bitmap, whose other
copies the save waits for (R177). -/
def execRefusalBackoffExpiry (core : CoreId) (slot : Nat) (dst : CoreId) (s : State) : Answer :=
  .next (match (s.core core).outbox.find? (fun e => e.slot = slot && e.released && e.dests.any (fun d => d.core = dst && !d.inFlight)) with
    | none => s
    | some e =>
      if s.savingAt core && (!s.partly core e || s.hasBitmap core slot) then s else
      let f (d : OutDest) : OutDest := if d.core = dst then { d with inFlight := true, backoff := Nat.min 4096 (2 * d.backoff) } else d
      (s.onCore core (fun c =>
        { c with outbox := c.outbox.map (fun x => if x.slot = slot then { x with dests := x.dests.map f } else x) })).resend core e dst)

/-! ## SPAWN -/

/-- The context and the pail that a SPAWN request takes at its target, if the target accepts (R60, R355). -/
def State.spawnPlace (s : State) (dst : CoreId) (gang sregs tiles : Nat) : Option (CtxId × Nat) :=
  let c := s.core dst
  if !s.serves dst gang || c.noAdmit || c.dropTasks || s.workerFull dst || !c.fits sregs tiles then none
  else match c.freeCtx?, c.freePail? with
    | some k, some i => some (k, i)
    | _, _ => none

/-- SPAWN_REQUEST (R60, R177, R278, R355): the child starts at once, or the request is refused. -/
def execSpawnRequest (s : State) : Answer :=
  s.withPicked (fun p => match p.body with
    | .spawnReq dst r slot gang hdr args sregs tiles =>
      let s1 := s.dropPacket p.id
      if s.startComing dst && !s.savingAt dst then s
      else match (if s.startComing dst then none else s.spawnPlace dst gang sregs tiles) with
      | none => s1.sendPacket 1#2 p.pri (.spawnAns r slot false)
      | some (k, i) =>
        let a (n : Nat) : Word := args[n]?.getD 0#64
        let act : Act := { handler := 0#8, pri := BitVec.ofNat 2 (fld hdr.toNat 14 2), source := .pail i, header := hdr, sregs := sregs, tiles := tiles }
        let s2 := s1.onCore dst (fun c => c.fillPail i .running false hdr args)
        (s2.startIn dst k act (a 0) hdr (selfWindow (128 * i)) (a 1) (a 2) (a 3) (a 4) 0#8 (scopeOf r.core dst)).sendPacket 1#2 p.pri
          (.spawnAns r slot true)
    | _ => s)

/-- SPAWN_ANSWER (R354). -/
def execSpawnAnswer (s : State) : Answer :=
  s.withPicked (fun p => match p.body with
    | .spawnAns r _ ok => (s.dropPacket p.id).answer r (fun o => { o with status := some (if ok then 0 else 1) })
    | _ => s)

/-! ## AQ, copy notices and latches -/

/-- AQ_REQUEST (R61, R297): the atomic is performed at its home behind its core's earlier writes of the line (R133). -/
def execAqRequest (s : State) : Answer :=
  s.withPicked (fun p => match p.body with
    | .aqReq r xl _ _ _ _ => s.serveLine r.core xl.pa p.id
    | _ => s)

/-- AQ_ANSWER (R61, R297): the old value lands under R40, then the counter is notified. -/
def execAqAnswer (s : State) : Answer :=
  s.withPicked (fun p => match p.body with
    | .aqAns r desc value poison sc =>
      let off := desc.toNat % 2 ^ 15
      let i : BitVec 5 := BitVec.ofNat 5 (fld desc.toNat 16 5)
      let s1 := ((s.dropPacket p.id).onCore r.core Core.stir).creditWrite r sc
      if !s.present r.core then s1
      else if !(s.core r.core).depositOk off 8 then s1.discard r.core .window desc
      else
        let s2 := s1.onCore r.core (fun c =>
          let d := c.localWrite off 8 value.toNat
          if poison then d.poisonLocal off 8 else d)
        if desc.getLsbD 15 then s2.counterAct r.core i false desc else s2
    | _ => s)

/-- COPY_NOTICE (R41, R66, R311, R380). -/
def execCopyNotice (s : State) : Answer :=
  s.withPicked (fun p => match p.body with
    | .notice dst _ gang v =>
      let s1 := (s.dropPacket p.id).onCore dst Core.stir
      if s.serves dst gang then s1.counterAct dst (BitVec.ofNat 5 v.toNat) true v else s1.discard dst .window v
    | _ => s)

/-- LATCH_ARRIVAL (R207, R304): once no command that executes reads the latch, it is written as one unit, then the counter is notified. -/
def execLatchArrival (s : State) : Answer :=
  s.withPicked (fun p => match p.body with
    | .latch dst _ gang l data bad n c =>
      if s.serves dst gang && (s.core dst).latchBusy l then s
      else
      let s1 := (s.dropPacket p.id).onCore dst Core.stir
      if s.serves dst gang then
        let s2 := s1.onCore dst (fun k => (k.setLatch l data).latchMark l bad)
        if n then s2.counterAct dst c false 0#64 else s2
      else s1.discard dst .window 0#64
    | _ => s)

end Sys2Proof.Machine
end

