-- ==== Sys2Proof/Machine/Placement.lean ====
section
/-! DEFINITION. Placing a gang (R84, R85) and starting it (R47, R62, R80, R81, R86 to R88, R107, R277, R278, R281). -/
namespace Sys2Proof.Machine

/-! ## Placement -/

/-- The distance between two routers. -/
def meshDistance (a b : CoreId) : Nat :=
  let d (x y : Nat) : Nat := Nat.max x y - Nat.min x y
  d (meshX a) (meshX b) + d (meshY a) (meshY b)

/-- The cost of a cluster for a record (R84): by the shares of the named vats, or the distance to the home launch unit; none
with AUTO = 0. -/
def placeCost (t : Tenant) (r : LaunchRec) (c : CoreId) : Nat :=
  if !r.auto then 0
  else match r.vats with
    | [] => meshDistance c (launchUnit t.homeDie)
    | vs => ((vs.filterMap t.liveVat).flatMap (fun v => v.cur.shares.map (fun sh => popcount 16 sh.ways.toNat * meshDistance c sh.slice))).sum

/-- Insert into a list that rises by a key. -/
def insertBy (key : CoreId → Nat) (c : CoreId) : List CoreId → List CoreId
  | [] => [c]
  | x :: r => if key c < key x then c :: x :: r else x :: insertBy key c r

/-- A tenant's clusters that a group may use, by cost, then die, y and x (R80, R84). -/
def groupClusters (t : Tenant) (r : LaunchRec) (k : Nat) : List CoreId :=
  (t.clusters.filter (fun c => r.allows k (dieOf c))).foldl (fun l c => insertBy (fun d => placeCost t r d * 2 ^ 20 + clusterIndex d) c l) []

/-- Whether a core is free for a placement that passes over some cores (R84, R282). -/
def State.isFree (s : State) (avoid : List CoreId) (c : CoreId) : Bool := s.present c && (s.core c).gang.isNone && !avoid.contains c

/-- The cores for one group, in rank order: the free ones first, then suspect ones where those do not suffice (R84). -/
def State.takeCores (s : State) (avoid : List CoreId) (clusters : List CoreId) (n : Nat) : Option (List CoreId) :=
  let all := (clusters.flatMap coresOf).filter (s.isFree avoid)
  let good := all.filter (fun c => !s.parlour.suspect.contains c)
  let l := (good ++ all.filter (fun c => s.parlour.suspect.contains c)).take n
  if l.length = n then some l else none

/-- Bind a group on a slot of its members' group tables, with the lowest id free on all its dies (R85, R86). -/
def State.addGroup (s : State) (gang slot : Nat) (members : List CoreId) : Option State :=
  (s.freeId members).map (fun id => { s with groups := s.groups ++ [{ gang := gang, id := id, slot := slot, members := members }] })

/-- Place the groups of a record from group `k` on: the cores of each group, with their ids taken (R84 to R86). -/
def State.placeGroups (s : State) (t : Tenant) (r : LaunchRec) (avoid : List CoreId) : (n k : Nat) → List CoreId →
    Option (State × List (List CoreId))
  | 0, _, taken =>
    if r.groups < 2 then some (s, []) else (s.addGroup r.key 1 taken).map (fun s => (s, []))
  | n + 1, k, taken =>
    (s.takeCores (avoid ++ taken) (groupClusters t r k) (r.count k)).bind (fun l =>
      (s.addGroup r.key 0 l).bind (fun s1 =>
        (State.placeGroups s1 t r avoid n (k + 1) (taken ++ l)).map (fun p => (p.1, l :: p.2))))

/-- The members of groups, in rank order. -/
def membersOf : Nat → List (List CoreId) → List Member
  | _, [] => []
  | k, l :: r => (List.range l.length).map (fun i => { core := l[i]?.getD 0#20, group := k, rank := i }) ++ membersOf (k + 1) r

/-- A gang's cores serve it. -/
def State.serveGang (s : State) (key : Nat) (l : List CoreId) : State :=
  l.foldl (fun s c => s.onCore c (fun c => { c with gang := some key })) s

/-- Where a saved member's core is now. -/
def movedTo (old new : List CoreId) (c : CoreId) : CoreId := ((old.zip new).find? (fun p => p.1 = c)).elim c (·.2)

/-- Bind the groups of a saved gang again, at its new cores, with the arrivals of their open episodes (R93, R181, R326). -/
def State.rebindGroups (s : State) (move : CoreId → CoreId) : List Group → Option State
  | [] => some s
  | g :: r =>
    let ms := g.members.map move
    (s.freeId ms).bind (fun id => State.rebindGroups { s with groups := s.groups ++ [{ g with
      id := id, members := ms, arrivals := g.arrivals.map (fun a => (a.1, { a.2.1 with core := move a.2.1.core }, a.2.2)) }] } move r)

/-- Place the cores of a saved gang's groups (R282). -/
def State.placeSaved (s : State) (t : Tenant) (g : Gang) : (n k : Nat) → List CoreId → Option (List CoreId)
  | 0, _, taken => some taken
  | n + 1, k, taken =>
    let need := (g.members.filter (fun m => m.group = k)).length
    (s.takeCores (g.members.map (·.core) ++ taken) (groupClusters t g.rcd k) need).bind (fun l => State.placeSaved s t g n (k + 1) (taken ++ l))

/-- Place a record, if all its members can be resident at once (R84, R85): a new gang, or a saved one that will be restored. -/
def State.place (s : State) (t : Tenant) (r : LaunchRec) : Option State :=
  match s.gang? r.key with
  | none =>
    (s.placeGroups t r [] r.groups 0 []).map (fun (s1, ls) =>
      let g : Gang := { key := r.key, tenant := t.id, rcd := { r with age := 0 }, members := membersOf 0 ls }
      { s1.serveGang r.key ls.flatten with gangs := s1.gangs ++ [g] })
  | some g =>
    (s.placeSaved t g r.groups 0 []).bind (fun l =>
      let move := movedTo (g.members.map (·.core)) l
      (s.rebindGroups move g.groups).map (fun s1 =>
        ((s1.serveGang g.key l).onGang g.key (fun g => { g with phase := .restoring, groups := [] })).onGang g.key (fun g =>
          { g with members := g.members.map (fun m => { m with core := move m.core })
                   bindings := g.bindings.map (fun b => { b with worker := move b.worker, guard := move b.guard }) })))

/-- The records of a priority, in arrival order. -/
def Tenant.atPri (t : Tenant) (p : BitVec 2) : List LaunchRec := t.queue.filter (fun r => r.pri = p)

/-- The heads of the priorities, from 3 down (R85). -/
def Tenant.heads (t : Tenant) : List LaunchRec := ([3#2, 2#2, 1#2, 0#2] : List (BitVec 2)).filterMap (fun p => (t.atPri p).head?)

/-- The records that may be placed, in the order in which they are tried: a head of age 16 alone, or all (R85).
DESIGN CHOICE: of two heads of age 16, each of which bars every other record, the one of the higher priority is tried alone (log entry 107). -/
def Tenant.tried (t : Tenant) : List LaunchRec :=
  match t.heads.find? (fun r => 16 ≤ r.age) with
  | some r => [r]
  | none => ([3#2, 2#2, 1#2, 0#2] : List (BitVec 2)).flatMap t.atPri

/-- The first record of a list that can be placed. -/
def State.placeFirst (s : State) (t : Tenant) : List LaunchRec → Option (State × LaunchRec)
  | [] => none
  | r :: l => match s.place t r with
    | some s1 => some (s1, r)
    | none => State.placeFirst s t l

/-- GANG_PLACEMENT (R84, R85): the first record in order that can be placed is; every head that could not be is passed. -/
def execGangPlacement (tenant : Nat) (s : State) : Answer :=
  .next (match s.tenant tenant with
    | none => s
    | some t =>
      match s.placeFirst t t.tried with
      | none => s
      | some (s1, r) =>
        let passed := (t.heads.filter (fun h => h.key ≠ r.key && (s.place t h).isNone)).map (·.key)
        (s1.onTenant tenant (fun t =>
          { t with queue := (t.queue.filter (fun x => x.key ≠ r.key)).map (fun x =>
              if passed.contains x.key then { x with age := Nat.min 16 (x.age + 1) } else x) })).promote tenant)

/-! ## Start -/

/-- The lines of a byte range, as a set of slots. -/
def lineMask (lo hi : Nat) : BitVec 512 := BitVec.ofNat 512 ((2 ^ ((hi + 63) / 64 - lo / 64) - 1) * 2 ^ (lo / 64))

/-- The members of a group by rank. -/
def Gang.group (g : Gang) (k : Nat) : List CoreId := (g.members.filter (fun m => m.group = k)).map (·.core)

/-- The consumer of a producer of rank `i` on pipe `j`, and the other way round (R81). -/
def Gang.consumer (g : Gang) (j i : Nat) : CoreId :=
  let l := g.group (g.rcd.cons j)
  l[if g.rcd.prod j = g.rcd.cons j then (i + 1) % l.length else i]?.getD 0#20

/-- The producer for a consumer of rank `i` on pipe `j`. -/
def Gang.producer (g : Gang) (j i : Nat) : CoreId :=
  let l := g.group (g.rcd.prod j)
  l[if g.rcd.prod j = g.rcd.cons j then (i + l.length - 1) % l.length else i]?.getD 0#20

/-- The offset of pipe `j`'s slots in a layout. -/
def Layout.base (l : Layout) (j : Nat) : Nat := (assoc? j l.slots).getD 0

/-- The pipe ends of a member (R62, R81): q`j` is its consumer end of pipe `j` and q`j+4` its producer end. -/
def Gang.pipeEnds (g : Gang) (lay : Nat → Layout) (m : Member) (q : Nat) : Option PipeEnd :=
  let r := g.rcd
  let j := q % 4
  if r.pipes ≤ j then none
  else if q < 4 then
    (if r.cons j = m.group then
      some { producer := false, mode := r.mode j, index := j, lsz := r.lsz j, slots := r.slots j, far := g.producer j m.rank
             farQ := BitVec.ofNat 3 (j + 4), base := (lay m.group).base j } else none)
  else if r.prod j = m.group then
    some { producer := true, mode := r.mode j, index := j, lsz := r.lsz j, slots := r.slots j, credits := r.slots j
           far := g.consumer j m.rank, farQ := BitVec.ofNat 3 j, base := (lay (r.cons j)).base j }
  else none

/-- The GRP words of a member from the group tables (R86). -/
def State.grpWords (s : State) (key : Nat) (c : CoreId) : Vector Word 4 :=
  let w (slot : Nat) : Word :=
    match s.groups.find? (fun g => g.gang = key && g.slot = slot && g.members.contains c) with
    | none => 0#64
    | some g => groupWord g.members.length ((g.members.findIdx? (· = c)).getD 0) g.id
  #v[w 0, w 1, w 2, w 3]

/-- The ring successor's register (R87). -/
def Gang.ringNext (g : Gang) (m : Member) : Word :=
  if g.rcd.ring m.group then
    let l := g.group m.group
    headerForm (l[(m.rank + 1) % l.length]?.getD 0#20) ||| 1#64
  else 0#64

/-- The top of each context's stack (R275). -/
def stackTops (st : Option (Nat × Nat)) : Vector Word 4 :=
  match st with
  | none => Vector.replicate 4 0#64
  | some (o, z) => #v[selfWindow (o + z / 4), selfWindow (o + 2 * z / 4), selfWindow (o + 3 * z / 4), selfWindow (o + z)]

/-- A core as a gang starts on it (R47, R86 to R88, R107, R281, R379): lines of the cache in ways that are now pinned leave it. -/
def State.memberCore (s : State) (g : Gang) (i : Image) (lay : Nat → Layout) (ring : Nat) (m : Member) (c : Core) : Core :=
  let l := lay m.group
  let pins := lineMask 0 (128 * l.pails + 2176) ||| (if ring = 0 then 0#512 else lineMask l.ringOff (l.ringOff + ring))
    ||| lineMask l.regionOff l.regionEnd
  let ends := Vector.ofFn (n := 8) (fun q => g.pipeEnds lay m q.val)
  { serial := c.serial, replays := c.replays
    l1 := c.l1.filter (fun x => !pins.getLsbD (x.way * 64 + l1Set x.xl.pa))
    gang := some g.key, sup := i.sup, htbase := i.htbase, handlers := i.handlers
    gangReg := BitVec.ofNat 64 (m.group * 4096 + g.rcd.id)
    grp := s.grpWords g.key m.core, ringNext := g.ringNext m
    pails := List.replicate l.pails {}
    counters := Vector.ofFn (n := 32) (fun n => { pipe := 28 ≤ n.val && (ends.toList[n.val - 28]?).join.isSome })
    pipes := ends, pinLU := pins, ringOff := l.ringOff, ringLen := ring, regionOff := l.regionOff, regionEnd := l.regionEnd
    stackTop := stackTops l.stack }

/-- The start message of a member (R88, R277). -/
def State.sendStart (s : State) (g : Gang) (m : Member) : State :=
  let r := g.rcd
  let hdr := headerForm m.core ||| BitVec.ofNat 64 (r.pri.toNat * 2 ^ 14 + (r.entry m.group).toNat * 64 + 4)
  s.sendPacket 2#2 r.pri (.message m.core m.core g.key hdr
    [BitVec.ofNat 64 (r.w 13), BitVec.ofNat 64 (r.id * 65536 + m.group), BitVec.ofNat 64 m.rank, BitVec.ofNat 64 (r.count m.group)] 0 true)

/-- The binding of rank `i` that a template makes (R80, R261). -/
def templateBinding (tmpl : Nat → Word) (worker guard : CoreId) (i count ringOff : Nat) : Binding :=
  let b := bindingOf tmpl
  let z := replayShare tmpl count
  { b with worker := worker, guard := guard, template := true, ringOff := ringOff
           bufVa := if b.d then tmpl 4 + BitVec.ofNat 64 (i * z) else 0#64, bufLen := if b.d then BitVec.ofNat 64 z else 0#64 }

/-- Start a gang on its cores (R88): tables, pins, pipes, template bindings, then the start messages. -/
def State.startGang (s : State) (g : Gang) (i : Image) (tmpl : Nat → Word) : State :=
  let r := g.rcd
  let lay (k : Nat) : Layout := layoutOf i r k (ringSize r k tmpl)
  let s1 := g.members.foldl (fun s m => s.onCore m.core (fun c => s.memberCore g i lay (ringSize r m.group tmpl) m c)) s
  let last := r.groups - 1
  let binds := if r.lgt then (List.range (r.count 0)).map (fun n =>
      templateBinding tmpl ((g.group 0)[n]?.getD 0#20) ((g.group last)[n]?.getD 0#20) n (r.count 0) (lay last).ringOff) else []
  let s2 := { s1 with bindings := s1.bindings ++ binds }
  let s3 := s2.onGang g.key (fun g => { g with phase := .started, sup := i.sup, started := s.tick })
  g.members.foldl (fun s m => s.sendStart g m) s3

/-- GANG_START (R88): the image and the template as they are now; one that no longer passes rejects the launch (R82). -/
def execGangStart (gang : Nat) (s : State) : Answer :=
  .next (match s.gang? gang with
    | none => s
    | some g =>
      if g.phase ≠ .placed then s
      else if g.abort.isSome then s.onGang gang (fun g => { g with phase := .started })
      else match s.tenant g.tenant with
        | none => s
        | some t => s.attempt (fun s => match s.checkImage t g.rcd with
          | (s1, .bad st) => (s1.dissolve g).reject g.tenant g.rcd st
          | (s1, .ok i tmpl) => s1.startGang g i tmpl))

end Sys2Proof.Machine
end

