-- ==== Sys2Proof/Machine/VatConfig.lean ====
section
/-! DEFINITION. VATCFG: the request block, its checks and status (R126, R127), the shares that the parlour chooses (R26, R126), and
the start of a define, a resize or a retire (R125 to R129, R367). -/
namespace Sys2Proof.Machine

/-- The operations of VATCFG (R125). -/
inductive VatOp where
  | define | resize | retire
  deriving DecidableEq, Repr

/-- The ways of one bank of a slice that a tenant's live vats hold, the old list of a resize included (R118), but for one vat. -/
def Tenant.waysHeld (t : Tenant) (except : Option Nat) (slice : CoreId) (bank : BitVec 3) : BitVec 16 :=
  let of (g : VatGen) : BitVec 16 :=
    (g.shares.filter (fun sh => sh.slice = slice && sh.bank = bank)).foldl (fun m sh => m ||| sh.ways) 0#16
  (t.vats.filter (fun v => (v.valid || v.defining) && some v.index ≠ except)).foldl
    (fun m v => m ||| of v.cur ||| (v.old.elim 0#16 of)) 0#16

/-- Whether a way mask consists of whole aligned groups of 2^L ways (R120). -/
def wholeGroups (lsz : BitVec 2) (m : BitVec 16) : Bool :=
  let g := 2 ^ lsz.toNat
  (List.range (16 / g)).all (fun i => let k := fld m.toNat (g * i) g; k = 0 || k = 2 ^ g - 1)

/-- Whether a share may not be named (R127, status 2). -/
def State.shareBad (s : State) (t : Tenant) (except : Option Nat) (lsz : BitVec 2) (sh : Share) : Bool :=
  !t.clusters.contains sh.slice || (s.slice sh.slice).waysOff sh.bank sh.ways || sh.ways = 0#16 || !wholeGroups lsz sh.ways
  || t.waysHeld except sh.slice sh.bank &&& sh.ways ≠ 0#16

/-- Whether two shares of one list hold a bank way in common (R118). -/
def sharesOverlap : List Share → Bool
  | [] => false
  | sh :: r => r.any (fun x => x.slice = sh.slice && x.bank = sh.bank && x.ways &&& sh.ways ≠ 0#16) || sharesOverlap r

/-- Whether an entry of a share list has a reserved bit set (R117). -/
def shareReserved (w : Word) : Bool := fld w.toNat 47 17 ≠ 0 || fld w.toNat 19 13 ≠ 0

/-- Insert a slice into a list that rises by heat, then die, y and x (R126). -/
def heatInsert (h : CoreId → Nat) (c : CoreId) : List CoreId → List CoreId
  | [] => [c]
  | x :: r =>
    let key (d : CoreId) : Nat := h d * 2 ^ 20 + clusterIndex d
    if key c < key x then c :: x :: r else x :: heatInsert h c r

/-- The free whole groups of one bank, lowest first, at most `n` of them, as a way mask (R126). -/
def groupsFrom (lsz : BitVec 2) (busy : BitVec 16) (n : Nat) : BitVec 16 × Nat :=
  let g := 2 ^ lsz.toNat
  (List.range (16 / g)).foldl (fun (m, k) i =>
    if k < n && fld busy.toNat (g * i) g = 0 then (m ||| BitVec.ofNat 16 ((2 ^ g - 1) * 2 ^ (g * i)), k + 1) else (m, k)) (0#16, 0)

/-- The shares that the parlour takes from the least hot slices until `n` groups are found, with the number it lacks (R126). -/
def State.chooseShares (s : State) (t : Tenant) (lsz : BitVec 2) : Nat → List (CoreId × BitVec 3) → List Share × Nat
  | n, [] => ([], n)
  | n, (c, b) :: r =>
    let off := ((s.slice c).offline.filter (fun o => o.1 = b)).foldl (fun m o => m ||| o.2) 0#16
    let (m, k) := groupsFrom lsz (t.waysHeld none c b ||| off) n
    let (l, left) := State.chooseShares s t lsz (n - k) r
    (if m = 0#16 then l else { slice := c, bank := b, ways := m } :: l, left)

/-- The banks of a tenant's slices, least hot first (R126). -/
def State.banksByHeat (s : State) (t : Tenant) : List (CoreId × BitVec 3) :=
  (t.clusters.foldl (fun l c => heatInsert (fun d => Config.heat s.tick d) c l) []).flatMap (fun c =>
    (List.range 8).map (fun b => (c, BitVec.ofNat 3 b)))

/-- The reserved bits of a request block (R126). -/
def vatBlockBad (op : VatOp) (w : Nat → Word) : Bool :=
  let n (i : Nat) : Nat := (w i).toNat
  n 0 / 1024 ≠ 0 || n 6 ≠ 0 || n 7 ≠ 0 || n 5 / 2 ^ 32 ≠ 0
  || fld (n 3) 18 14 ≠ 0 || n 3 / 2 ^ 53 ≠ 0 || fld (n 3) 47 5 ≠ 0 || (fld (n 3) 52 1 = 0 && fld (n 3) 32 20 ≠ 0)
  || (match op with
      | .define => n 1 / 64 ≠ 0 || fld (n 1) 4 2 = 3 || n 4 / 2 ^ 32 ≠ 0
      | _ => n 1 ≠ 0 || n 4 ≠ 0)
  || (match op with
      | .retire => n 2 ≠ 0
      | _ => n 2 / 2 ^ 52 ≠ 0 || n 2 % 8 ≠ 0)

/-- Status 3 for what the vat would be left with (R127). -/
def vatShapeBad (dpl : BitVec 2) (dies : BitVec 32) (g : VatGen) : Bool :=
  g.named.any (fun n => !g.members.contains n)
  || (diesOf dies).any (fun d => !g.members.any (fun m => dieOf m = d))
  || (dpl = 2#2 && g.named.isNone) || (dpl = 3#2 && dies = 0#32)

/-- Every core of a tenant forgets its cached record of a vat (R127). -/
def State.forgetVat (s : State) (t : Tenant) (i : Nat) : State :=
  let f (c : Core) : Core := { c with vatCache := c.vatCache.filter (· ≠ i) }
  let mine (id : CoreId) : Bool := t.clusters.contains (clusterOf id)
  { s with
    me := if mine s.meId then f s.me else s.me
    others := s.others.map (fun p => if mine p.1 then (p.1, f p.2) else p) }

/-- The stamps and waits of a vat go to their lines' homes under its present generation (R128, R129). -/
def State.rehomeSync (s : State) (tn : Nat) (v : Vat) : State :=
  let mine (x : Xl) : Bool := x.vat = v.index && x.region = .hbm
  let one (s : State) (id : CoreId) : State :=
    let sl := s.slice id
    let st := (sl.stamps ++ sl.newStamps).filter (fun e => e.tenant = tn && mine e.xl)
    let here (e : WaitEntry) : Bool := e.peer.elim (s.tenantNo e.req.core) (·.2.2) = tn && mine e.xl
    let wt := sl.waits.filter here
    let s1 := s.setSlice id { sl with stamps := sl.stamps.filter (fun e => !(e.tenant = tn && mine e.xl))
                                      newStamps := sl.newStamps.filter (fun e => !(e.tenant = tn && mine e.xl))
                                      waits := sl.waits.filter (fun e => !here e) }
    let s2 := st.foldl (fun s e =>
      (s.onSlice (s.homeOf tn e.xl (dieOf e.core) false) (fun x => { x with newStamps := x.newStamps ++ [e] })).placeStamps
        (s.homeOf tn e.xl (dieOf e.core) false)) s1
    wt.foldl (fun s e =>
      s.onSlice (s.homeOf tn e.xl (dieOf e.req.core) false) (fun x => { x with waits := x.waits ++ [e] })) s2
  (s.slices.map (·.1)).foldl one s

/-- Serve a request at the parlour (R127, R367): its status, and its effect where that is 0. DESIGN CHOICE: a share count of 0 with 0 ways
wanted is accepted and leaves the vat an empty list, so that its lines are served at HBM (R126 is silent; log entry 91).
DESIGN CHOICE: a list that names one bank way in two of its own shares is refused with status 2, a way that is not free, since R127 lists no
other status for it (log entry 108). -/
def State.vatServe (s : State) (t : Tenant) (op : VatOp) (w : Nat → Word) : State × Nat :=
  let i := (w 0).toNat % 1024
  let old : Vat := (t.vat? i).getD { index := i }
  let list := (w 2).toNat
  let count := (w 3).toNat % 2 ^ 18
  let (s, entries) := if op = .retire || count = 0 || vatBlockBad op w then (s, []) else
    let (s1, l, _) := s.readPhysN t list count
    (s1, l)
  if vatBlockBad op w || entries.any shareReserved then (s, 3)
  else if (if op = .define then old.valid || old.defining else !old.valid) then (s, 4)
  else if op ≠ .define && old.state ≠ 0 then (s, 1)
  else if op = .retire then
    let s1 := (s.onTenant t.id (fun t => t.setVat { old with state := 2 })).forgetVat t i
    (s1.publishVat t.id i, 0)
  else
    let lsz := if op = .define then BitVec.ofNat 2 (fld (w 1).toNat 4 2) else old.lsz
    let dpl := if op = .define then BitVec.ofNat 2 (w 1).toNat else old.dpl
    let dies := if op = .define then BitVec.ofNat 32 (w 4).toNat else old.dies
    let named : Option CoreId := if (w 3).getLsbD 52 then some (coreIn (w 3)) else none
    let own := if op = .resize then some i else none
    let g := 2 ^ lsz.toNat
    let wanted := ((w 5).toNat + g - 1) / g
    let (chosen, lack) := if count = 0 then s.chooseShares t lsz wanted (s.banksByHeat t) else (entries.map shareOf, 0)
    let gen : VatGen := { list := list, shares := chosen, named := named
                          gen := if op = .define then old.cur.gen else old.cur.gen + 1#16 }
    if count ≠ 0 && (chosen.any (s.shareBad t own lsz) || sharesOverlap chosen) then (s, 2)
    else if vatShapeBad dpl dies gen then (s, 3)
    else if lack ≠ 0 then (s, 5)
    else
      let s2 := if count = 0 then s.performPhys t list (chosen.map Share.word) else s
      match op with
      | .define =>
        (s2.onTenant t.id (fun t => t.setVat { old with lsz := lsz, wpol := BitVec.ofNat 2 (fld (w 1).toNat 2 2), dpl := dpl,
                                                         dies := dies, cur := gen, defining := true }), 0)
      | _ =>
        let v : Vat := { old with cur := gen, old := some old.cur, state := 1, swept := [] }
        let s3 := (s2.onTenant t.id (fun t => t.setVat v)).forgetVat t i
        ((s3.rehomeSync t.id v).publishVat t.id i, 0)

/-- VATCFG (R125, R367): supervisor only; a release at mod, the block, then the parlour's status. -/
def State.vatcfg (s : State) (op : VatOp) (d a : BitVec 5) : State :=
  let va := addrOf (s.cx.rg a) 0#64
  s.withPriv (fun s => s.withDest d (fun s =>
    if va % 64 ≠ 0 then s.trap (faultAt .align va .read 0#3)
    else s.withRelease 2#2 1 (fun s => s.gather va 8 0 8 (fun s b =>
      match s.ownerOf s.meId with
      | none => s.finish d 4#64 1
      | some t =>
        let (s1, st) := s.vatServe t op (fun i => (b[i]?).getD 0#64)
        s1.finish d (BitVec.ofNat 64 st) 1))))

/-- VATCFG define (R125 to R127). -/
def execVatcfgDefine (d a : BitVec 5) (s : State) : Answer := .next (s.vatcfg .define d a)

/-- VATCFG resize (R125 to R128). -/
def execVatcfgResize (d a : BitVec 5) (s : State) : Answer := .next (s.vatcfg .resize d a)

/-- VATCFG retire (R125 to R127). -/
def execVatcfgRetire (d a : BitVec 5) (s : State) : Answer := .next (s.vatcfg .retire d a)

end Sys2Proof.Machine
end

