-- ==== Sys2Proof/Machine/VatEvents.lean ====
section
/-! DEFINITION. The vats' own steps: a resize's sweeps, probes and moves (R128, R129), the completion of VATCFG (R127), and shares
that go offline (R130, R239, R241). -/
namespace Sys2Proof.Machine

/-! ## Resizing -/

/-- Where a line that a slice holds belongs under the vat's present generation (R122, R128): a replica stays a replica of its die, and under
placement 01 it is the home of a die that the slice served. -/
def SLine.homeNow (l : SLine) (dies : List Nat) (v : Vat) (slice : CoreId) : Option Home :=
  let die := if (placement v v.cur l.pl).toNat = 1 then (servedDies dies v l.pl l.pa slice).headD (dieOf slice) else dieOf slice
  homeUnder v v.cur l.pl die l.pa true

/-- Move one line of a vat from a slice to its home under the present generation; a line that has none is written back (R129). -/
def State.rehome (s : State) (tn : Nat) (v : Vat) (slice : CoreId) (l : SLine) : State :=
  match l.homeNow ((s.tenant tn).elim [] Tenant.dies) v slice with
  | some h => (s.moveLine tn v l.pa slice h).placeStamps h.slice
  | none => (s.writeBackLine l).onSlice slice (fun sl => sl.without tn v.index l.pa)

/-- The slices that hold an old share (R128). -/
def Vat.oldMembers (v : Vat) : List CoreId := v.old.elim [] VatGen.members

/-- VAT_RESIZE_SWEEP (R128): one slice with an old share moves every line of the vat that the old generation placed, and reports. -/
def execVatResizeSweep (tenant : Nat) (vat : Nat) (slice : CoreId) (s : State) : Answer :=
  .next (match (s.tenant tenant).bind (fun t => t.vat? vat) with
    | none => s
    | some v =>
      if v.state ≠ 1 || !v.oldMembers.contains slice || v.swept.contains slice then s
      else
        let lines := (s.slice slice).lines.filter (fun l => l.tenant = tenant && l.vat = vat && l.gen ≠ v.cur.gen)
        let s1 := lines.foldl (fun s l => s.rehome tenant v slice l) s
        s1.onTenant tenant (fun t => t.setVat { v with swept := v.swept ++ [slice] }))

/-- The slice with an old share that still holds a line of a vat as the old generation placed it (R128). -/
def State.strayAt (s : State) (tn : Nat) (v : Vat) (pa : Nat) : Option (CoreId × SLine) :=
  v.oldMembers.findSome? (fun sl => (((s.slice sl).line? tn v.index (pa / 2 ^ v.lg * 2 ^ v.lg)).filter (fun l => l.gen ≠ v.cur.gen)).map (fun l => (sl, l)))

/-- DUAL_PROBE (R128): the new home of a line takes it from the old home, or fills it from HBM, encrypted where the tenant's key has
encrypted it (R116). -/
def execDualProbe (tenant : Nat) (vat : Nat) (pa : Nat) (s : State) : Answer :=
  .next (match s.tenant tenant with
    | none => s
    | some t => match t.vat? vat with
      | none => s
      | some v =>
        if v.state ≠ 1 || regionOf pa ≠ some .hbm || !t.reaches pa then s
        else match s.strayAt tenant v pa with
          | some (sl, l) => s.rehome tenant v sl l
          | none =>
            let xl : Xl := { pa := pa / 64 * 64, vat := vat, pl := v.dpl, e := assoc? (pa / 64) s.hbmKey = some t.key }
            (match s.servedAt t xl t.homeDie true with
             | .slice v h => s.bring t v xl h
             | _ => s))

/-- LINE_MOVE (R129): a line at an old home moves to its new one with its stamp and its wait entries. -/
def execLineMove (tenant : Nat) (vat : Nat) (pa : Nat) (s : State) : Answer :=
  .next (match (s.tenant tenant).bind (fun t => t.vat? vat) with
    | none => s
    | some v =>
      if v.state ≠ 1 then s
      else match s.strayAt tenant v pa with
        | some (sl, l) => s.rehome tenant v sl l
        | none => s)

/-! ## Completion -/

/-- Write back and drop every line of a vat (R127). -/
def State.dropVat (s : State) (tn vat : Nat) : State :=
  let mine (l : SLine) : Bool := l.tenant = tn && l.vat = vat
  (s.slices.map (·.1)).foldl (fun s id =>
    (((s.slice id).lines.filter mine).foldl (fun s l => s.writeBackLine l) s).onSlice id (fun sl =>
      { sl with lines := sl.lines.filter (fun l => !mine l) })) s

/-- VATCFG_COMPLETION (R127): a define shows V = 1 and the next generation, a resize whose sweeps have all reported shows STATE 0,
and a retire shows V = 0. -/
def execVatcfgCompletion (tenant : Nat) (vat : Nat) (s : State) : Answer :=
  .next (match (s.tenant tenant).bind (fun t => t.vat? vat) with
    | none => s
    | some v =>
      let show_ (s : State) (v : Vat) : State := (s.onTenant tenant (fun t => t.setVat v)).publishVat tenant vat
      if v.defining then
        show_ s { v with valid := true, defining := false, state := 0, cur := { v.cur with gen := v.cur.gen + 1#16 } }
      else if v.valid && v.state = 1 then
        (if v.oldMembers.all (fun sl => v.swept.contains sl) then show_ s { v with old := none, state := 0, swept := [] } else s)
      else if v.valid && v.state = 2 then
        show_ (s.dropVat tenant vat) { index := vat, cur := { gen := v.cur.gen } }
      else s)

/-! ## Shares that go offline -/

/-- A cluster is lost (R239, R241): its cores stop answering, and the module asks for a replacement. -/
def State.loseCluster (s : State) (c : CoreId) : State :=
  let p := s.parlour
  if p.lostClusters.contains c then s
  else { s with parlour := { p with lostClusters := p.lostClusters ++ [c], state := 3
                                    silent := distinct (p.silent ++ (coresOf c).filter (fun x => !p.absent.contains x)) } }

/-- Whether every share of a tenant's vats on a slice is offline (R239). -/
def State.allOffline (s : State) (t : Tenant) (slice : CoreId) : Bool :=
  let on := (t.vats.filter (·.valid)).flatMap (fun v => v.allShares.filter (fun sh => sh.slice = slice))
  !on.isEmpty && on.all (fun sh => (s.slice slice).waysOff sh.bank sh.ways)

/-- The VAT_SHARE record (R130; the places of its three values are a choice): the share entry at 0x10, and at 0x18 the vat index in
[63:54] above the microseconds since the tenant's creation. -/
def State.reportShare (s : State) (t : Tenant) (vat : Nat) (sh : Share) : State :=
  s.reportBare t.id .vatShare false sh.slice sh.word
    (BitVec.ofNat 64 (vat * 2 ^ 54 + Config.micros t.created s.tick % 2 ^ 54))

/-- SHARE_OFFLINE (R130, R239), by the number of a failing share among `allShares`: its lines go to HBM with their poison, the slice stays their home without data, and one
VAT_SHARE record is written; a slice with no share left takes its cluster with it. -/
def execShareOffline (tenant : Nat) (vat : Nat) (share : Nat) (s : State) : Answer :=
  .next (match s.tenant tenant with
    | none => s
    | some t => match (t.liveVat vat).bind (fun v => (v.allShares[share]?).map (fun sh => (v, sh))) with
      | none => s
      | some (v, sh) =>
        let clear (s : State) : State := s.onSlice sh.slice (fun sl => { sl with failing := sl.failing.filter (· ≠ (tenant, vat, sh)) })
        if !(s.slice sh.slice).failing.contains (tenant, vat, sh) then s
        else if (s.slice sh.slice).waysOff sh.bank sh.ways then clear s
        else
          let mine (l : SLine) : Bool := l.tenant = tenant && l.vat = vat && v.shareHolding l = some sh
          let s1 := ((s.slice sh.slice).lines.filter mine).foldl (fun s l => s.giveUpLine l) s
          let s2 := (clear s1).onSlice sh.slice (fun sl =>
            { sl with lines := sl.lines.filter (fun l => !mine l), offline := sl.offline ++ [(sh.bank, sh.ways)] })
          let s3 := (s2.health 97).reportShare t vat sh
          if s3.allOffline t sh.slice then s3.loseCluster sh.slice else s3)

end Sys2Proof.Machine
end

