-- ==== Sys2Proof/Machine/Reliability.lean ====
section
/-! DEFINITION. Errors: corrected and uncorrectable ones (R234, R239, R240), timing replays (R235), the skimmer (R238), suspect cores
(R237), heartbeats and the loss of a core (R240, R241). -/
namespace Sys2Proof.Machine

/-! ## Absent cores -/

/-- A core is marked absent (R27, R241): it is counted, and past the thresholds the module asks for a replacement. -/
def State.markAbsent (s : State) (core : CoreId) : State :=
  let p := s.parlour
  if p.absent.contains core then s
  else
    let absent := p.absent ++ [core]
    let many := 2048 < absent.length || 256 < (absent.filter (fun c => dieOf c = dieOf core)).length
    ({ s with parlour := { p with absent := absent, present := p.present - 1#20, silent := p.silent.filter (· ≠ core)
                                  suspect := p.suspect.filter (· ≠ core), state := if many then 3 else p.state } } : State).health 96

/-- A core stops answering, or its control state is struck: it is lost (R240). -/
def State.silence (s : State) (core : CoreId) : State :=
  if s.present core then { s with parlour := { s.parlour with silent := s.parlour.silent ++ [core] } } else s

/-- HEARTBEAT_TIMEOUT (R240). -/
def execHeartbeatTimeout (core : CoreId) (s : State) : Answer := .next (s.silence core)

/-- What a lost core takes with it (R148, R221, R240): its unacknowledged writes, its waits, its bindings and its state; its pipes
break. -/
def State.takeCore (s : State) (core : CoreId) : State :=
  let s1 := (List.range 8).foldl (fun s q => s.departPipe core (BitVec.ofNat 3 q) false 0#2) s
  let s2 := allCtx.foldl (fun s k => s.withdrawWaits core k) s1
  let s3 := (s2.bindings.filter (fun b => b.worker = core || b.guard = core)).foldl (fun s b => s.endBinding b) s2
  let s4 := { s3 with net := s3.net.filter (fun p => !p.req?.any (fun r : Req => r.core = core)) }
  s4.onCore core (fun c => { serial := c.serial, replays := c.replays })

/-- MEMBER_LOSS (R240, R326): a lost core is marked absent, the waits at its gang's groups end, and the gang is aborted with reason
1. -/
def execMemberLoss (core : CoreId) (s : State) : Answer :=
  .next (
    if !s.parlour.silent.contains core then s
    else
      let gang := (s.core core).gang
      let s1 := (s.takeCore core).markAbsent core
      match gang with
      | none => s1
      | some key =>
        ((s1.onGang key (fun g => { g with members := g.members.map (fun m => if m.core = core then { m with lost := true } else m) })).endEpisodes
          key).abortGang key 1 core)

/-- SUSPECT_SELF_TEST (R237): at a moment when it serves no gang, a suspect core is cleared or marked absent. -/
def execSuspectSelfTest (core : CoreId) (s : State) : Answer :=
  .next (
    if !s.parlour.suspect.contains core || (s.core core).gang.isSome || !s.present core then s
    else if Config.selfTest s.tick core then
      { s with parlour := { s.parlour with suspect := s.parlour.suspect.filter (· ≠ core) } }
    else (s.takeCore core).markAbsent core)

/-! ## Storage errors -/

/-- The share of a tenant's vat whose ways hold a line (R123). -/
def State.shareHolding (s : State) (l : SLine) : Option Share :=
  ((s.tenant l.tenant).bind (fun t => t.vat? l.vat)).bind (fun v => v.shareHolding l)

/-- The share of a line will go offline (R239). -/
def State.failShare (s : State) (id : CoreId) (l : SLine) : State :=
  match s.shareHolding l with
  | some sh => s.onSlice id (fun sl => { sl with failing := distinct (sl.failing ++ [(l.tenant, l.vat, sh)]) })
  | none => s

/-- The corrected errors of a share within the last hour (R239). -/
def State.recentErrors (s : State) (id : CoreId) (tn vat : Nat) (sh : Share) : Nat :=
  ((s.slice id).corrected.filter (fun e => e.1 = tn && e.2.1 = vat && e.2.2.1 = sh && Config.micros e.2.2.2 s.tick ≤ 3600000000)).length

/-- A corrected error in a line of a slice is counted for its share; the 16th within one hour takes the share offline (R239). -/
def State.countCorrected (s : State) (id : CoreId) (l : SLine) : State :=
  match s.shareHolding l with
  | none => s
  | some sh =>
    let s1 := s.onSlice id (fun sl => { sl with corrected := sl.corrected ++ [(l.tenant, l.vat, sh, s.tick)] })
    if 15 ≤ s.recentErrors id l.tenant l.vat sh then s1.failShare id l else s1

/-- The line of a slice that holds an address. -/
def Slice.lineAt? (sl : Slice) (pa : Nat) : Option SLine := sl.lines.find? (fun l => l.pa ≤ pa && pa < l.pa + 2 ^ l.lg)

/-- ECC_CORRECTED (R234, R239): no value changes, and the error is counted. -/
def execEccCorrected (place : EccPlace) (s : State) : Answer :=
  .next (match place with
    | .die d => if d < 32 then s.health d else s
    | .slice id pa => match (s.slice id).lineAt? pa with
      | none => s
      | some l => (s.health (dieOf id)).countCorrected id l)

/-- Whether an offset of local memory belongs to the core's control state (R240): the mailbox, the region area or a ring. -/
def Core.controlByte (c : Core) (off : Nat) : Bool :=
  c.gang.isSome && (off < c.pailBytes || (c.regionOff ≤ off && off < c.regionEnd) || (c.ringOff ≤ off && off < c.ringOff + c.ringLen))

/-- An error in a line that a slice holds poisons it, and its share will go offline (R234, R239). -/
def State.strikeSlice (s : State) (id : CoreId) (pa : Nat) : State :=
  match (s.slice id).lineAt? pa with
  | none => s
  | some l =>
    let bit : BitVec 4 := 1#4 <<< ((pa - l.pa) / 64)
    (s.onSlice id (fun sl => sl.onLine l.tenant l.vat l.pa (fun x => { x with poison := x.poison ||| bit }))).failShare id l

/-- UNCORRECTABLE_ERROR (R234, R236, R239, R240): the data that the place holds is poisoned; an error in an activation's registers
kills it, one in control state loses the core, and one in a slice's control state loses its cluster. -/
def execUncorrectableError (place : ErrPlace) (s : State) : Answer :=
  .next (match place with
    | .hbm pa => if regionOf pa = some .hbm then s.poisonLines [pa / 64] else s
    | .slice id pa => s.strikeSlice id pa
    | .l1 core pa => s.onCore core (fun c => { c with l1 := c.l1.map (fun l => if l.xl.pa / 64 = pa / 64 then l.strike else l) })
    | .localMem core off =>
      if 0x8000 ≤ off then s
      else if (s.core core).controlByte off then s.silence core
      else s.onCore core (fun c => c.poisonLocal off 1)
    | .register core k => if s.present core && (s.ctxAt core k).st ≠ .free then s.killUncorrectable core k (poisonTrap 0#64) else s
    | .tile core k t => s.onCtx core k (fun x => if x.st = .free then x else { x with tPoison := x.tPoison ||| (1#8 <<< t.toNat) })
    | .latch core l => s.onCore core (fun c => if c.gang.isSome then c.latchMark l true else c)
    | .instrLine core pa => s.onCore core (fun c => { c with il1 := c.il1.map (fun l => if l.pa / 64 = pa / 64 then { l with poison := true } else l) })
    | .control core => s.silence core
    | .sliceControl id => if namesCore id then s.loseCluster (clusterOf id) else s)

/-- TIMING_REPLAY (R235): the replay is counted; one that fails again kills the activation or ends the engine command faulted. -/
def execTimingReplay (core : CoreId) (again : ReplayFail) (s : State) : Answer :=
  let s1 := (s.onCore core (fun c => { c with replays := if c.replays = 0xFFFFFFFF#32 then c.replays else c.replays + 1#32 })).health (32 + dieOf core)
  if !s.present core then .next s
  else match again with
    | .succeeds => .next s1
    | .instr k => .next (if (s.ctxAt core k).st = .free then s1 else s1.killUncorrectable core k (poisonTrap 0#64))
    | .matrix k => execMatrixCommandDone core k ⟨((s1.ctxAt core k).runningOn false).isNone, true⟩ s1
    | .vector k => execVectorCommandDone core k true s1

/-! ## The skimmer -/

/-- The tenant in whose ranges an address lies, or 0. -/
def State.holderOf (s : State) (pa : Nat) : Nat :=
  ((s.tenants.find? (fun t => t.ranges.any (fun r => r.1 ≤ pa && pa < r.1 + r.2))).map (·.id)).getD 0

/-- A log entry with one more failure (R238). -/
def skimEntry (w : Word) (tag : Bool) (tn page : Nat) : Word :=
  let t := fld w.toNat 48 16 + (if tag then 1 else 0)
  let u := fld w.toNat 40 8 + (if tag then 0 else 1)
  BitVec.ofNat 64 (Nat.min 65535 t * 2 ^ 48 + Nat.min 255 u * 2 ^ 40 + tn % 16 * 2 ^ 36 + page % 2 ^ 36)

/-- One entry per page of a stack (R238). -/
def skimLog (l : List (Nat × Word)) (stack : Nat) (tag : Bool) (tn page : Nat) : List (Nat × Word) :=
  if l.any (fun e => e.1 = stack && e.2.toNat % 2 ^ 36 = page) then
    l.map (fun e => if e.1 = stack && e.2.toNat % 2 ^ 36 = page then (stack, skimEntry e.2 tag tn page) else e)
  else l ++ [(stack, skimEntry 0#64 tag tn page)]

/-- Whether a line was written under another key than its owner's, so that its tag does not match what the skimmer recomputes (R116, R238). -/
def State.foreignKey (s : State) (pa : Nat) : Bool :=
  (s.tenants.find? (fun t => t.ranges.any (fun r => r.1 ≤ pa && pa < r.1 + r.2))).any (fun t =>
    (assoc? (pa / 64) s.hbmKey).any (fun k => k ≠ 0 && k ≠ t.key))

/-- SKIMMER_LINE_READ (R238): a correctable line is rewritten, and a line that fails is poisoned and logged; only an encrypted line
has a tag, and one under another key than its owner's does not match. -/
def execSkimmerLineRead (pa : Nat) (found : SkimFind) (s : State) : Answer :=
  let stack := pa / 2 ^ 37 % 32
  let bad (s : State) (tag : Bool) : State :=
    let s1 := s.poisonLines [pa / 64]
    { s1 with parlour := { s1.parlour with skimmer := skimLog s1.parlour.skimmer stack tag (s.holderOf pa) (pa / 4096) } }
  .next (
    if regionOf pa ≠ some .hbm then s
    else match found with
      | .clean => if s.foreignKey pa then bad s true else s
      | .correctable => if s.foreignKey pa then bad (s.health stack) true else s.health stack
      | .uncorrectable | .both => bad s false
      | .tagMismatch => if ((assoc? (pa / 64) s.hbmKey).getD 0) ≠ 0 then bad s true else s)

end Sys2Proof.Machine
end

