-- ==== Sys2Proof/Machine/SaveImage.lean ====
section
/-! DEFINITION. The image of a saved member: writing a core into the layout of R178 to R180, and reading it back. -/
namespace Sys2Proof.Machine

/-! ## Writing -/

/-- A flag as a number at a bit. -/
def bitAt (b : Bool) (n : Nat) : Nat := if b then 2 ^ n else 0

/-- A record of doublewords, each a number. -/
def dwordsOf (l : List Nat) : List Word := l.map (BitVec.ofNat 64)

/-- Store 32-bit lanes one after another. -/
def Memory.storeLanes (m : Memory) (a : Nat) : List Lane → Memory
  | [] => m
  | w :: r => Memory.storeLanes (m.store a 4 w.toNat) (a + 4) r

/-- The pinned map of a set of slots: byte `s` has bit `w` for way `w` of set `s` (R178). -/
def wayMap (pins : BitVec 512) : List Byte :=
  (List.range 64).map (fun s => BitVec.ofNat 8 (((List.range 8).map (fun w => bitAt (pins.getLsbD (w * 64 + s)) w)).sum))

/-- A counter's 16 bytes (R178; the places within the first doubleword are a choice): count [15:0], mode [16], B [17], E [18], then
the task, or the reserved and early counts. -/
def Counter.words (k : Counter) : List Word :=
  dwordsOf [k.count + bitAt k.pipe 16 + bitAt k.b 17 + bitAt k.e 18,
            if k.pipe then k.reserved % 256 + k.early % 256 * 256 else k.handler.toNat * 2 ^ 56 + k.arg.toNat]

/-- A task's two bytes in the run queue (R178). -/
def Task.half (t : Task) : Nat :=
  let (p, i) := match t.place with | .pail i => (0, i) | .counter c => (1, c) | .context k => (2, k.toNat)
  p * 64 + i + 256 * (t.pri.toNat + t.age * 4)

/-- A run queue in the order in which it admits tasks when all fit (R46, R91). -/
def admissionOrder (q : List Task) : List Task := ([3#2, 2#2, 1#2, 0#2] : List (BitVec 2)).flatMap (fun p => q.filter (fun t => t.pri = p))

/-- The run queue's halfwords: the tasks in admission order, then 0xFFFF (R178). -/
def runHalves (q : List Task) : List Nat := (admissionOrder q).map Task.half ++ (if q.length < 80 then [0xFFFF] else [])

/-- Store halfwords one after another. -/
def Memory.storeHalves (m : Memory) (a : Nat) : List Nat → Memory
  | [] => m
  | h :: r => Memory.storeHalves (m.store a 2 h) (a + 2) r

/-- A context place's doubleword: the bound task that a kill re-queued (R46, R178). -/
def placeWord (q : List Task) (k : CtxId) : Word :=
  match q.find? (fun t => t.place = .context k) with
  | some t => BitVec.ofNat 64 (t.handler.toNat * 2 ^ 56 + t.arg.toNat)
  | none => 0#64

/-- The payload doublewords of an outbox entry in a block. DESIGN CHOICE: a post has its record's address there, notices their launch id and
number, and a SPAWN its target in header form (R178 is silent; log entry 50). -/
def OutEntry.words (e : OutEntry) : List Word :=
  match e.kind with
  | .message | .multicast _ => e.payload
  | .post va => [va]
  | .notice id n => dwordsOf [id, n]
  | .spawn t => [headerForm t]

/-- An outbox entry's 128 bytes: its header and up to 15 payload doublewords (R56, R178). -/
def OutEntry.image (e : OutEntry) : List Word := (e.hdr :: e.words ++ List.replicate 15 0#64).take 16

/-- The phase of a containment that a context keeps in its record (R177): 5 once its record is in the log, 8 once it has passed. -/
def OpState.containPhase (o : OpState) : Nat := if o.phase = 8 then 8 else if 5 ≤ o.phase && o.phase < 8 then 5 else 0

/-- A scope that may be absent, as three bits: present, then its code. -/
def scopeBits (sc : Option Scope) : Nat := sc.elim 0 (fun sc => 4 + sc.toNat)
/-- The scope that three bits hold. -/
def scopeAt (h n : Nat) : Option Scope := if h.testBit (n + 2) then some (BitVec.ofNat 2 (fld h n 2)) else none

/-- A context's record (R179), with the fault registers as RDSR reads them. DESIGN CHOICE: bits that R179 does not name hold what a restore
needs besides, so that it reads nothing elsewhere (R178): in the first doubleword, whether the containment record is in the log [2], whether the
containment has passed [3], whether the ACT record is in the log [4], whether the activation is dirty [5] and the faults of its ended matrix [6]
and vector [7] commands (R316); from 0x168 on, five bits of the verdict's number in [6:2] of each byte; and at 0x170 the tiles [23:16] and
registers [63:32] that the activation has written (R34) and the scopes of its ended copy [26:24] and vector [29:27] commands (R315; log entry
50). -/
def Core.record (c : Core) (k : CtxId) : List Word :=
  let x := c.ctx k
  let f := c.faultCtx k
  let phase := x.op.containPhase
  let due := if phase = 0 then 0 else x.op.aux
  let state := if x.st = .free then 0 else if x.op.wait = .none then 1 else 2
  let pail := match x.act.source with | .pail i => i | _ => 0xFF
  let q (j : Nat) : Nat := (bitAt (x.qbound.getLsbD j) 7 + j % 4 + due / 32 ^ j % 32 * 4) * 256 ^ j
  dwordsOf [state + bitAt (phase ≠ 0) 2 + bitAt (phase = 8) 3 + bitAt x.act.begun 4 + bitAt x.act.dirtied 5
      + bitAt x.mflt 6 + bitAt x.vflt 7 + x.act.handler.toNat * 256 + x.act.pri.toNat * 2 ^ 16 + pail * 2 ^ 24 + bitAt x.sup 32]
  ++ [x.pc] ++ x.g.toList.drop 1
  ++ dwordsOf [x.fflags.toNat, x.frm.toNat, bitAt x.dzt 0] ++ [x.scaleBase, x.scaleOrg, x.waitlim, x.op.elapsed, x.lgtbase]
  ++ [f.faultCause, f.faultAddr, f.faultPc]
  ++ dwordsOf [x.m1.toNat + x.m2.toNat * 2 ^ 16 + x.m3.toNat * 2 ^ 32, ((List.range 8).map q).sum,
    x.act.sregs + x.act.tiles * 256 + x.wroteT.toNat * 2 ^ 16 + scopeBits x.cScope * 2 ^ 24
      + scopeBits x.vScope * 2 ^ 27 + x.wroteG.toNat * 2 ^ 32]

/-- A pipe end's record (R180). -/
def PipeEnd.record (p : PipeEnd) : List Word :=
  [ BitVec.ofNat 64 (2 ^ 63 + bitAt p.producer 62 + p.state * 2 ^ 60 + bitAt p.closedHere 59 + p.mode * 2 ^ 58 + p.index * 2 ^ 56
      + p.lsz * 2 ^ 40 + p.slots * 2 ^ 32 + p.pos * 2 ^ 24 + (if p.producer then p.credits else 0))
  , headerForm p.far ||| p.farQ.setWidth 64
  , BitVec.ofNat 64 (if p.producer then p.reserved else p.base) ]

/-- A template binding's record at one of its cores (R180). -/
def Binding.record (b : Binding) (guard : Bool) : List Word :=
  let reader := b.reader.elim 0 (fun r => 2 ^ 34 + r.1.toNat * 2 ^ 32)
  [ BitVec.ofNat 64 (if guard then 2 else 1), headerForm (if guard then b.worker else b.guard), BitVec.ofNat 64 b.ringOff
  , BitVec.ofNat 64 (b.rsz + bitAt b.p 8 + bitAt b.d 9), BitVec.ofNat 64 (b.filter.toNat + b.lag * 2 ^ 16), b.bufVa, b.bufLen
  , BitVec.ofNat 64 (b.bufUsed % 2 ^ 32 + bitAt b.ovf 32), BitVec.ofNat 64 (b.wp + b.rp * 2 ^ 16)
  , BitVec.ofNat 64 ((if guard then b.nextDel else b.nextLog) + b.pass.getD 0 * 2 ^ 32), BitVec.ofNat 64 (b.lastDel + reader)
  , if guard then b.readBase else b.logBase ]

/-- The code of what an outbox entry holds (log entry 50). -/
def OutKind.code : OutKind → Nat
  | .message => 0 | .multicast _ => 1 | .post _ => 2 | .notice _ _ => 3 | .spawn _ => 4

/-- An outbox entry's mark (R178). DESIGN CHOICE: the bits that R178 does not name hold the context in [4:3], what the entry holds in [7:5],
the sender's mode in [8], the message's priority in [10:9], its activation's in [12:11] and a multicast's slot in [14:13] (log entry 50). -/
def OutEntry.mark (e : OutEntry) (extra : Option Nat) : List Word :=
  let slot := match e.kind with | .multicast s => s.toNat | _ => 0
  dwordsOf [1 + bitAt e.released 1 + bitAt extra.isSome 2 + e.ctx.toNat * 8 + e.kind.code * 32 + bitAt e.sup 8 + e.pri.toNat * 512
    + e.actPri.toNat * 2048 + slot * 8192, extra.getD 0]

/-- The internal form of a suspended copy command (R178). DESIGN CHOICE: the manual does not lay out its 64 bytes; the model gives
them the command's two words, its source, destination, notice and second addresses, then its context, handler, mode, the bytes of a row begun and the
widest scope of what it has written (R315), and its activation (log entry 50). A command that was handed back is an ordinary remainder there, whose fault hands it back again
after the restore. -/
def copyRecord (k : CtxId) (q : CopyCmd) : List Word :=
  [ BitVec.ofNat 64 ((word0 q.op).toNat + 2 ^ 32 * (word1 q.op).toNat), q.src, q.dst, q.notice, q.sa, q.sb
  , BitVec.ofNat 64 (2 ^ 63 + k.toNat + bitAt q.user 3 + bitAt q.cancelled 4 + q.handler.toNat * 2 ^ 8 + q.done % 2 ^ 16 * 2 ^ 16
      + scopeBits q.scope * 2 ^ 32)
  , BitVec.ofNat 64 q.serial ]

/-- The lines of a member's image that carry poison: those of its latches, its tiles and its local memory that hold some (R178, R234). -/
def Core.imageBad (c : Core) (i : Nat) : Bool :=
  if i < 0x80 then false
  else if i < 0xA0 then c.latchPoison.getLsbD 0
  else if i < 0xC0 then c.latchPoison.getLsbD 1
  else if i < 0x1C0 then (c.ctx (BitVec.ofNat 2 ((i - 0xC0) / 64))).tPoison.getLsbD ((i - 0xC0) % 64 / 8)
  else c.localPoison.any (fun d => d / 8 + 0x1C0 = i)

/-- What the home launch unit keeps of a member while its gang is saved: the tables, areas, pipe slots and numbers that it gave the member with
the gang's start, which a restore places again (R93, R181), and whether the start message has yet to be admitted. With them stand the numbers
by which the model tells activations apart, which are no state of the machine (log entry 51). -/
def Core.keptPart (c : Core) : Core :=
  let x (k : CtxId) : Context := { act := { serial := (c.ctx k).act.serial } }
  { ctx0 := x 0#2, ctx1 := x 1#2, ctx2 := x 2#2, ctx3 := x 3#2
    sup := c.sup, serial := c.serial, htbase := c.htbase, handlers := c.handlers, gangReg := c.gangReg
    pails := c.pails.map (fun p => { start := p.start })
    ringOff := c.ringOff, ringLen := c.ringLen, regionOff := c.regionOff, regionEnd := c.regionEnd, stackTop := c.stackTop
    pipes := c.pipes.map (fun p => p.map (fun p => { producer := p.producer, index := p.index, lsz := p.lsz, slots := p.slots, far := p.far, farQ := p.farQ, base := p.base })) }

/-- Store a list of records at one distance. -/
def Memory.storeEach (m : Memory) (a step : Nat) : List (List Word) → Memory
  | [] => m
  | l :: r => Memory.storeEach (m.storeDwords a l) (a + step) step r

/-- A member's whole image by block offset (R178). DESIGN CHOICE: the table control at 0x710 holds the NaN code in [7:0] and the
saturate flag in [8], places that R178 does not give (log entry 50). -/
def Core.image (c : Core) (m : Member) (bind : Option (Binding × Bool)) : Memory :=
  let entries (m0 : Memory) : Memory := c.outbox.foldl (fun m0 e =>
    (m0.storeDwords (0x800 + 128 * e.slot) e.image).storeDwords (0x1780 + 16 * e.slot) (e.mark (assoc? e.slot m.extra))) m0
  let pinned := c.pinLU ||| c.pinBy
  let m0 : Memory := Memory.storeDwords [] 0 [headerForm m.core ||| BitVec.ofNat 64 m.group, BitVec.ofNat 64 m.rank]
  let m1 := (m0.write 0x40 (wayMap pinned)).write 0x80 (wayMap c.pinBy)
  let m2 := m1.storeEach 0x100 16 (c.counters.toList.map Counter.words)
  let m3 := ((m2.storeLanes 0x300 c.dtab.toList).write 0x700 c.itab.toList).storeDwords 0x710
    (dwordsOf [c.nanCode.toNat + bitAt c.sat 8, 0])
  let m4 := (m3.storeHalves 0x740 (runHalves c.runq)).storeDwords 0x7E0 (ordinary.map (placeWord c.runq))
  let m5 := (entries m4).storeEach 0xC00 512 (allCtx.map c.record)
  let m6 := m5.storeEach 0x1400 64 ((allCtx.flatMap (fun k => (c.ctx k).cq.map (copyRecord k))).take 8)
  let m7 := (m6.storeEach 0x1600 32 (c.pipes.toList.map (fun p => p.elim [] PipeEnd.record))).storeDwords 0x1700
    (bind.elim [] (fun b => b.1.record b.2))
  let m8 := m7.storeLanes 0x2000 ((c.latch0.toList ++ c.latch1.toList).flatMap (·.toList))
  let m9 := m8.storeLanes 0x3000 (allCtx.flatMap (fun k => (c.ctx k).t.toList.flatMap (fun t => t.toList.flatMap (·.toList))))
  m9.writeCells ((c.localMem.filter (fun x => pinned.getLsbD (x.1 / 64) && x.1 < 0x7000)).map (fun x => (x.1 + 0x7000, x.2)))

/-! ## Reading -/

/-- The slots of a pinned map. -/
def pinsOf (m : Memory) (off : Nat) : BitVec 512 :=
  BitVec.ofNat 512 (((List.range 512).map (fun n => bitAt ((m.get (off + n % 64)).getLsbD (n / 64)) n)).sum)

/-- A counter from its 16 bytes. -/
def counterOf (m : Memory) (i : Nat) : Counter :=
  let a := m.value (0x100 + 16 * i) 8
  let b := m.value (0x108 + 16 * i) 8
  let pipe := a.testBit 16
  { count := a % 65536, pipe := pipe, b := a.testBit 17, e := a.testBit 18
    handler := if pipe then 0#8 else BitVec.ofNat 8 (b / 2 ^ 56), arg := if pipe then 0#56 else BitVec.ofNat 56 b
    reserved := if pipe then b % 256 else 0, early := if pipe then b / 256 % 256 else 0 }

/-- 32-bit lanes from an offset. -/
def lanesAt (m : Memory) (a n : Nat) : Vector Lane n := Vector.ofFn (fun i => BitVec.ofNat 32 (m.value (a + 4 * i.val) 4))

/-- A tile from its 512 bytes. -/
def tileAt (m : Memory) (a : Nat) : Tile := Vector.ofFn (fun i => lanesAt m (a + 64 * i.val) 16)

/-- A latch from its 2,048 bytes. -/
def latchAt (m : Memory) (a : Nat) : Latch := Vector.ofFn (fun i => lanesAt m (a + 64 * i.val) 16)

/-- The tasks of the saved run queue. DESIGN CHOICE: the block has no place for kill counts, so that they start again (log entry 51). -/
def tasksOf (m : Memory) (counters : Vector Counter 32) : (fuel a : Nat) → List Task
  | 0, _ => []
  | n + 1, a =>
    let h := m.value a 2
    if h = 0xFFFF then []
    else
      let i := h % 32
      let place : TaskPlace := match fld h 6 2 with | 0 => .pail i | 1 => .counter i | _ => .context (BitVec.ofNat 2 i)
      let w : Word := match fld h 6 2 with
        | 0 => BitVec.ofNat 64 (fld (m.value (0x7000 + 128 * i) 8) 6 8 * 2 ^ 56)
        | 1 => let k := (counters.toList[i]?).getD {}; BitVec.ofNat 64 (k.handler.toNat * 2 ^ 56 + k.arg.toNat)
        | _ => m.dword (0x7E0 + 8 * i)
      { place := place, pri := BitVec.ofNat 2 (fld h 8 2), age := fld h 10 5, handler := BitVec.ofNat 8 (w.toNat / 2 ^ 56)
        arg := w.setWidth 56 }
        :: tasksOf m counters n (a + 2)

/-- The copy command in place `j` of a block, with its context (R178; log entry 50). -/
def copyAt (m : Memory) (j : Nat) : Option (CtxId × CopyCmd) :=
  let w (i : Nat) : Word := m.dword (0x1400 + 64 * j + 8 * i)
  let h := (w 6).toNat
  if !h.testBit 63 then none
  else match decodeWords ((w 0).toNat % 2 ^ 32) ((w 0).toNat / 2 ^ 32) with
    | .error _ => none
    | .ok op => some (BitVec.ofNat 2 h,
        { op := op, serial := (w 7).toNat, handler := BitVec.ofNat 8 (fld h 8 8), user := h.testBit 3, src := w 1, dst := w 2, notice := w 3, sa := w 4
          sb := w 5, cancelled := h.testBit 4, done := fld h 16 16
          scope := scopeAt h 32 })

/-- The suspended copy commands of a context, in their order (R283). -/
def copiesOf (m : Memory) (k : CtxId) : List CopyCmd :=
  ((List.range 8).filterMap (copyAt m)).filterMap (fun p => if p.1 = k then some p.2 else none)

/-- The pail that a context record names (R179). -/
def recordPail (m : Memory) (k : CtxId) : Option Nat :=
  let h := m.value (0xC00 + 512 * k.toNat) 8
  if h % 4 = 0 || fld h 24 8 = 0xFF then none else some (fld h 24 8)

/-- The instruction in progress of a restored context (R177, R179): its elapsed count, and a containment whose record is in the log, with the
number of the verdict that it waits for. -/
def opOf (m : Memory) (b : Nat) : OpState :=
  let h := m.value b 8
  let due := ((List.range 8).map (fun j => fld (m.get (b + 0x168 + j)).toNat 2 5 * 32 ^ j)).sum
  { elapsed := m.dword (b + 0x138), phase := if h.testBit 3 then 8 else if h.testBit 2 then 5 else 0, aux := if h.testBit 2 then due else 0 }

/-- A context from its record (R179) with its tiles, which hold poison where a line of them in the block does (R234). `serial` is the number by
which the model tells its activation apart. DESIGN CHOICE: the block has no place for the argument of a bound task that
runs, which a kill would queue again, nor for a service task: the first is a free value, and a killed service activation is not delivered
again (log entry 51). -/
def contextOf (m : Memory) (bad : List Nat) (tick : Nat) (k : CtxId) (serial : Nat) : Context :=
  let b := 0xC00 + 512 * k.toNat
  let w (o : Nat) : Word := m.dword (b + o)
  let h := (w 0).toNat
  let qs : BitVec 8 := BitVec.ofNat 8 (((List.range 8).map (fun j => bitAt ((m.get (b + 0x168 + j)).getLsbD 7) j)).sum)
  let idx : BitVec 8 := BitVec.ofNat 8 (fld h 8 8)
  let src : ActSource :=
    match recordPail m k with
    | some i => .pail i
    | none => if k = 3#2 then .service else .task idx ((Config.freeWord (2 ^ 109 * (tick + 1) + k.toNat)).setWidth 56) 0
  let hdr := (recordPail m k).elim 0#64 (fun i => m.dword (0x7000 + 128 * i))
  let badTiles : BitVec 8 := BitVec.ofNat 8 (((List.range 8).map (fun t =>
    bitAt (bad.any (fun i => i / 8 = 0x18 + 8 * k.toNat + t)) t)).sum)
  if h % 4 = 0 then { cq := copiesOf m k }
  else
    { cq := copiesOf m k
      st := .ready, pc := w 8, g := Vector.ofFn (fun i => if i.val = 0 then 0#64 else w (8 + 8 * i.val))
      t := Vector.ofFn (fun i => tileAt m (0x3000 + 4096 * k.toNat + 512 * i.val))
      fflags := BitVec.ofNat 5 (w 0x108).toNat, frm := BitVec.ofNat 3 (w 0x110).toNat, dzt := (w 0x118).getLsbD 0
      scaleBase := w 0x120, scaleOrg := w 0x128, waitlim := w 0x130, lgtbase := w 0x140
      faultCause := w 0x148, faultAddr := w 0x150, faultPc := w 0x158
      m1 := BitVec.ofNat 16 (w 0x160).toNat, m2 := BitVec.ofNat 16 (fld (w 0x160).toNat 16 16), m3 := BitVec.ofNat 16 (fld (w 0x160).toNat 32 16)
      sup := h.testBit 32, qbound := qs, op := opOf m b, tPoison := badTiles
      wroteG := BitVec.ofNat 32 (fld (w 0x170).toNat 32 32), wroteT := BitVec.ofNat 8 (fld (w 0x170).toNat 16 8)
      mflt := h.testBit 6, vflt := h.testBit 7, cScope := scopeAt (w 0x170).toNat 24, vScope := scopeAt (w 0x170).toNat 27
      act := { serial := serial, begun := h.testBit 4, dirtied := h.testBit 5, handler := idx, pri := BitVec.ofNat 2 (fld h 16 2), source := src, header := hdr
               entry := qs ≠ 0#8, sregs := (w 0x170).toNat % 256, tiles := fld (w 0x170).toNat 8 4 } }

/-- A pipe end from its record (R180); the producer's slot base is kept beside the block. -/
def pipeEndOf (m : Memory) (j : Nat) (move : CoreId → CoreId) (old : Option PipeEnd) : Option PipeEnd :=
  let w (o : Nat) : Nat := m.value (0x1600 + 32 * j + o) 8
  let h := w 0
  if !h.testBit 63 then none
  else
    let prod := h.testBit 62
    some { producer := prod, state := fld h 60 2, closedHere := h.testBit 59, mode := fld h 58 1, index := fld h 56 2, lsz := fld h 40 4
           slots := fld h 32 8, pos := fld h 24 8, credits := h % 256, far := move (BitVec.ofNat 20 (fld (w 8) 32 20))
           farQ := BitVec.ofNat 3 (w 8), base := if prod then old.elim 0 (·.base) else w 16 % 2 ^ 15, reserved := if prod then w 16 % 256 else 0 }

/-- A template binding resumes from its two records (R180). -/
def Binding.resume (b : Binding) (worker guard : Memory) : Binding :=
  let w (m : Memory) (o : Nat) : Nat := m.value (0x1700 + o) 8
  { b with
    ringOff := w guard 0x10 % 2 ^ 15, rsz := w worker 0x18 % 16, p := (w worker 0x18).testBit 8, d := (w worker 0x18).testBit 9
    filter := BitVec.ofNat 16 (w worker 0x20), lag := fld (w worker 0x20) 16 14, bufVa := worker.dword 0x1728, bufLen := worker.dword 0x1730
    bufUsed := w worker 0x38 % 2 ^ 32, ovf := (w worker 0x38).testBit 32, wp := w worker 0x40 % 2 ^ 13, rp := fld (w guard 0x40) 16 13
    nextLog := w worker 0x48 % 2 ^ 32, nextDel := w guard 0x48 % 2 ^ 32, pass := if b.pass.isNone && w worker 0x48 / 2 ^ 32 = 0 then none else some (w worker 0x48 / 2 ^ 32), lastDel := w guard 0x50 % 2 ^ 32
    logBase := worker.dword 0x1758, readBase := guard.dword 0x1758
    reader := if (w guard 0x50).testBit 34 then b.reader.map (fun r => (BitVec.ofNat 2 (fld (w guard 0x50) 32 2), r.2)) else none }

/-- What an outbox entry of a block holds, by its mark's code and its first payload doublewords (log entry 50). -/
def outKindOf (code slot : Nat) (w0 w1 : Word) : OutKind :=
  match code with
  | 1 => .multicast (BitVec.ofNat 2 slot)
  | 2 => .post w0
  | 3 => .notice w0.toNat w1.toNat
  | 4 => .spawn (coreIn w0)
  | _ => .message

/-- The occupied outbox entries of a block by their marks (R178); `serial` numbers the activation of each context. -/
def outboxOf (m : Memory) (serial : CtxId → Nat) : List OutEntry :=
  (List.range 8).filterMap (fun i =>
    let mark := m.value (0x1780 + 16 * i) 8
    let h := m.dword (0x800 + 128 * i)
    let k : CtxId := BitVec.ofNat 2 (fld mark 3 2)
    if !mark.testBit 0 then none
    else some { slot := i, ctx := k, serial := serial k, kind := outKindOf (fld mark 5 3) (fld mark 13 2) (m.dword (0x808 + 128 * i)) (m.dword (0x810 + 128 * i))
                hdr := h, payload := m.dwords (0x808 + 128 * i) (h.toNat % 16), released := mark.testBit 1, sup := mark.testBit 8
                pri := BitVec.ofNat 2 (fld mark 9 2), actPri := BitVec.ofNat 2 (fld mark 11 2) })

/-- The pails of a restored member (R43, R178): one that a context record names is running, one whose task is in the run queue is queued, and
every other one is free, as a freed one will be (R177). -/
def pailsOfImage (m : Memory) (runq : List Task) (kept : List Pail) : List Pail :=
  (List.range kept.length).map (fun i =>
    let queued := runq.any (fun t => t.place = .pail i)
    { st := if allCtx.any (fun k => recordPail m k = some i) then .running else if queued then .queued else .free
      start := queued && (kept[i]?).any (·.start) })

/-- The first block of an entry's acceptance bitmap (R178). -/
def bitmapOf (m : Memory) (slot : Nat) : Option Nat :=
  if (m.value (0x1780 + 16 * slot) 8).testBit 2 then some (m.value (0x1788 + 16 * slot) 8) else none

/-- An outbox entry whose header names an old member core names its new one (R181); a multicast goes only to the members that its
acceptance bitmap marks 0. -/
def OutEntry.restored (e : OutEntry) (m : Memory) (self : CoreId) (move : CoreId → CoreId) (id : Option Nat) (accepted : Nat → Bool)
    (group : List CoreId) : OutEntry :=
  let h := m.dword (0x800 + 128 * e.slot)
  let all := (List.range group.length).filterMap (fun i => (group[i]?).filter (fun c => !accepted i && c ≠ self))
  match e.kind with
  | .multicast _ =>
    { e with hdr := (h &&& 0xFFFFFF00FFFFFFFF#64) ||| BitVec.ofNat 64 (id.getD 0 * 2 ^ 32)
             dests := all.map (fun c => { core := c, inFlight := false }) }
  | .message =>
    { e with hdr := (h &&& 0xFFF00000FFFFFFFF#64) ||| headerForm (move (coreIn h)), dests := [{ core := move (coreIn h), inFlight := false }] }
  | .spawn t => { e with kind := .spawn (move t) }
  | _ => e

/-- A restored member's core (R178, R181): its state from the block, with the poison of its lines, on a core whose cache lines leave the ways
that are pinned. DEDUCED: the new core's clean lines are dropped as an acquire drops them, for its contexts have acquired elsewhere. DESIGN
CHOICE: the block has no place for the service queue and for orphans, which are
lost; a trap or a hand-back that was queued arises again (log entry 51). -/
def Core.fromImage (kept new : Core) (m : Memory) (bad : List Nat) (tick key : Nat) (move : CoreId → CoreId) (grp : Vector Word 4) (ring : Word) : Core :=
  let pins := pinsOf m 0x40
  let byPin := pinsOf m 0x80
  let counters := Vector.ofFn (n := 32) (fun i => counterOf m i.val)
  let runq := tasksOf m counters 67 0x740
  let ctx (k : CtxId) : Context := contextOf m bad tick k (kept.ctx k).act.serial
  let badIn (lo hi : Nat) : Bool := bad.any (fun i => lo ≤ i && i < hi)
  let kept1 := { kept with l1 := new.l1.filter (fun x => !pins.getLsbD (x.way * 64 + l1Set x.xl.pa)) }
  { kept1.l1Invalidate (fun _ => true) with
    gang := some key, serial := Nat.max kept.serial new.serial, replays := new.replays
    ctx0 := ctx 0#2, ctx1 := ctx 1#2, ctx2 := ctx 2#2, ctx3 := ctx 3#2
    grp := grp, ringNext := ring, counters := counters, runq := runq, outbox := outboxOf m (fun k => (kept.ctx k).act.serial), tag := 1#11, background := {}
    pails := pailsOfImage m runq kept.pails
    pipes := Vector.ofFn (n := 8) (fun j => pipeEndOf m j.val move (kept.pipes.toList[j.val]?).join)
    localMem := (m.filter (fun c => 0x7000 ≤ c.1 && c.1 < 0xE000)).map (fun c => (c.1 - 0x7000, c.2))
    pinLU := pins &&& ~~~byPin, pinBy := byPin
    localPoison := (bad.filter (fun i => 0x1C0 ≤ i && i < 0x380)).flatMap (fun i => (List.range 8).map (fun j => (i - 0x1C0) * 8 + j))
    il1 := [], steer := [], vatCache := []
    latchPoison := BitVec.ofNat 2 (bitAt (badIn 0x80 0xA0) 0 + bitAt (badIn 0xA0 0xC0) 1)
    latch0 := latchAt m 0x2000, latch1 := latchAt m 0x2800
    dtab := lanesAt m 0x300 256, itab := Vector.ofFn (fun i => m.get (0x700 + i.val))
    nanCode := m.get 0x710, sat := (m.get 0x711).getLsbD 0, noAdmit := false, scan := true }

end Sys2Proof.Machine
end

