-- ==== Sys2Proof/Machine/Saves.lean ====
section
/-! DEFINITION. Pre-emption: the save area's blocks (R176), the start of a pre-emption (R92, R93), a member's save (R177) and the
restore of a gang (R181, R282, R283). -/
namespace Sys2Proof.Machine

/-! ## Blocks -/

/-- The physical address of the save area. -/
def Tenant.saveArea (t : Tenant) : Nat := fld t.savebase.toNat 17 35 * 2 ^ 17

/-- Up to `n` free blocks from doubleword `i` of the bitmap on (R176). -/
def State.findBlocks (s : State) (t : Tenant) : (fuel i n : Nat) → State × List Nat
  | 0, _, _ => (s, [])
  | f + 1, i, n =>
    if n = 0 then (s, [])
    else
      let (s1, w, bad) := s.readPhys t (t.saveArea + 8 * i)
      let here := if bad then [] else (((List.range 64).filter (fun b => !w.getLsbD b)).map (64 * i + ·)).take n
      let (s2, r) := State.findBlocks s1 t f (i + 1) (n - here.length)
      (s2, here ++ r)

/-- Mark blocks as in use. -/
def State.markBlocks (s : State) (t : Tenant) (l : List Nat) : State :=
  l.foldl (fun s b =>
    let (s1, w, _) := s.readPhys t (t.saveArea + 8 * (b / 64))
    s1.performPhys t (t.saveArea + 8 * (b / 64)) [w ||| (1#64 <<< (b % 64))]) s

/-- Claim `n` blocks, or none where fewer are free or there is no save area (R176). -/
def State.claimBlocks (s : State) (t : Tenant) (n : Nat) : State × Option (List Nat) :=
  if !t.savebase.getLsbD 0 then (s, none)
  else
    let (s1, l) := s.findBlocks t 16384 0 n
    if l.length = n then (s1.markBlocks t l, some l) else (s1, none)

/-- The first of two neighbouring free blocks from doubleword `i` of the bitmap on; `prev` says whether the block before is free. -/
def State.findPair (s : State) (t : Tenant) : (fuel i : Nat) → (prev : Bool) → State × Option Nat
  | 0, _, _ => (s, none)
  | f + 1, i, prev =>
    let (s1, w, bad) := s.readPhys t (t.saveArea + 8 * i)
    let free (b : Nat) : Bool := !bad && !w.getLsbD b
    if prev && free 0 then (s1, some (64 * i - 1))
    else match (List.range 63).find? (fun b => free b && free (b + 1)) with
      | some b => (s1, some (64 * i + b))
      | none => State.findPair s1 t f (i + 1) (free 63)

/-- Claim the block or the two neighbouring blocks of an acceptance bitmap (R177). -/
def State.claimBitmap (s : State) (t : Tenant) (two : Bool) : State × Option Nat :=
  if !two then (let (s1, l) := s.claimBlocks t 1; (s1, l.bind (·.head?)))
  else if !t.savebase.getLsbD 0 then (s, none)
  else
    match s.findPair t 16384 0 false with
    | (s1, some b) => (s1.markBlocks t [b, b + 1], some b)
    | (s1, none) => (s1, none)

/-- The physical address of a block. -/
def Tenant.blockAt (t : Tenant) (b : Nat) : Nat := t.saveArea + 65536 * b

/-- Write `n` lines of an image to a block, each at its home (R177); lines of poisoned local memory carry their poison. -/
def State.writeLines (s : State) (t : Tenant) (base : Nat) (m : Memory) (bad : Nat → Bool) (n : Nat) : State :=
  (List.range n).foldl (fun s i => s.performUnit t (base + 64 * i) (m.read (64 * i) 64) (bad i)) s

/-- Read `n` lines of a block, with the lines that are poisoned. -/
def State.readLines (s : State) (t : Tenant) (base n : Nat) : State × Memory × List Nat :=
  (List.range n).foldl (fun (s, m, l) i =>
    let (s1, bs, bad) := s.readUnit t (base + 64 * i) 64
    (s1, m ++ (cellsAt (64 * i) bs).filter (fun c => c.2 ≠ 0#8), if bad then l ++ [i] else l)) (s, [], [])

/-! ## The start of a pre-emption -/

/-- The cycles of a budget: PBUDGET microseconds at the nominal core clock (R2, R93, R261). -/
def Tenant.budgetCycles (t : Tenant) : Word := BitVec.ofNat 64 (t.pbudget.toNat * 3600)

/-- Begin the pre-emption of a gang on its claimed blocks (R93): no more tasks are admitted, and handler 252 gets its notice. -/
def State.beginPreempt (s : State) (t : Tenant) (g : Gang) (blocks : List Nat) : State :=
  let s1 := s.onGang g.key (fun g =>
    { g with phase := .preempting
             members := (List.range g.members.length).map (fun i =>
               { (g.members[i]?).getD { core := 0#20, group := 0, rank := 0 } with block := blocks[i]?.getD 0 }) })
  g.members.foldl (fun s m => s.onCore m.core (fun c =>
    let c1 := { c with noAdmit := true }
    if (c.entry? 252#8).isSome then c1.offer { index := 252#8, g3 := t.budgetCycles } else c1)) s1

/-- Whether a gang can be pre-empted: it has started, and it is not being aborted (R92). -/
def Gang.preemptible (g : Gang) : Bool := g.phase = .started && g.abort.isNone

/-- Put a gang into a list that starts with the lowest priority, and within one with the most recent start (R92). -/
def insertVictim (g : Gang) : List Gang → List Gang
  | [] => [g]
  | x :: r => if g.rcd.pri.toNat < x.rcd.pri.toNat || (g.rcd.pri = x.rcd.pri && x.started < g.started) then g :: x :: r
              else x :: insertVictim g r

/-- The gang whose cores let a starving record be placed (R92). -/
def State.victim (s : State) (t : Tenant) (r : LaunchRec) : Option Gang :=
  ((s.gangs.filter (fun g => g.tenant = t.id && g.preemptible && g.rcd.pri.toNat < r.pri.toNat)).foldl (fun l g => insertVictim g l) []).find?
    (fun g => ((s.dissolve g).place t r).isSome)

/-- PREEMPT_STARVATION (R92, R176): for the first record that has waited too long, the chosen gang is pre-empted, if its blocks can
be claimed. -/
def execPreemptStarvation (tenant : Nat) (s : State) : Answer :=
  .next (match s.tenant tenant with
    | none => s
    | some t =>
      let waiting := (([3#2, 2#2, 1#2, 0#2] : List (BitVec 2)).flatMap t.atPri).filter (fun r => (s.place t r).isNone)
      match waiting.findSome? (fun r => s.victim t r) with
      | none => s
      | some g => match s.claimBlocks t g.members.length with
        | (s1, some l) => s1.beginPreempt t g l
        | (_, none) => s)

/-! ## The save -/

/-- PREEMPT_BUDGET_EXPIRY (R93, R177): the save of what has not ended begins. -/
def execPreemptBudgetExpiry (gang : Nat) (s : State) : Answer :=
  .next (match s.gang? gang with
    | none => s
    | some g =>
      if g.phase ≠ .preempting then s
      else (g.members.filter Member.there).foldl (fun s m => allCtx.foldl (fun s k => s.suspendCopy m.core k) (s.onCore m.core Core.stopAll))
        (s.onGang gang (fun g => { g with phase := .saving })))

/-- Whether a packet still concerns a core or its gang, so that its save waits (R177); a start message waits for the restore. -/
def Packet.concerns (key : Nat) (core : CoreId) (p : Packet) : Bool :=
  p.req?.any (fun r : Req => r.core = core)
  || (match p.body with
    | .message _ _ gang _ _ _ start => gang = key && !start
    | .notice _ _ gang _ | .latch _ _ gang _ _ _ _ _ | .pipe _ _ gang _ | .depart _ _ gang _ => gang = key
    | .accepted dst _ _ | .refused dst _ _ => dst = core
    | .verdict w _ _ | .readPointer w _ _ => w = core
    | .post _ _ _ src | .notices _ _ _ src => src.any (fun p => p.1 = core)
    | _ => false)

/-- The acceptance bitmap of a multicast by rank (R177): 1 for each member that has accepted its copy. -/
def acceptBitmap (g : Group) (core : CoreId) (e : OutEntry) : Memory :=
  ((List.range g.members.length).filter (fun i =>
    let c := g.members[i]?.getD 0#20
    c ≠ core && !e.dests.any (fun d => d.core = c))).foldl (fun m i => m.set (i / 8) (m.get (i / 8) ||| (1#8 <<< (i % 8)))) []

/-- Step 4 of a save (R177): a bitmap for every partly accepted multicast; none where a block is lacking. -/
def State.saveBitmaps (s : State) (t : Tenant) (core : CoreId) : List OutEntry → State × Option (List (Nat × Nat))
  | [] => (s, some [])
  | e :: r =>
    match s.entryGroup core e with
    | none => State.saveBitmaps s t core r
    | some g =>
      match s.claimBitmap t (524288 < g.members.length) with
      | (s1, none) => (s1, none)
      | (s1, some b) =>
        let s2 := s1.writeLines t (t.blockAt b) (acceptBitmap g core e) (fun _ => false) ((g.members.length + 511) / 512)
        match State.saveBitmaps s2 t core r with
        | (s3, some l) => (s3, some (((e.slot, b) :: if 524288 < g.members.length then [(e.slot, b + 1)] else []) ++ l))
        | (s3, none) => (s3.freeBlocks t (if 524288 < g.members.length then [b, b + 1] else [b]), none)

/-- Step 4 of the saves of a gang (R177): every partly accepted multicast of its members has its bitmap, or none of them has, so that copies
are sent only while no member has left. -/
def State.claimBitmaps (s : State) (t : Tenant) (key : Nat) : List Member → Option State
  | [] => some s
  | m :: r =>
    let due := ((s.core m.core).outbox.filter (s.partly m.core)).filter (fun e => !s.hasBitmap m.core e.slot)
    match s.saveBitmaps t m.core due with
    | (_, none) => none
    | (s1, some l) => State.claimBitmaps (s1.onGang key (fun g =>
        { g with members := g.members.map (fun x => if x.core = m.core then { x with extra := x.extra ++ l } else x) })) t key r

/-- Whether a core is ready for its image to be written (R177): nothing issues, every answer has come, the engines' queues but
the copies' are empty, and its replay buffers are written (R232). -/
def State.saveReady (s : State) (key : Nat) (core : CoreId) : Bool :=
  let c := s.core core
  c.quietWrites && !s.net.any (fun p => p.concerns key core) && s.copied (· = core)
  && allCtx.all (fun k => let x := c.ctx k; (x.st = .free || x.st = .saving) && x.mq.isEmpty && x.vq.isEmpty)

/-- An activation that is being saved and has consumed an uncorrectable error is killed instead (R177). DEDUCED: so is one whose copy has read
poison, for whose later kill the block has no place (R178, R236; log entry 51). -/
def State.killPoisoned (s : State) (core : CoreId) : State :=
  allCtx.foldl (fun s k =>
    let x := s.ctxAt core k
    if x.st ≠ .saving then s
    else match x.op.fault.filter (fun i => i.cause = .uncorrectable) with
    | some i => s.killUncorrectable core k i
    | none => if x.act.poisoned then s.killUncorrectable core k (poisonTrap 0#64) else s) s

/-- The gang is saved once every member is (R221, R282): its groups and template bindings go with it, and its record waits behind
those already queued. The home launch unit keeps the arrivals and operands of the groups (R326). -/
def State.gangSaved (s : State) (key : Nat) : State :=
  match s.gang? key with
  | none => s
  | some g =>
    if !g.members.all (fun m => m.saved) then s
    else
      let mine (b : Binding) : Bool := b.template && g.members.any (fun m => m.core = b.worker)
      let s1 := s.onGang key (fun g => { g with phase := .saved, groups := s.groups.filter (fun x => x.gang = key), bindings := s.bindings.filter mine })
      let s2 := { s1 with groups := s1.groups.filter (fun x => x.gang ≠ key), bindings := s1.bindings.filter (fun b => !mine b)
                          parlour := { s1.parlour with awaits := s1.parlour.awaits.filter (· ≠ key) } }
      s2.onTenant g.tenant (fun t => { t with queue := t.queue ++ [{ g.rcd with age := 0 }] })

/-- Write a member's image and free its contexts (R177, R178). DESIGN CHOICE: the block has no place for faults that no FENCE has reported, so
that they go to the supervisor's queue (R103, R141; log entry 51). -/
def State.writeMember (s : State) (t : Tenant) (g : Gang) (m : Member) : State :=
  let s0 := (s.bindings.filter (fun b => !b.template && (b.worker = m.core || b.guard = m.core))).foldl (fun s b => s.endBinding b) s
  let s1 := allCtx.foldl (fun s k => (s.reportDeferred m.core k).withdrawWaits m.core k) s0
  let c := s1.core m.core
  let bind := match s1.workerBinding m.core with
    | some b => some (b, false)
    | none => (s1.guardBinding m.core).map (fun b => (b, true))
  let s2 := s1.writeLines t (t.blockAt m.block) (c.image m bind) c.imageBad 1024
  let s3 := s2.onGang g.key (fun g =>
    { g with members := g.members.map (fun x => if x.core = m.core then { m with saved := true, kept := some c.keptPart } else x) })
  (s3.vacate m.core).gangSaved g.key

/-- MEMBER_SAVE (R177): what has ended its instruction stops, the core writes back and drains, and once every member has done so its image is written: none can then
reach another whose image is already written. -/
def execMemberSave (core : CoreId) (s : State) : Answer :=
  .next (match (s.core core).gang.bind s.gang? with
    | none => s
    | some g => match s.tenant g.tenant, g.members.find? (fun m => m.core = core && !m.saved) with
      | some t, some m =>
        if g.phase ≠ .saving then s
        else
          let s0 := (s.onCore core Core.stopAll).killPoisoned core
          if !s0.roomFor (bgReq core) (fun _ => true) none then s0 else
          let s1 := s0.l1WriteBack (bgReq core) (fun _ => true)
          if !g.members.all (fun m => m.lost || m.saved || s1.saveReady g.key m.core) then s1
          else match s1.claimBitmaps t g.key (g.members.filter Member.there) with
            | none => s1
            | some s2 => s2.writeMember t g { m with extra := ((s2.gang? g.key).bind (fun g => g.members.find? (fun x => x.core = core))).elim [] (·.extra) }
      | _, _ => s)

/-! ## The restore -/

/-- What a restored member's released entries have accepted (R181): its bitmap bit by rank. -/
def State.acceptedAt (s : State) (t : Tenant) (b : Option Nat) (n : Nat) : State × (Nat → Bool) :=
  match b with
  | none => (s, fun _ => false)
  | some b =>
    let (s1, m, _) := s.readLines t (t.blockAt b) ((n + 511) / 512)
    (s1, fun i => (m.get (i / 8)).getLsbD (i % 8))

/-- The outbox of a restored member: what is held stays held, and what was released is sent again (R181). -/
def State.restoreOutbox (s : State) (t : Tenant) (m : Member) (img : Memory) (move : CoreId → CoreId) : List OutEntry → State
  | [] => s
  | e :: r =>
    let g := s.entryGroup m.core e
    let (s1, acc) := s.acceptedAt t (bitmapOf img e.slot) (g.elim 0 (·.members.length))
    let x := e.restored img m.core move (g.map (·.id)) acc (g.elim [] (·.members))
    let y : OutEntry := { x with dests := x.dests.map (fun d => { d with inFlight := x.released }) }
    let s2 := s1.onCore m.core (fun c => { c with outbox := c.outbox ++ [y] })
    let s3 := if !y.released then s2
      else match y.kind with
        | .multicast _ | .message => y.dests.foldl (fun s d => s.sendCopy m.core y d.core) s2
        | _ => s2.sendEntry m.core y
    State.restoreOutbox s3 t m img move r

/-- Restore one member from its block (R178 to R181): poison in a control line loses the new core (R240). -/
def State.restoreMember (s : State) (t : Tenant) (g : Gang) (move : CoreId → CoreId) (m : Member) : State :=
  let (s1, img, bad) := s.readLines t (t.blockAt m.block) 1024
  let c := (m.kept.getD {}).fromImage (s1.core m.core) img bad s.tick g.key move (s1.grpWords g.key m.core) (g.ringNext m)
  let s2 := s1.onCore m.core (fun _ => { c with outbox := [] })
  let s3 := s2.restoreOutbox t m img move c.outbox
  if bad.any (· < 0x80) then s3.silence m.core else s3

/-- A start message that still waits goes to its member's new core, which its header names (R88, R181). -/
def Packet.moveStart (p : Packet) (key : Nat) (move : CoreId → CoreId) : Packet :=
  match p.body with
  | .message dst src gang hdr payload slot true =>
    if gang ≠ key then p
    else { p with body := .message (move dst) (move src) gang ((hdr &&& 0xFFF00000FFFFFFFF#64) ||| headerForm (move (coreIn hdr))) payload slot true }
  | _ => p

/-- A restored gang's template bindings resume from the blocks of their two cores (R180). -/
def State.restoreBinding (s : State) (t : Tenant) (g : Gang) (b : Binding) : State :=
  let blk (c : CoreId) : Nat := (g.members.find? (fun m => m.core = c)).elim 0 (·.block)
  let (s1, w, _) := s.readLines t (t.blockAt (blk b.worker)) 96
  let (s2, d, _) := s1.readLines t (t.blockAt (blk b.guard)) 96
  { s2 with bindings := s2.bindings ++ [b.resume w d] }

/-- The contexts whose arrivals at a group are counted wait again after a restore, with what they have waited (R181, R326). -/
def State.waitAgain (s : State) (g : Group) : State :=
  g.arrivals.foldl (fun s a => s.onCtx a.2.1.core a.2.1.ctx (fun x =>
    if x.st = .ready && x.act.serial = a.2.1.serial then
      { x with st := .waiting, op := { elapsed := x.op.elapsed, wait := .group (BitVec.ofNat 2 g.slot), timed := true, phase := 9
                                       aux := (groupScope g.members).toNat } }
    else x)) s

/-- Every context of a restored gang that waits in an episode (R326). -/
def State.waitingAgain (s : State) (gang : Nat) : State := (s.groups.filter (fun g => g.gang = gang)).foldl State.waitAgain s

/-- GANG_RESTORE (R181, R283): every member is loaded from its block, the blocks are free again, and what came while the gang was
saved is told now. -/
def execGangRestore (gang : Nat) (s : State) : Answer :=
  .next (match s.gang? gang with
    | none => s
    | some g => match s.tenant g.tenant with
      | none => s
      | some t =>
        if g.phase ≠ .restoring then s
        else
          let move (c : CoreId) : CoreId :=
            ((g.members.find? (fun m => coreIn ((s.readPhys t (t.blockAt m.block)).2.1) = c)).map (·.core)).getD c
          let s1 := g.members.foldl (fun s m => s.restoreMember t g move m) s
          let s2 := (g.bindings.foldl (fun s b => s.restoreBinding t g b) s1).waitingAgain gang
          let s3 := (({ s2 with net := s2.net.map (fun p => p.moveStart gang move) } : State).freeBlocks t g.blocks).onGang gang (fun g =>
            { g with phase := .started, bindings := []
                     members := g.members.map (fun m => { m with saved := false, block := 0, extra := [], kept := none }) })
          match g.abort with
          | none => s3
          | some r => g.members.foldl (fun s m => if m.lost then s
              else s.abortMember m.core r (if r = 1 then headerForm g.lostCore else 0#64)) s3)

end Sys2Proof.Machine
end

