-- ==== Sys2Proof/Machine/Parlour.lean ====
section
/-! DEFINITION. The parlour: bring-up (R248), management registers and the command doorbell (R249, R250), the commands (R249, R251,
R252, R254) and the power steps (R253). -/
namespace Sys2Proof.Machine

/-! ## Bring-up and registers -/

/-- Whether the boot ROM accepts a firmware image (R248): its digest verifies, its key is the fused one, and its version is not below the
rollback counter. -/
def Parlour.accepts (p : Parlour) (i : FirmwareImage) : Bool := i.verifies && i.key = p.fusedKey && p.rollback ≤ i.version

/-- MODULE_BRING_UP (R8, R27, R248). In RECOVERY the boot ROM looks for an acceptable image on drive 0 and then on drive 1; with one the
firmware measures what R252 reports and the module trains its HBM, and without one it stays. In TRAINING, once the microcode verifies,
the self-test marks cores absent, and the module enters READY with CYCLE 0. DESIGN CHOICE: with a microcode that does not verify it stays
in TRAINING (log entry 103). -/
def execModuleBringUp (images : BootImages) (absent : List CoreId) (s : State) : Answer :=
  let p := s.parlour
  .next (
    if p.state = 0 && (images.drive0.any p.accepts || images.drive1.any p.accepts) then
      { s with parlour := { p with state := 1, measured := s.tick } }
    else if p.state = 1 && images.microcode then
      (absent.filter namesCore).foldl (fun s c => s.markAbsent c)
        { s with cycle := 0#64, parlour := { p with state := 2, present := 663552#20, absent := [] } }
    else s)

/-- PCIE_CONFIG_REQUEST (R248): before READY the request gets Configuration Request Retry Status. -/
def execPcieConfigRequest (_port : Nat) (s : State) : Answer :=
  .next (if s.parlour.state < 2 then { s with parlour := { s.parlour with configRetries := s.parlour.configRetries + 1 } } else s)

/-- REGISTER_WRITE (R248, R250): the command block keeps what is written, and no other management register takes a write. -/
def execRegisterWrite (off : Nat) (value : Word) (s : State) : Answer :=
  .next (
    if h : off % 8 = 0 ∧ 0x100 ≤ off ∧ off < 0x140 then
      { s with parlour := { s.parlour with block := s.parlour.block.set ((off - 0x100) / 8) value } }
    else s)

/-- POWER_STEP_ADJUST (R253): one step slower above the cap; at or below it a step faster, or none, as the parlour decides. -/
def execPowerStepAdjust (die : Nat) (meas : BitVec 16) (s : State) : Answer :=
  .next (
    if h : die < 32 then
      let w := s.parlour.diePower[die].toNat
      let cap := fld w 48 16
      let steps := w % 32
      let new := if cap < meas.toNat then Nat.min 24 (steps + 1)
                 else if (Config.freeWord s.tick).getLsbD 0 then steps - 1 else steps
      { s with parlour := { s.parlour with diePower := s.parlour.diePower.set die (BitVec.ofNat 64 (cap * 2 ^ 48 + meas.toNat * 2 ^ 32 + new)) } }
    else s)

/-! ## Running a command -/

/-- Write a command's result to host memory by the port of its doorbell, unless the link is down (R245, R250). -/
def State.putResult (s : State) (result : List Byte) : State :=
  if result.isEmpty || s.parlour.linkDown.contains s.parlour.port then s
  else let s1 := s.pushHost; { s1 with hostMem := s1.hostMem.write s.parlour.running[3].toNat result }

/-- Finish the running command (R250): the result, then the status with DONE. -/
def State.finishCommand (s : State) (status : Nat) (result : List Byte) : State :=
  let s1 := s.putResult result
  { s1 with parlour := { s1.parlour with busy := none, begun := false, awaits := []
                                         status := BitVec.ofNat 64 (2 ^ 63 + result.length * 2 ^ 16 + status) } }

/-- Read the parameter area of the block whole, behind the posted writes (R250). -/
def State.readArea (s : State) : State :=
  let n := s.parlour.block[2].toNat % 2 ^ 32
  let s1 := if n = 0 then s else s.pushHost
  { s1 with parlour := { s1.parlour with area := s1.hostMem.slice s.parlour.block[1].toNat n } }

/-- COMMAND_DOORBELL (R249, R250): DONE is cleared, the parameter area is read through the port of the doorbell, and the command of the
block runs; while one runs the write is discarded, and an unassigned code gives status 4. -/
def execCommandDoorbell (write : PortWrite) (s : State) : Answer :=
  let code := s.parlour.block[0].toNat % 256
  .next (
    if s.parlour.busy.isSome || s.parlour.state < 2 || s.parlour.linkDown.contains write.port then s
    else
      let s0 := s.readArea
      let s1 := { s0 with parlour := { s0.parlour with status := 0#64, running := s.parlour.block, busy := some code, port := write.port } }
      if code = 0 || 0x0A < code then s1.finishCommand 4 [] else s1)

/-- A doubleword of the running command's block. -/
def Parlour.cmd (p : Parlour) (i : Nat) : Nat := ((p.running.toList[i]?).getD 0#64).toNat
/-- The tenant that the command names. -/
def Parlour.cmdTenant (p : Parlour) : Nat := fld (p.cmd 0) 8 4

/-- Whether the block breaks its layout (R250). -/
def Parlour.blockBad (p : Parlour) : Bool :=
  p.cmd 0 / 4096 ≠ 0 || p.cmd 1 % 8 ≠ 0 || p.cmd 2 / 2 ^ 32 ≠ 0 || p.cmd 3 % 8 ≠ 0 || p.cmd 4 / 2 ^ 32 ≠ 0
  || p.cmd 5 ≠ 0 || p.cmd 6 ≠ 0 || p.cmd 7 ≠ 0

/-- A little-endian value of the parameter area. -/
def State.param (s : State) (off n : Nat) : Nat := s.parlour.area.value (s.parlour.cmd 1 + off) n

/-- What a command's own part answers: a status and a result, or that it goes on. -/
inductive Ran where
  | done (s : State) (status : Nat) (result : List Byte)
  | goesOn (s : State)

/-- Run a command of `len` parameter bytes and `rlen` result bytes (R250): status 4, also for an address of parameters or of a result that the
command does not have, then 1, then 6, then its own. -/
def State.runCommand (s : State) (code len rlen : Nat) (bad : Bool) (named : Bool) (own : State → Ran) : Answer :=
  let p := s.parlour
  .next (
    if p.busy ≠ some code then s
    else if p.blockBad || (len = 0 && p.cmd 1 ≠ 0) || (rlen = 0 && p.cmd 3 ≠ 0) || p.cmd 2 ≠ len || bad then s.finishCommand 4 []
    else if named && (s.tenant p.cmdTenant).isNone then s.finishCommand 1 []
    else if p.cmd 4 < rlen then s.finishCommand 6 []
    else s.attempt (fun s => match own s with
      | .done s1 st r => s1.finishCommand st r
      | .goesOn s1 => s1))

/-- Whether the parameter bytes from one offset to another are all zero (R251). -/
def State.paramZero (s : State) (lo hi : Nat) : Bool := (s.parlour.area.slice (s.parlour.cmd 1 + lo) (hi - lo)).isEmpty

/-! ## CREATE, RESET and DESTROY -/

/-- The clusters of CREATE's bitmap, in index order (R251). -/
def State.bitmapClusters (s : State) : List CoreId :=
  ((List.range 20736).filter (fun i => (s.parlour.area.get (s.parlour.cmd 1 + i / 8)).getLsbD (i % 8))).map clusterAt

/-- The ranges of CREATE (R251). -/
def State.createRanges (s : State) : List (Nat × Nat) :=
  (List.range (s.param 0xA20 8 % 32)).map (fun i => (s.param (0xA40 + 16 * i) 8, s.param (0xA48 + 16 * i) 8))

/-- Whether two ranges overlap. -/
def rangesMeet (a b : Nat × Nat) : Bool := a.1 < b.1 + b.2 && b.1 < a.1 + a.2

/-- Whether ranges of one list overlap each other. -/
def selfMeet : List (Nat × Nat) → Bool
  | [] => false
  | r :: l => l.any (rangesMeet r) || selfMeet l

/-- Whether a range lies in HBM as R251 asks. -/
def rangeBad (r : Nat × Nat) : Bool :=
  r.1 % 2 ^ 21 ≠ 0 || r.2 = 0 || r.2 % 2 ^ 21 ≠ 0 || regionOf r.1 ≠ some .hbm || 96000000000 < r.1 % 2 ^ 37 + r.2

/-- Status 4 of CREATE (R251). -/
def State.createBad (s : State) : Bool :=
  let n := s.param 0xA20 8
  n = 0 || 16 < n || s.param 0xA28 8 % 4096 ≠ 0 || 1 < s.param 0xA30 8 || s.paramZero 0 0xA20
  || (s.createRanges).any rangeBad || selfMeet s.createRanges || !s.paramZero (0xA40 + 16 * n) 0xB40

/-- The shares of vat 0 (R118): every way of every bank of every slice. -/
def vat0Shares (clusters : List CoreId) : List Share :=
  clusters.flatMap (fun c => (List.range 8).map (fun b => { slice := c, bank := BitVec.ofNat 3 b, ways := 0xFFFF#16 }))

/-- Vat 0 as CREATE defines it (R118). -/
def vat0 (clusters : List CoreId) (list : Nat) : Vat :=
  { index := 0, valid := true, cur := { list := list, shares := vat0Shares clusters, gen := 1#16 } }

/-- The bytes that CREATE places in range 0 (R118, R119, R251, R260): the vat records, the ownership table and vat 0's share list. -/
def State.placeTables (s : State) (clusters : List CoreId) (base : Nat) : State :=
  let v := vat0 clusters (base + 0x16000)
  let size := 0x16000 + 64 * clusters.length
  let m1 := (s.hbm.clear base size).storeDwords base v.record
  let m2 := clusters.foldl (fun m c => m.set (base + 0x10000 + clusterIndex c) 1#8) m1
  let lines := fun l => base / 64 ≤ l && l < (base + size + 63) / 64
  { s with hbm := m2.storeDwords (base + 0x16000) (v.cur.shares.map Share.word)
           hbmKey := s.hbmKey.filter (fun l => !lines l.1) }.clearPoison lines

/-- A tenant as CREATE and RESET leave it (R251, R252), with new keys. -/
def State.newTenant (s : State) (id : Nat) (clusters : List CoreId) (ranges : List (Nat × Nat)) (aperture aport : Nat) (hwbase : Word) : State :=
  let base := (ranges.headD (0, 0)).1
  let t : Tenant := { id := id, key := s.nextKey, clusters := clusters, ranges := ranges, aperture := aperture, aport := aport, hwbase := hwbase
                      vats := [vat0 clusters (base + 0x16000)], created := s.tick }
  { s.placeTables clusters base with nextKey := s.nextKey + 1, tenants := s.tenants.filter (fun u => u.id ≠ id) ++ [t] }

/-- CREATE (R249, R251, R252). -/
def execCreate (s : State) : Answer :=
  s.runCommand 0x01 0xB40 0 s.createBad false (fun s =>
    let id := s.parlour.cmdTenant
    let cl := s.bitmapClusters
    let ranges := s.createRanges
    if (s.tenant id).isSome then .done s 1 []
    else if s.tenants.any (fun t => cl.any t.clusters.contains || ranges.any (fun r => t.ranges.any (rangesMeet r))) then .done s 2 []
    else .done (s.newTenant id cl ranges (s.param 0xA28 8) (s.param 0xA30 8) (BitVec.ofNat 64 (s.param 0xA38 8))) 0 [])

/-- Whether a packet belongs to a tenant: its cores, its launch unit or its translations. -/
def Packet.ofTenant (t : Tenant) (p : Packet) : Bool :=
  let mine (c : CoreId) : Bool := t.clusters.contains (clusterOf c)
  p.req?.any (fun r : Req => mine r.core)
  || (match p.body with
    | .message dst _ _ _ _ _ _ | .accepted dst _ _ | .refused dst _ _ | .notice dst _ _ _ | .latch dst _ _ _ _ _ _ _ | .pipe dst _ _ _
    | .depart dst _ _ _ | .drain dst _ _ _ _ => mine dst
    | .verdict w _ _ | .readPointer w _ _ => mine w
    | .post tn _ _ _ | .notices tn _ _ _ => tn = t.id
    | .atomicAns _ _ st _ _ _ _ => st.tenant = t.id
    | _ => false)

/-- Zero what a tenant holds in its cores, slices and ranges (R252, step 2). -/
def State.zeroTenant (s : State) (t : Tenant) : State :=
  let mine (c : CoreId) : Bool := t.clusters.contains (clusterOf c)
  let blank (c : Core) : Core := { serial := c.serial }
  let inRange (a : Nat) : Bool := t.ranges.any (fun r => r.1 ≤ a && a < r.1 + r.2)
  let s := s.clearPoison (fun l => inRange (64 * l))
  { s with
    me := if mine s.meId then blank s.me else s.me
    others := s.others.map (fun p => if mine p.1 then (p.1, blank p.2) else p)
    slices := s.slices.map (fun p => if t.clusters.contains p.1 then (p.1, { offline := p.2.offline }) else p)
    thomes := s.thomes.map (fun p => (p.1, { leaves := p.2.leaves.filter (fun e => e.tenant ≠ t.id), walks := p.2.walks.filter (fun e => e.tenant ≠ t.id) }))
    hbm := s.hbm.filter (fun c => !inRange c.1)
    hbmKey := s.hbmKey.filter (fun l => !inRange (64 * l.1))
    gangs := s.gangs.filter (fun g => g.tenant ≠ t.id)
    groups := s.groups.filter (fun g => !g.members.any mine)
    bindings := s.bindings.filter (fun b => !mine b.worker)
    net := s.net.filter (fun p => !p.ofTenant t)
    peerWaits := s.peerWaits.filter (fun w => !mine w.req.core)
    parlour := { s.parlour with qps := s.parlour.qps.filter (fun q => q.tenant ≠ t.id), regions := s.parlour.regions.filter (fun r => r.tenant ≠ t.id)
                                posted := s.parlour.posted.map (fun p => { p with ack := p.ack.filter (fun a => !mine a.1.core) }) } }

/-- Perform at once every write and every AQ of a core that is on its way (R134, R279), at its home and at the replicas. -/
def State.performOwn (s : State) (core : CoreId) : State :=
  (s.net.filter (fun p => p.req?.any (fun r : Req => r.core = core))).foldl (fun s p => match p.body with
    | .write .. | .aqReq .. | .atomic _ _ _ _ _ _ _ false _ _ _ => s.serveOne p
    | .forward .. => s.forwardNow p
    | _ => s) s

/-- Run the vector commands of a context to their ends, one after another, so that the stores of the TSTs among them are performed (R55, R279,
R363). -/
def State.finishVector (s : State) (core : CoreId) (k : CtxId) : State :=
  (s.ctxAt core k).vq.foldl (fun s q =>
    let (s1, q1) := if q.started then (s, q) else s.startTransfer core k ((s.core core).begin q)
    (s1.performOwn core).vectorRun core k q1) s

/-- What the activations of a core have retired is performed when they are killed (R55, R279, R312): the copy commands stop where they are, and the
stores of its TSTs, its writes and AQs on their way, its dirty bytes and its release stores reach their homes. -/
def State.settleCore (s : State) (core : CoreId) : State :=
  let s1 := allCtx.foldl (fun s k => match (s.ctxAt core k).nextCopy.filter (·.started) with
    | some q => s.endCancelled core k q
    | none => s) s
  let s2 := (((allCtx.foldl (fun s k => s.finishVector core k) s1).performOwn core).l1WriteBack (bgReq core) (fun _ => true)).performOwn core
  (allCtx.foldl (fun s k => (s.ctxAt core k).rel.foldl (fun s w => s.performRel core k w) s) s2).performOwn core

/-- RESET a tenant (R252): every gang is killed, and ends with status 0x03 once its writes are performed (R279); then everything is zero, and the
state is that of CREATE. -/
def State.resetTenant (s : State) (t : Tenant) : State :=
  let gs := s.gangs.filter (fun g => g.tenant = t.id)
  let s1 := gs.foldl (fun s g =>
    s.writeStatus t.id g.rcd (Nat.min (2 ^ 32 - 1) (Config.micros g.rcd.accepted s.tick)) 0x03)
    ((gs.flatMap (fun g => (g.members.filter Member.there).map (·.core))).foldl State.settleCore s)
  (s1.zeroTenant t).newTenant t.id t.clusters t.ranges t.aperture t.aport t.hwbase

/-- RESET (R249, R252). -/
def execReset (s : State) : Answer :=
  s.runCommand 0x02 0 0 false true (fun s => match s.tenant s.parlour.cmdTenant with
    | some t => .done (s.resetTenant t) 0 []
    | none => .done s 1 [])

/-- DESTROY (R249): RESET, then the clusters and ranges are free. -/
def execDestroy (s : State) : Answer :=
  s.runCommand 0x03 0 0 false true (fun s => match s.tenant s.parlour.cmdTenant with
    | some t => let s1 := s.resetTenant t; .done { s1 with tenants := s1.tenants.filter (fun u => u.id ≠ t.id) } 0 []
    | none => .done s 1 [])

/-! ## Windows, gangs and power -/

/-- SET_WINDOW's entry as the status check sees it (R246, R251). -/
def State.windowBad (s : State) : Bool :=
  let k := s.param 0 8
  let e := s.param 8 8
  k / 2 ^ 14 ≠ 0 || fld k 1 7 ≠ 0
  || (if k % 2 = 0 then fld e 48 8 ≠ 0 || e % 2 ^ 28 ≠ 0 else 16 ≤ k / 256 || fld e 48 15 ≠ 0 || fld e 4 28 ≠ 0)

/-- SET_WINDOW (R246, R251). -/
def execSetWindow (s : State) : Answer :=
  s.runCommand 0x04 16 0 s.windowBad true (fun s =>
    let k := s.param 0 8
    let e : Word := BitVec.ofNat 64 (s.param 8 8)
    .done (s.onTenant s.parlour.cmdTenant (fun t =>
      if k % 2 = 0 then { t with windows := assocSet (k / 256) e t.windows } else { t with grants := assocSet (k / 256) e t.grants })) 0 [])

/-- Whether a record carries the id that a command names and, with an address, was read from there (R251). -/
def LaunchRec.matches_ (r : LaunchRec) (id va : Nat) : Bool := r.id = id && (va = 0 || r.va.toNat = va)

/-- Status 4 of PREEMPT and KILL. -/
def State.gangParamBad (s : State) : Bool := 4096 ≤ s.param 0 8

/-- The gangs of the named tenant that PREEMPT and KILL act on. -/
def State.matching (s : State) : List Gang :=
  s.gangs.filter (fun g => g.tenant = s.parlour.cmdTenant && g.rcd.matches_ (s.param 0 8) (s.param 8 8))

/-- Begin the pre-emption of every gang of a list on the blocks claimed for all of them. -/
def State.preemptAll (s : State) (t : Tenant) : List Gang → List Nat → State
  | [], _ => s
  | g :: r, l => State.preemptAll (s.beginPreempt t g (l.take g.members.length)) t r (l.drop g.members.length)

/-- PREEMPT (R176, R249, R251, R282): all the matching gangs or none; the command is done once every save has completed. It waits
for a matching gang that is being started or restored. -/
def execPreempt (s : State) : Answer :=
  s.runCommand 0x05 16 0 s.gangParamBad true (fun s =>
    if s.parlour.begun then (if s.parlour.awaits.isEmpty then .done s 0 [] else .goesOn s)
    else
      let gs := s.matching
      let run := gs.filter Gang.preemptible
      if gs.isEmpty then .done s 5 []
      else if gs.any (fun g => g.phase = .placed || g.phase = .restoring) then .goesOn s
      else match s.tenant s.parlour.cmdTenant with
        | none => .done s 1 []
        | some t => match s.claimBlocks t ((run.map (fun g => g.members.length)).sum) with
          | (_, none) => .done s 3 []
          | (s1, some l) =>
            let s2 := s1.preemptAll t run l
            let waits := (gs.filter (fun g => g.preemptible || g.phase = .preempting || g.phase = .saving)).map (·.key)
            .goesOn { s2 with parlour := { s2.parlour with begun := true, awaits := waits } })

/-- KILL (R249, R251): handler 255 with reason 2 in every matching gang, and every matching record that waits completes with 0x03. -/
def execKill (s : State) : Answer :=
  s.runCommand 0x06 16 0 s.gangParamBad true (fun s =>
    let tn := s.parlour.cmdTenant
    let gs := s.matching
    let rs := (s.tenant tn).elim [] (fun t => (t.queue ++ t.pending).filter (fun r =>
      r.matches_ (s.param 0 8) (s.param 8 8) && (s.gang? r.key).isNone))
    if gs.isEmpty && rs.isEmpty then .done s 5 []
    else
      let s1 := rs.foldl (fun s r => (s.unqueue tn r.key).complete tn r 0x03) s
      .done (gs.foldl (fun s g => s.abortGang g.key 2 0#20) s1) 0 [])

/-- SET_CAP (R251, R253). -/
def execSetCap (s : State) : Answer :=
  let w := s.param 0 8
  let cap := fld w 16 16
  s.runCommand 0x07 8 0 (w / 2 ^ 32 ≠ 0 || fld w 5 11 ≠ 0 || cap < 200 || 1000 < cap) false (fun s =>
    let die := w % 32
    let v := s.parlour.diePower
    .done { s with parlour := { s.parlour with diePower := if h : die < 32 then v.set die (BitVec.ofNat 64 (cap * 2 ^ 48 + v[die].toNat % 2 ^ 48)) else v } } 0 [])

/-- ATTEST (R252): the nonce, the inventory, the measurements and the signature, whose bytes the device's keys decide. -/
def execAttest (s : State) : Answer :=
  s.runCommand 0x08 48 0x158 false true (fun s =>
    let inv := s.parlour.present.toNat * 2 ^ 44 + 0xB0 * 2 ^ 16 + 0x0A31
    .done s 0 (s.parlour.area.read (s.parlour.cmd 1) 48 ++ leBytesOf 8 inv
      ++ (List.range 192).map (Config.attestByte s.parlour.measured) ++ (List.range 96).map (fun i => Config.attestByte s.tick (192 + i))))

/-! ## Queue pairs and regions -/

/-- The sub-operation of command 0x09. -/
def State.subOp (s : State) : Nat := s.parlour.area.value (s.parlour.cmd 1) 1

/-- Run a sub-operation of command 0x09; one that is not assigned gives status 4, as CREATE_QP. -/
def State.runSub (s : State) (sub len rlen : Nat) (bad : Bool) (own : State → Ran) : Answer :=
  let n := s.subOp
  if n = sub then s.runCommand 0x09 len rlen (bad || !s.paramZero 1 8) true own
  else if sub = 0 && 3 < n then s.runCommand 0x09 len rlen true true own
  else .next s

/-- A power of two from 16 to 4,096. -/
def ringEntriesOk (n : Nat) : Bool := [16, 32, 64, 128, 256, 512, 1024, 2048, 4096].contains n

/-- Status 4 of CREATE_QP (R251). -/
def State.qpBad (s : State) : Bool :=
  let p := s.param 0x28 8
  s.param 0x08 8 % 64 ≠ 0 || s.param 0x10 8 / 2 ^ 32 ≠ 0 || !ringEntriesOk (s.param 0x10 2) || !ringEntriesOk (s.param 0x12 2)
  || s.param 0x18 8 % 32 ≠ 0 || s.param 0x20 8 % 8 ≠ 0 || fld p 3 5 ≠ 0 || fld p 10 6 ≠ 0 || p / 2 ^ 40 ≠ 0 || fld p 8 2 = 0
  || s.param 0x30 8 / 2 ^ 48 ≠ 0 || s.param 0x58 8 % 8 ≠ 0

/-- CREATE_QP (R247, R251): the lowest free number of 4,096. -/
def execCreateQp (s : State) : Answer :=
  s.runSub 0 0x60 8 s.qpBad (fun s =>
    match (List.range 4096).find? (fun n => !s.parlour.qps.any (fun q => q.num = n)) with
    | none => .done s 2 []
    | some n =>
      let w (o : Nat) : Word := BitVec.ofNat 64 (s.param o 8)
      let p := s.param 0x28 8
      let q : QueuePair :=
        { num := n, tenant := s.parlour.cmdTenant, sendVa := w 0x08, sendLen := s.param 0x10 2, compLen := s.param 0x12 2, compVa := w 0x18
          tailVa := w 0x20, port := p % 8, mtu := 512 * 2 ^ fld p 8 2, dest := fld p 16 24, sendPsn := s.param 0x30 3, recvPsn := s.param 0x33 3
          dgid := s.parlour.area.read (s.parlour.cmd 1 + 0x38) 16, sgid := s.parlour.area.read (s.parlour.cmd 1 + 0x48) 16, headVa := w 0x58 }
      .done { s with parlour := { s.parlour with qps := s.parlour.qps ++ [q] } } 0 (leBytesOf 8 n))

/-- DESTROY_QP (R251). -/
def execDestroyQp (s : State) : Answer :=
  s.runSub 1 16 0 (4096 ≤ s.param 8 8) (fun s =>
    let mine (q : QueuePair) : Bool := q.num = s.param 8 8 && q.tenant = s.parlour.cmdTenant
    if s.parlour.qps.any mine then .done { s with parlour := { s.parlour with qps := s.parlour.qps.filter (fun q => !mine q) } } 0 []
    else .done s 5 [])

/-- REG_REGION (R247, R251). -/
def execRegRegion (s : State) : Answer :=
  s.runSub 2 32 8 (s.param 8 8 % 4096 ≠ 0 || s.param 0x10 8 % 4096 ≠ 0 || 8 ≤ s.param 0x18 8) (fun s =>
    let k := s.parlour.nextRkey
    if 2 ^ 32 ≤ k then .done s 2 []
    else
      let r : RegRegion := { rkey := k, tenant := s.parlour.cmdTenant, va := BitVec.ofNat 64 (s.param 8 8)
                             len := BitVec.ofNat 64 (s.param 0x10 8), flags := BitVec.ofNat 3 (s.param 0x18 8) }
      .done { s with parlour := { s.parlour with regions := s.parlour.regions ++ [r], nextRkey := k + 1 } } 0 (leBytesOf 8 k))

/-- DEREG_REGION (R251). -/
def execDeregRegion (s : State) : Answer :=
  s.runSub 3 16 0 (2 ^ 32 ≤ s.param 8 8) (fun s =>
    let mine (r : RegRegion) : Bool := r.rkey = s.param 8 8 && r.tenant = s.parlour.cmdTenant
    if s.parlour.regions.any mine then .done { s with parlour := { s.parlour with regions := s.parlour.regions.filter (fun r => !mine r) } } 0 []
    else .done s 5 [])

/-! ## The logs -/

/-- The result of READ_LOG (R251): the health counters, the number of entries of each stack, and the entries. -/
def Parlour.logs (p : Parlour) : List Word :=
  let of (k : Nat) : List Word := (p.skimmer.filter (fun e => e.1 = k)).map (·.2)
  p.health.toList ++ (List.range 32).map (fun k => BitVec.ofNat 64 (of k).length) ++ (List.range 32).flatMap of

/-- READ_LOG (R251, R254): the counters and the logs are cleared once the result is written. -/
def execReadLog (s : State) : Answer :=
  let l := s.parlour.logs
  s.runCommand 0x0A 0 (8 * l.length) false false (fun s =>
    .done { s with parlour := { s.parlour with health := Vector.replicate 100 0#64, skimmer := [] } } 0 (l.flatMap (fun w => leBytesOf 8 w.toNat)))

end Sys2Proof.Machine
end

