-- ==== Sys2Proof/Machine/ScalarFp.lean ====
section
/-! DEFINITION. The meanings of the scalar FP32 instructions (R193, R194, R196, R198, R319 to R324). -/
namespace Sys2Proof.Machine

/-- The rounding mode that a rounding field selects: 7 is FRM (R194). -/
def Context.rounding (x : Context) (r : BitVec 3) : BitVec 3 := if r = 7#3 then x.frm else r

/-- The FP32 operand in the low word of a register (R193). -/
def Context.fw (x : Context) (n : BitVec 5) : Lane := (x.rg n).setWidth 32

/-- Write a word, OR the flags into FFLAGS and retire, under R34. -/
def State.fpWord (s : State) (d : BitVec 5) (f : FFlags) (v : Word) : State :=
  s.withDest d (fun s => (s.onCx (fun x => x.orFlags f)).finish d v 1)

/-- Write an FP32 result zero-extended, with its flags (R193, R319). -/
def State.fpResult (s : State) (d : BitVec 5) (o : FOut) : State := s.fpWord d o.f (o.v.setWidth 64)

/-- A result from two FP32 operands. -/
def State.fpBinary (s : State) (f : Lane → Lane → FOut) (d a b : BitVec 5) : State := s.fpResult d (f (s.cx.fw a) (s.cx.fw b))

/-- A comparison of two FP32 operands (R321). -/
def State.fpCompare (s : State) (p : Lane → Lane → Bool) (fl : Lane → Lane → FFlags) (d a b : BitVec 5) : State :=
  s.fpWord d (fl (s.cx.fw a) (s.cx.fw b)) (if p (s.cx.fw a) (s.cx.fw b) then 1#64 else 0#64)

/-- FADD (R319). -/
def execFadd (d a b r : BitVec 5) (s : State) : Answer := .next (s.fpBinary (fAdd (s.cx.rounding (r.setWidth 3))) d a b)

/-- FSUB (R319). -/
def execFsub (d a b r : BitVec 5) (s : State) : Answer := .next (s.fpBinary (fSub (s.cx.rounding (r.setWidth 3))) d a b)

/-- FMUL (R319). -/
def execFmul (d a b r : BitVec 5) (s : State) : Answer := .next (s.fpBinary (fMul (s.cx.rounding (r.setWidth 3))) d a b)

/-- FDIV (R319). -/
def execFdiv (d a b r : BitVec 5) (s : State) : Answer := .next (s.fpBinary (fDiv (s.cx.rounding (r.setWidth 3))) d a b)

/-- FSQRT (R319). -/
def execFsqrt (d a r : BitVec 5) (s : State) : Answer := .next (s.fpResult d (fSqrt (s.cx.rounding (r.setWidth 3)) (s.cx.fw a)))

/-- FMIN (R196, R324). -/
def execFmin (d a b : BitVec 5) (s : State) : Answer := .next (s.fpBinary fMin d a b)

/-- FMAX (R196, R324). -/
def execFmax (d a b : BitVec 5) (s : State) : Answer := .next (s.fpBinary fMax d a b)

/-- FEQ: NV only for a signalling NaN (R198, R321). -/
def execFeq (d a b : BitVec 5) (s : State) : Answer := .next (s.fpCompare fEqB (fun x y => sigFlag [x, y]) d a b)

/-- FLT: NV for any NaN (R198, R321). -/
def execFlt (d a b : BitVec 5) (s : State) : Answer := .next (s.fpCompare fLtB nanFlag d a b)

/-- FLE: NV for any NaN (R198, R321). -/
def execFle (d a b : BitVec 5) (s : State) : Answer := .next (s.fpCompare fLeB nanFlag d a b)

/-- FCVTIF (R198, R320). -/
def execFcvtif (d a r : BitVec 5) (s : State) : Answer := .next (s.fpResult d (intToF (s.cx.rounding (r.setWidth 3)) (s.cx.rg a).toInt))

/-- FCVTFI (R198, R320). -/
def execFcvtfi (d a r : BitVec 5) (s : State) : Answer := .next (s.fpWord d (fToInt (s.cx.rounding (r.setWidth 3)) 64 (s.cx.fw a)).2 (BitVec.ofInt 64 (fToInt (s.cx.rounding (r.setWidth 3)) 64 (s.cx.fw a)).1))

/-- FCLASS (R198): raises nothing. -/
def execFclass (d a : BitVec 5) (s : State) : Answer := .next (s.result d (BitVec.ofNat 64 (fClass (s.cx.fw a))))

/-- FFMA (R322). -/
def execFfma (d a b c : BitVec 5) (r : BitVec 3) (s : State) : Answer :=
  .next (s.fpResult d (fFma (s.cx.rounding r) (s.cx.fw a) (s.cx.fw b) (s.cx.fw c)))

end Sys2Proof.Machine
end

