-- ==== Sys2Proof/Machine/System.lean ====
section
/-! DEFINITION. The meanings of TRAP and BRK (R302), ERET (R314), RDSR and WRSR (R259, R260, R348, R377), IDLE (R331), SHOOT
(R151, R162, R163) and RESUME (R172). -/
namespace Sys2Proof.Machine

/-- TRAP (R302). -/
def execTrap (n : BitVec 8) (s : State) : Answer := .next (s.trap { cause := .trap, addr := n.setWidth 64 })

/-- BRK (R302). -/
def execBrk (n : BitVec 8) (s : State) : Answer := .next (s.trap { cause := .breakpoint, addr := n.setWidth 64 })

/-- ERET (R314): user mode for the rest of the activation. -/
def execEret (a : BitVec 5) (s : State) : Answer :=
  let t := s.cx.rg a
  .next (s.withPriv (fun s => s.withLog { type := 9, body := leBytesOf 4 (t - s.cx.pc).toNat } (fun s =>
    (s.onCx (fun x => { x with sup := false })).retireTo t)))

/-- IDLE (R331): the context waits once, and continues when an event of the core or the passing of 4,096 cycles readies it. -/
def execIdle (s : State) : Answer := .next (if s.cx.op.phase = 1 then s.retire 1 else s.await .idle false 1)

/-! ## Special registers -/

/-- How a special register may be accessed (R259). -/
inductive SrAccess where
  | ro | rw | sr | sv
  deriving DecidableEq, Repr

/-- The table of special registers (R259). -/
def srAccess (n : BitVec 8) : Option SrAccess :=
  match n.toNat with
  | 0x00 | 0x01 | 0x02 | 0x03 | 0x04 | 0x05 | 0x06 | 0x08 | 0x0D | 0x0E | 0x0F | 0x10 | 0x11 | 0x12 | 0x16 => some .ro
  | 0x09 | 0x0A | 0x0B | 0x0C | 0x13 | 0x14 | 0x15 => some .rw
  | 0x20 | 0x22 | 0x24 => some .sr
  | 0x21 | 0x23 | 0x25 | 0x26 | 0x27 => some .sv
  | _ => none

/-- The context whose fault registers the issuing context reads (R171). -/
def State.faultCx (s : State) : Context := s.me.faultCtx s.me.cur

/-- The HELD word (R260). -/
def State.heldWord (s : State) : Word := BitVec.ofNat 64 (s.me.outbox.length * 256 + s.heldNow.length)

/-- The value of a special register (R259, R260). -/
def State.readSpecial (s : State) (n : BitVec 8) : Word :=
  let t := s.ownerOf s.meId
  match n.toNat with
  | 0x00 => headerForm s.meId ||| BitVec.ofNat 64 ((if s.cx.sup then 256 else 0) + s.me.cur.toNat)
  | 0x01 => BitVec.ofNat 64 (t.elim 0 (·.id))
  | 0x02 => s.me.gangReg
  | 0x03 => s.me.grp[0] | 0x04 => s.me.grp[1] | 0x05 => s.me.grp[2] | 0x06 => s.me.grp[3]
  | 0x08 => s.cycle
  | 0x09 => s.cx.fflags.setWidth 64
  | 0x0A => s.cx.frm.setWidth 64
  | 0x0B => s.cx.scaleBase
  | 0x0C => s.cx.scaleOrg
  | 0x0D => s.faultCx.faultCause
  | 0x0E => s.faultCx.faultAddr
  | 0x0F => s.faultCx.faultPc
  | 0x10 => s.cx.unack.word
  | 0x11 => s.heldWord
  | 0x12 => s.me.ringNext
  | 0x13 => s.cx.waitlim
  | 0x14 => if s.cx.dzt then 1#64 else 0#64
  | 0x15 => s.cx.lgtbase
  | 0x16 => s.me.replays.setWidth 64
  | 0x20 => s.me.htbase
  | 0x21 => t.elim 0#64 (·.ptroot)
  | 0x22 => BitVec.ofNat 64 (t.elim 0 Tenant.vatRoot)
  | 0x23 => t.elim 0#64 (·.savebase)
  | 0x24 => BitVec.ofNat 64 (t.elim 0 Tenant.partMap)
  | 0x25 => t.elim 0#64 (·.faultq)
  | 0x26 => t.elim 0#64 (·.lgtempl)
  | 0x27 => t.elim 0#64 (·.pbudget)
  | _ => 0#64

/-- Whether a value sets only bits that the register has, within its fields' limits (R154, R169, R176, R194, R260, R261). -/
def srValueOk (n : BitVec 8) (v : Word) : Bool :=
  match n.toNat with
  | 0x09 => v.toNat < 32
  | 0x0A => v.toNat < 4
  | 0x14 => v.toNat < 2
  | 0x21 => v &&& ~~~0x000FFFFFFFFFF001#64 = 0#64
  | 0x23 => v &&& ~~~0x000FFFFFFFFE0001#64 = 0#64
  | 0x25 => v &&& ~~~0x000FFFFFFFFFF01F#64 = 0#64
  | 0x26 => v &&& ~~~0x000FFFFFFFFFFFC1#64 = 0#64
  | 0x27 => v.toNat ≤ 1000
  | _ => true

/-- Write a special register of the context, or of the tenant (R377). -/
def State.writeSpecial (s : State) (n : BitVec 8) (v : Word) : State :=
  let onT (f : Tenant → Tenant) : State := s.onTenant (s.tenantNo s.meId) f
  match n.toNat with
  | 0x09 => s.onCx (fun x => { x with fflags := v.setWidth 5 })
  | 0x0A => s.onCx (fun x => { x with frm := v.setWidth 3 })
  | 0x0B => s.onCx (fun x => { x with scaleBase := v })
  | 0x0C => s.onCx (fun x => { x with scaleOrg := v })
  | 0x13 => s.onCx (fun x => { x with waitlim := v })
  | 0x14 => s.onCx (fun x => { x with dzt := v.getLsbD 0 })
  | 0x15 => s.onCx (fun x => { x with lgtbase := v })
  | 0x21 => onT (fun t => { t with ptroot := v })
  | 0x23 => onT (fun t => { t with savebase := v })
  | 0x25 => onT (fun t => { t with faultq := v })
  | 0x26 => onT (fun t => { t with lgtempl := v })
  | 0x27 => onT (fun t => { t with pbudget := v })
  | _ => s

/-- Whether a register is supervisor's (R259). -/
def srPriv (n : BitVec 8) : Bool := 0x20 ≤ n.toNat && n.toNat ≤ 0x27

/-- Go on for a register of the table, once a supervisor register's mode is checked and FFLAGS has settled (R195, R259). -/
def State.withSpecial (s : State) (n : BitVec 8) (f : State → SrAccess → State) : State :=
  match srAccess n with
  | none => s.trapPlain .illegal
  | some a =>
    if srPriv n && !s.cx.sup then s.trapPlain .priv
    else if n = 9#8 && !s.cx.vq.isEmpty then s.await .vectorFlags false 0
    else f s a

/-- RDSR (R348). -/
def execRdsr (d : BitVec 5) (n : BitVec 8) (s : State) : Answer :=
  .next (s.withSpecial n (fun s _ => s.result d (s.readSpecial n)))

/-- WRSR (R377). -/
def execWrsr (a : BitVec 5) (n : BitVec 8) (s : State) : Answer :=
  let v := s.cx.rg a
  .next (s.withSpecial n (fun s k =>
    if k = .ro || k = .sr || !srValueOk n v then s.trapPlain .illegal else (s.writeSpecial n v).retire 1))

/-! ## SHOOT -/

/-- The translation homes of a tenant's dies that hold something or have a walk of the tenant to finish (R161, R162). -/
def State.shootHomes (s : State) (t : Tenant) : List CoreId :=
  let busy := s.net.filterMap (fun p => match p.body with
    | .xlateReq r _ va _ _ _ _ => some (xlateHome (dieOf r.core) va)
    | .walk r _ va _ _ _ _ => some (xlateHome (dieOf r.core) va)
    | _ => none)
  (distinct (s.thomes.map (·.1) ++ busy)).filter (fun h => t.dies.contains (dieOf h))

/-- The cores of a tenant that hold anything. -/
def State.busyCores (s : State) (t : Tenant) : List CoreId :=
  (s.allCores.map (·.1)).filter (fun c => s.present c && t.clusters.contains (clusterOf c))

/-- Ask some slices or cores for a SHOOT. -/
def State.shootAsk (s : State) (core : Bool) (asked : List CoreId) (tn : Nat) (all : Bool) (va lg : Nat) (r : Req) : State :=
  asked.foldl (fun s d => s.sendPacket 0#2 r.pri (.shootReq d core tn all va lg r)) s

/-- Send the requests of a SHOOT (R151, R162): to the homes, and once they have acted to the cores; `aux` counts the acknowledgements that
are still to come. -/
def State.shootSend (s : State) (t : Tenant) (all : Bool) (va lg : Nat) : State :=
  let homes := s.shootHomes t
  let asked := if homes.isEmpty then s.busyCores t else homes
  (s.shootAsk homes.isEmpty asked t.id all va lg (s.reqOf s.meId s.me.cur)).onCx (fun x =>
    { x with op := { x.op with aux := asked.length, result := some (BitVec.ofNat 64 (s.presentCount t)) } })

/-- SHOOT of a range or of everything (R162): the release, the requests, and the last acknowledgement. -/
def State.shoot (s : State) (d : BitVec 5) (all : Bool) (va lg : Nat) : State :=
  s.withPriv (fun s => s.withDest d (fun s =>
    if !all && inWindow va then s.trapPlain .illegal
    else if s.cx.op.phase = 9 then
      (if s.cx.op.aux = 0 then s.finish d (s.cx.op.result.getD 0#64) 1 else s.await .shoot false 9)
    else s.withRelease 2#2 1 (fun s =>
      match s.ownerOf s.meId with
      | none => s.finish d 0#64 1
      | some t => (s.shootSend t all (va / 2 ^ lg * 2 ^ lg) lg).await .shoot false 9)))

/-- The log of the size that a SHOOT names (R162). -/
def shootLg (z : BitVec 2) : Nat := match z.toNat with | 0 => 12 | 1 => 16 | 2 => 21 | _ => 30

/-- SHOOT (R162). -/
def execShoot (d a : BitVec 5) (z : BitVec 2) (s : State) : Answer :=
  .next (s.shoot d false (addrOf (s.cx.rg a) 0#64) (shootLg z))

/-- SHOOT of every translation (R162). -/
def execShootAll (d : BitVec 5) (z : BitVec 2) (s : State) : Answer := .next (s.shoot d true 0 (shootLg z))

/-! ## RESUME -/

/-- RESUME (R172): k = 1 skips the parked instruction, k = 0 retries it with a full WAITLIM. -/
def execResume (d a : BitVec 5) (k : BitVec 1) (s : State) : Answer :=
  let c := s.cx.rg a
  .next (
    if s.me.cur ≠ 3#2 || 2 < c.toNat then s.trapPlain .illegal
    else s.withDest d (fun s =>
      let j : CtxId := BitVec.ofNat 2 c.toNat
      if (s.me.ctx j).st ≠ .parked then s.finish d 1#64 1
      else
        (s.onCtx s.meId j (fun x =>
          { x with st := .ready, op := {}, pc := if k = 1#1 then x.pc + BitVec.ofNat 64 x.width else x.pc })).finish d 0#64 1))

end Sys2Proof.Machine
end

