-- ==== Sys2Proof/Machine/TranslationEvents.lean ====
section
/-! DEFINITION. The translation service's steps: requests and walks at a translation home (R156 to R161, R382), answers at the core
(R160, R288, R345), and shootdowns with their acknowledgements (R151, R162, R163). -/
namespace Sys2Proof.Machine

/-- The access that a request is checked as: a prefetch is checked as a read (R345). -/
def checkedAs (k : Access) (pref : Bool) : Access := if pref then .read else k

/-- What a prefetch takes from an answer: a leaf that passes, and for a write one with W = 1; otherwise nothing (R345). -/
def prefAnswer (k : Access) (pref : Bool) (a : XlAnswer) : XlAnswer :=
  if pref then
    match a with
    | .leaf e => if k = .write && !e.w then .nothing else a
    | _ => .nothing
  else a

/-- The walks that a translation home has in flight (R161). -/
def State.walksAt (s : State) (home : CoreId) : Nat :=
  (s.net.filter (fun p => match p.body with
    | .walk r _ va _ _ _ _ => xlateHome (dieOf r.core) va = home
    | _ => false)).length

/-- TRANSLATION_REQUEST (R158, R161): a hit answers at once, and a miss starts one of up to 8 walks. -/
def execTranslationRequest (s : State) : Answer :=
  s.withPicked (fun p => match p.body with
    | .xlateReq r tn va k user pref once =>
      match s.tenant tn with
      | none => s.dropPacket p.id
      | some t =>
        let home := xlateHome (dieOf r.core) va
        match (s.thome home).hit t va (checkedAs k pref) user with
        | some a => (s.dropPacket p.id).sendOn p 1#2 (.xlateAns r va k pref once (prefAnswer k pref a))
        | none =>
          if 8 ≤ s.walksAt home then s
          else (s.dropPacket p.id).sendOn p 0#2 (.walk r tn va k user pref once)
    | _ => s)

/-- Whether an earlier walk for the same page is in flight at the same home (R161). -/
def State.walkAhead (s : State) (id : Nat) (r : Req) (tn va : Nat) : Bool :=
  s.net.any (fun p => p.id < id && (match p.body with
    | .walk r' tn' va' _ _ _ _ => tn' = tn && va' / 2 ^ 12 = va / 2 ^ 12 && dieOf r'.core = dieOf r.core
    | _ => false))

/-- PAGE_WALK (R156, R158, R159, R287, R382): in arrival order for each page, after the drains that its reads meet. -/
def execPageWalk (s : State) : Answer :=
  s.withPicked (fun p => match p.body with
    | .walk r tn va k user pref once =>
      match s.tenant tn with
      | none => s.dropPacket p.id
      | some t =>
        if s.walkAhead p.id r tn va then s
        else match s.walkBlock t (xlateHome (dieOf r.core) va) va with
        | some (slice, st) => s.askDrain slice st (scopeOf st.core (xlateHome (dieOf r.core) va)) false
        | none =>
          let (s1, a) := (s.dropPacket p.id).walkAt t (xlateHome (dieOf r.core) va) va (checkedAs k pref) user pref (k = .write) once
          s1.sendOn p 1#2 (.xlateAns r va k pref once (prefAnswer k pref a))
    | _ => s)

/-- Ask for the fill of a core's prefetch whose answer has come, unless the byte asked for is valid in L1 (R345). -/
def State.prefetchFor (s : State) (p : Packet) (r : Req) (xl : Xl) (va : Nat) : State :=
  if ((s.core r.core).l1Line? xl.pa).any (fun l => l.valid.getLsbD (xl.pa % 64)) then s
  else s.sendOn p 0#2 (.fill { r with bg := true } xl va false false)

/-- Install an answered leaf at the core (R160, R287), unless a SHOOT has overtaken it (R163). -/
def State.installSteer (s : State) (core : CoreId) (once : Bool) (e : PageEntry) : State :=
  if once then s else s.onCore core (fun c => (c.putSteer e).putVat e.vat)

/-- TRANSLATION_ANSWER (R160, R163, R288, R345, R382); what waited for the miss in its context goes on. -/
def execTranslationAnswer (s : State) : Answer :=
  s.withPicked (fun p => match p.body with
    | .xlateAns r va k pref once a =>
      let s1 := (s.dropPacket p.id).wake r.core (fun w => w == WaitKind.counters)
      let bad (i : TrapInfo) : State := s1.answer r (fun o => { o with fault := some i })
      match a with
      | .leaf e =>
        let s2 := s1.installSteer r.core once e
        if pref then s2.prefetchFor p r (e.xl va) va
        else s2.answer r (fun o => { o with leaf := some e })
      | .fault c l => bad (faultAt c va k l)
      | .poison l => bad (faultAt .uncorrectable va k l)
      | .nothing => s1
    | _ => s)

/-! ## Shootdowns -/

/-- Whether a virtual address lies in the range of a shootdown. -/
def shootHit (all : Bool) (lo lg va : Nat) : Bool := all || (lo ≤ va && va < lo + 2 ^ lg)

/-- Whether an entry overlaps the range of a shootdown. -/
def PageEntry.shot (e : PageEntry) (tn : Nat) (all : Bool) (lo lg : Nat) : Bool := e.tenant = tn && (all || e.overlaps lo (2 ^ lg))

/-- Whether a walk-cache entry's prefix covers part of the range. -/
def WalkEntry.shot (w : WalkEntry) (tn : Nat) (all : Bool) (lo lg : Nat) : Bool :=
  let size := 2 ^ (12 + 9 * (w.level - 1))
  w.tenant = tn && (all || (w.pfx * size < lo + 2 ^ lg && lo < w.pfx * size + size))

/-- A request, walk or answer in flight that the range covers is used once and not installed (R163). -/
def onceBody (tn : Nat) (all : Bool) (lo lg : Nat) (mine : Req → Nat → Bool) (tenantOf : CoreId → Nat) : Body → Body
  | .xlateReq r t va k u p o => .xlateReq r t va k u p (o || (t = tn && mine r va && shootHit all lo lg va))
  | .walk r t va k u p o => .walk r t va k u p (o || (t = tn && mine r va && shootHit all lo lg va))
  | .xlateAns r va k p o a => .xlateAns r va k p (o || (tenantOf r.core = tn && mine r va && shootHit all lo lg va)) a
  | b => b

/-- A shootdown at a translation home (R162, R163). -/
def State.shootHome (s : State) (home : CoreId) (tn : Nat) (all : Bool) (lo lg : Nat) : State :=
  let s1 := s.onTHome home (fun h =>
    { h with leaves := h.leaves.filter (fun e => !e.shot tn all lo lg), walks := h.walks.filter (fun w => !w.shot tn all lo lg) })
  { s1 with net := s1.net.map (fun p =>
      { p with body := onceBody tn all lo lg (fun r va => xlateHome (dieOf r.core) va = home) s.tenantNo p.body }) }

/-- The request under which a core's write-backs for a SHOOT are counted (R134). DESIGN CHOICE: the issuer's own at its core, and
the background's at every other core, where no context has caused them (log entry 101). -/
def shootAs (core : CoreId) (issuer : Req) : Req := if core = issuer.core then issuer else bgReq core

/-- A core drops its steer entries for the range, and writes back and invalidates the lines filled through them (R151), when its counters have room
(R134). -/
def State.shootCore (s : State) (core : CoreId) (tn : Nat) (all : Bool) (lo lg : Nat) (issuer : Req) : State :=
  let s1 := s.onCore core (fun c => { c with steer := c.steer.filter (fun e => !e.shot tn all lo lg) })
  if s1.roomFor (shootAs core issuer) (fun l => shootHit all lo lg l.va) none then
    s1.l1Flush (shootAs core issuer) (fun l => shootHit all lo lg l.va)
  else s1

/-- Whether a context still has an access of its own to perform through the old translation (R163). -/
def Context.usesOld (x : Context) (tn : Nat) (all : Bool) (lo lg : Nat) : Bool :=
  let held := x.op.leaf.any (fun e => e.shot tn all lo lg)
  let soon := match x.st, x.op.wait with
    | .ready, _ => true
    | .waiting, .translation | .waiting, .fetch | .waiting, .fill | .waiting, .reply | .waiting, .counters | .waiting, .lag
    | .waiting, .engineQueue => true
    | _, _ => false
  (held && soon) || !x.rel.isEmpty
    || (x.mq ++ x.vq).any (fun q => q.chunks.any (fun c => match c.1 with | .paged _ => true | _ => false)
        || q.scales.any (fun c => match c.2 with | .paged _ => true | _ => false))

/-- Whether a packet is a context's access that its home has still to perform and that no counter holds: a fill, a load of host memory, an
atomic that returns, or an address wait (R163). -/
def Packet.reads (core : CoreId) (k : CtxId) (p : Packet) : Bool :=
  match p.body with
  | .fill r _ _ _ _ | .hostRead r _ _ | .atomicAns r .. | .atomic r _ _ _ _ _ _ true _ _ _ => r.core = core && r.ctx = k
  | .waitReq e => e.req.core = core && e.req.ctx = k
  | _ => false

/-- Whether a packet brings a context the old translation, by which its access or its prefetch goes once (R163, R345). -/
def Packet.bringsOld (core : CoreId) (k : CtxId) (tn : Nat) (all : Bool) (lo lg : Nat) (p : Packet) : Bool :=
  match p.body with
  | .xlateAns r _ _ _ _ (.leaf e) => r.core = core && r.ctx = k && e.shot tn all lo lg
  | _ => false

/-- Whether a core may acknowledge (R151, R163): its counters are zero and no access of its own goes by the old translation. -/
def State.shootReady (s : State) (core : CoreId) (issuer : Req) (tn : Nat) (all : Bool) (lo lg : Nat) : Bool :=
  let c := s.core core
  c.drained 3#2 && c.l1.all (fun l => !shootHit all lo lg l.va) && allCtx.all (fun k =>
    (core = issuer.core && k = issuer.ctx) || !((c.ctx k).usesOld tn all lo lg || s.net.any (fun p => p.reads core k || p.bringsOld core k tn all lo lg)))

/-- Whether some translation home has still to act on the same SHOOT. -/
def State.shootPending (s : State) (issuer : Req) : Bool :=
  s.net.any (fun p => match p.body with
    | .shootReq _ false _ _ _ _ i => i = issuer
    | _ => false)

/-- Once the last translation home has acted on a SHOOT, the cores that may hold the old translation are asked (R151, R162). -/
def State.shootCores (s : State) (tn : Nat) (all : Bool) (lo lg : Nat) (issuer : Req) : State :=
  match s.tenant tn with
  | none => s
  | some t =>
    if s.shootPending issuer then s
    else
      let asked := s.busyCores t
      (s.shootAsk true asked tn all lo lg issuer).onCtx issuer.core issuer.ctx (fun x =>
        if x.act.serial = issuer.serial then { x with op := { x.op with aux := x.op.aux + asked.length } } else x)

/-- SHOOTDOWN_REQUEST (R151, R162, R163). -/
def execShootdownRequest (s : State) : Answer :=
  s.withPicked (fun p => match p.body with
    | .shootReq dst core tn all lo lg issuer =>
      let ack (s : State) : State := (s.dropPacket p.id).sendPacket 1#2 p.pri (.shootAck issuer)
      if !core then (ack (s.shootHome dst tn all lo lg)).shootCores tn all lo lg issuer
      else if !s.present dst then ack s
      else
        let s1 := s.shootCore dst tn all lo lg issuer
        if s1.shootReady dst issuer tn all lo lg then ack s1 else s1
    | _ => s)

/-- SHOOTDOWN_ACK (R162). -/
def execShootdownAck (s : State) : Answer :=
  s.withPicked (fun p => match p.body with
    | .shootAck issuer => (s.dropPacket p.id).answer issuer (fun o => { o with aux := o.aux - 1 })
    | _ => s)

end Sys2Proof.Machine
end

