-- ==== Sys2Proof/Machine/Dispatch.lean ====
section
/-! DEFINITION. The dispatch of every instruction and event to its meaning. -/
namespace Sys2Proof.Machine

/-- The meaning of each instruction and event. -/
def exec (i : Instr) (s : State) : Host.Outcome State Fault Refusal :=
  match i with
  | .add d a b => Sys2Proof.Machine.execAdd d a b s
  | .sub d a b => Sys2Proof.Machine.execSub d a b s
  | .and d a b => Sys2Proof.Machine.execAnd d a b s
  | .or d a b => Sys2Proof.Machine.execOr d a b s
  | .xor d a b => Sys2Proof.Machine.execXor d a b s
  | .shl d a b => Sys2Proof.Machine.execShl d a b s
  | .shr d a b => Sys2Proof.Machine.execShr d a b s
  | .sar d a b => Sys2Proof.Machine.execSar d a b s
  | .rotr d a b => Sys2Proof.Machine.execRotr d a b s
  | .slt d a b => Sys2Proof.Machine.execSlt d a b s
  | .sltu d a b => Sys2Proof.Machine.execSltu d a b s
  | .min d a b => Sys2Proof.Machine.execMin d a b s
  | .max d a b => Sys2Proof.Machine.execMax d a b s
  | .minu d a b => Sys2Proof.Machine.execMinu d a b s
  | .maxu d a b => Sys2Proof.Machine.execMaxu d a b s
  | .addw d a b => Sys2Proof.Machine.execAddw d a b s
  | .subw d a b => Sys2Proof.Machine.execSubw d a b s
  | .addi d a imm => Sys2Proof.Machine.execAddi d a imm s
  | .andi d a imm => Sys2Proof.Machine.execAndi d a imm s
  | .ori d a imm => Sys2Proof.Machine.execOri d a imm s
  | .xori d a imm => Sys2Proof.Machine.execXori d a imm s
  | .slti d a imm => Sys2Proof.Machine.execSlti d a imm s
  | .sltiu d a imm => Sys2Proof.Machine.execSltiu d a imm s
  | .shli d a sh => Sys2Proof.Machine.execShli d a sh s
  | .shri d a sh => Sys2Proof.Machine.execShri d a sh s
  | .sari d a sh => Sys2Proof.Machine.execSari d a sh s
  | .rotri d a sh => Sys2Proof.Machine.execRotri d a sh s
  | .lih d imm => Sys2Proof.Machine.execLih d imm s
  | .liw d imm => Sys2Proof.Machine.execLiw d imm s
  | .mul d a b => Sys2Proof.Machine.execMul d a b s
  | .mulh d a b => Sys2Proof.Machine.execMulh d a b s
  | .mulhu d a b => Sys2Proof.Machine.execMulhu d a b s
  | .div d a b => Sys2Proof.Machine.execDiv d a b s
  | .divu d a b => Sys2Proof.Machine.execDivu d a b s
  | .rem d a b => Sys2Proof.Machine.execRem d a b s
  | .remu d a b => Sys2Proof.Machine.execRemu d a b s
  | .clz d a => Sys2Proof.Machine.execClz d a s
  | .ctz d a => Sys2Proof.Machine.execCtz d a s
  | .popc d a => Sys2Proof.Machine.execPopc d a s
  | .sext d a w => Sys2Proof.Machine.execSext d a w s
  | .zext d a w => Sys2Proof.Machine.execZext d a w s
  | .bext d a b => Sys2Proof.Machine.execBext d a b s
  | .bins d a b => Sys2Proof.Machine.execBins d a b s
  | .fadd d a b r => Sys2Proof.Machine.execFadd d a b r s
  | .fsub d a b r => Sys2Proof.Machine.execFsub d a b r s
  | .fmul d a b r => Sys2Proof.Machine.execFmul d a b r s
  | .fdiv d a b r => Sys2Proof.Machine.execFdiv d a b r s
  | .fsqrt d a r => Sys2Proof.Machine.execFsqrt d a r s
  | .fmin d a b => Sys2Proof.Machine.execFmin d a b s
  | .fmax d a b => Sys2Proof.Machine.execFmax d a b s
  | .feq d a b => Sys2Proof.Machine.execFeq d a b s
  | .flt d a b => Sys2Proof.Machine.execFlt d a b s
  | .fle d a b => Sys2Proof.Machine.execFle d a b s
  | .fcvtif d a r => Sys2Proof.Machine.execFcvtif d a r s
  | .fcvtfi d a r => Sys2Proof.Machine.execFcvtfi d a r s
  | .fclass d a => Sys2Proof.Machine.execFclass d a s
  | .ffma d a b c r => Sys2Proof.Machine.execFfma d a b c r s
  | .beq a b o => Sys2Proof.Machine.execBeq a b o s
  | .bne a b o => Sys2Proof.Machine.execBne a b o s
  | .blt a b o => Sys2Proof.Machine.execBlt a b o s
  | .bge a b o => Sys2Proof.Machine.execBge a b o s
  | .bltu a b o => Sys2Proof.Machine.execBltu a b o s
  | .bgeu a b o => Sys2Proof.Machine.execBgeu a b o s
  | .jmp o => Sys2Proof.Machine.execJmp o s
  | .jal o => Sys2Proof.Machine.execJal o s
  | .jr a => Sys2Proof.Machine.execJr a s
  | .jalr d a => Sys2Proof.Machine.execJalr d a s
  | .ld d a imm sc z o => Sys2Proof.Machine.execLd d a imm sc z o s
  | .lds d a imm sc z o => Sys2Proof.Machine.execLds d a imm sc z o s
  | .st v a imm sc z o => Sys2Proof.Machine.execSt v a imm sc z o s
  | .amoadd d a b sc z o => Sys2Proof.Machine.execAmoadd d a b sc z o s
  | .amoswp d a b sc z o => Sys2Proof.Machine.execAmoswp d a b sc z o s
  | .amoand d a b sc z o => Sys2Proof.Machine.execAmoand d a b sc z o s
  | .amoor d a b sc z o => Sys2Proof.Machine.execAmoor d a b sc z o s
  | .amoxor d a b sc z o => Sys2Proof.Machine.execAmoxor d a b sc z o s
  | .amomin d a b sc z o => Sys2Proof.Machine.execAmomin d a b sc z o s
  | .amomax d a b sc z o => Sys2Proof.Machine.execAmomax d a b sc z o s
  | .amominu d a b sc z o => Sys2Proof.Machine.execAmominu d a b sc z o s
  | .amomaxu d a b sc z o => Sys2Proof.Machine.execAmomaxu d a b sc z o s
  | .amofadd d a b sc z o => Sys2Proof.Machine.execAmofadd d a b sc z o s
  | .amofmin d a b sc z o => Sys2Proof.Machine.execAmofmin d a b sc z o s
  | .amofmax d a b sc z o => Sys2Proof.Machine.execAmofmax d a b sc z o s
  | .amocas d a b sc z o => Sys2Proof.Machine.execAmocas d a b sc z o s
  | .fence e sc => Sys2Proof.Machine.execFence e sc s
  | .flush a => Sys2Proof.Machine.execFlush a s
  | .inval a => Sys2Proof.Machine.execInval a s
  | .pref a w => Sys2Proof.Machine.execPref a w s
  | .pin d a b => Sys2Proof.Machine.execPin d a b s
  | .unpin d a b => Sys2Proof.Machine.execUnpin d a b s
  | .sflush a => Sys2Proof.Machine.execSflush a s
  | .waita d a b c z p => Sys2Proof.Machine.execWaita d a b c z p s
  | .send a b => Sys2Proof.Machine.execSend a b s
  | .mcast a b slot => Sys2Proof.Machine.execMcast a b slot s
  | .spawn d a b => Sys2Proof.Machine.execSpawn d a b s
  | .aq d a b => Sys2Proof.Machine.execAq d a b s
  | .launch a b => Sys2Proof.Machine.execLaunch a b s
  | .cntset a b c => Sys2Proof.Machine.execCntset a b c s
  | .cntadd d a c => Sys2Proof.Machine.execCntadd d a c s
  | .cntwait d c => Sys2Proof.Machine.execCntwait d c s
  | .exit => Sys2Proof.Machine.execExit s
  | .contain => Sys2Proof.Machine.execContain s
  | .yield => Sys2Proof.Machine.execYield s
  | .gbar d slot => Sys2Proof.Machine.execGbar d slot s
  | .gred d a op slot => Sys2Proof.Machine.execGred d a op slot s
  | .qwait q a d imm => Sys2Proof.Machine.execQwait q a d imm s
  | .qfree q a d imm => Sys2Proof.Machine.execQfree q a d imm s
  | .qadv q a imm => Sys2Proof.Machine.execQadv q a imm s
  | .qstat q d => Sys2Proof.Machine.execQstat q d s
  | .qclose q => Sys2Proof.Machine.execQclose q s
  | .trap n => Sys2Proof.Machine.execTrap n s
  | .eret a => Sys2Proof.Machine.execEret a s
  | .rdsr d n => Sys2Proof.Machine.execRdsr d n s
  | .wrsr a n => Sys2Proof.Machine.execWrsr a n s
  | .idle => Sys2Proof.Machine.execIdle s
  | .brk n => Sys2Proof.Machine.execBrk n s
  | .shoot d a z => Sys2Proof.Machine.execShoot d a z s
  | .shootAll d z => Sys2Proof.Machine.execShootAll d z s
  | .vatcfgDefine d a => Sys2Proof.Machine.execVatcfgDefine d a s
  | .vatcfgResize d a => Sys2Proof.Machine.execVatcfgResize d a s
  | .vatcfgRetire d a => Sys2Proof.Machine.execVatcfgRetire d a s
  | .lgbindBind d a => Sys2Proof.Machine.execLgbindBind d a s
  | .lgbindUnbind d a => Sys2Proof.Machine.execLgbindUnbind d a s
  | .grpcfg d a slot => Sys2Proof.Machine.execGrpcfg d a slot s
  | .resume d a k => Sys2Proof.Machine.execResume d a k s
  | .lgnext d => Sys2Proof.Machine.execLgnext d s
  | .lgverd d a b => Sys2Proof.Machine.execLgverd d a b s
  | .lgstat d n => Sys2Proof.Machine.execLgstat d n s
  | .tld t r a imm c => Sys2Proof.Machine.execTld t r a imm c s
  | .tldPipe t r q imm => Sys2Proof.Machine.execTldPipe t r q imm s
  | .tst t r a imm c => Sys2Proof.Machine.execTst t r a imm c s
  | .tstPipe t r q imm => Sys2Proof.Machine.execTstPipe t r q imm s
  | .vadd d a b r m => Sys2Proof.Machine.execVadd d a b r m s
  | .vsub d a b r m => Sys2Proof.Machine.execVsub d a b r m s
  | .vmul d a b r m => Sys2Proof.Machine.execVmul d a b r m s
  | .vfma d a b r m => Sys2Proof.Machine.execVfma d a b r m s
  | .vmin d a b r m => Sys2Proof.Machine.execVmin d a b r m s
  | .vmax d a b r m => Sys2Proof.Machine.execVmax d a b r m s
  | .vabs d a r m => Sys2Proof.Machine.execVabs d a r m s
  | .vneg d a r m => Sys2Proof.Machine.execVneg d a r m s
  | .vdiv d a b r m => Sys2Proof.Machine.execVdiv d a b r m s
  | .vrsqrt d a r m => Sys2Proof.Machine.execVrsqrt d a r m s
  | .vexp2 d a r m => Sys2Proof.Machine.execVexp2 d a r m s
  | .vlog2 d a r m => Sys2Proof.Machine.execVlog2 d a r m s
  | .vcmp a b r m k c => Sys2Proof.Machine.execVcmp a b r m k c s
  | .vsel d a b r sv => Sys2Proof.Machine.execVsel d a b r sv s
  | .vredsum d a r m => Sys2Proof.Machine.execVredsum d a r m s
  | .vredmax d a r m => Sys2Proof.Machine.execVredmax d a r m s
  | .vshuf d a b r m => Sys2Proof.Machine.execVshuf d a b r m s
  | .viadd d a b r m => Sys2Proof.Machine.execViadd d a b r m s
  | .vimul d a b r m => Sys2Proof.Machine.execVimul d a b r m s
  | .vlogic d a b r m o => Sys2Proof.Machine.execVlogic d a b r m o s
  | .vshift d a b r m o => Sys2Proof.Machine.execVshift d a b r m o s
  | .vcvt d a r m k => Sys2Proof.Machine.execVcvt d a r m k s
  | .venc d a r m f => Sys2Proof.Machine.execVenc d a r m f s
  | .vdec d a r m f => Sys2Proof.Machine.execVdec d a r m f s
  | .tmov d a r m => Sys2Proof.Machine.execTmov d a r m s
  | .tzero d r => Sys2Proof.Machine.execTzero d r s
  | .tbcast d r m sv => Sys2Proof.Machine.execTbcast d r m sv s
  | .text a r sv => Sys2Proof.Machine.execText a r sv s
  | .mma t a l z stride => Sys2Proof.Machine.execMma t a l z stride s
  | .mmas t a b l z stride => Sys2Proof.Machine.execMmas t a b l z stride s
  | .mmai t a l z stride => Sys2Proof.Machine.execMmai t a l z stride s
  | .bld a l stride => Sys2Proof.Machine.execBld a l stride s
  | .brot l nf c => Sys2Proof.Machine.execBrot l nf c s
  | .tblld a sat nan => Sys2Proof.Machine.execTblld a sat nan s
  | .ntblld a => Sys2Proof.Machine.execNtblld a s
  | .cpy n a b nf len => Sys2Proof.Machine.execCpy n a b nf len s
  | .cpys n a b nf rows bytes => Sys2Proof.Machine.execCpys n a b nf rows bytes s
  | .cpyg n a b nf lg count => Sys2Proof.Machine.execCpyg n a b nf lg count s
  | .gacc d r a => Sys2Proof.Machine.execGacc d r a s
  | .gelim d sv r a => Sys2Proof.Machine.execGelim d sv r a s
  | .gdamp d sv r m a => Sys2Proof.Machine.execGdamp d sv r m a s
  | .gpack d r a => Sys2Proof.Machine.execGpack d r a s
  | .gunpk d r a => Sys2Proof.Machine.execGunpk d r a s
  | .ewait e => Sys2Proof.Machine.execEwait e s
  | .estat d e => Sys2Proof.Machine.execEstat d e s
  | .handlerMessage => Sys2Proof.Machine.execHandlerMessage s
  | .depositMessage => Sys2Proof.Machine.execDepositMessage s
  | .messageAcceptance => Sys2Proof.Machine.execMessageAcceptance s
  | .messageRefusal => Sys2Proof.Machine.execMessageRefusal s
  | .refusalBackoffExpiry core slot dst => Sys2Proof.Machine.execRefusalBackoffExpiry core slot dst s
  | .spawnRequest => Sys2Proof.Machine.execSpawnRequest s
  | .spawnAnswer => Sys2Proof.Machine.execSpawnAnswer s
  | .aqRequest => Sys2Proof.Machine.execAqRequest s
  | .aqAnswer => Sys2Proof.Machine.execAqAnswer s
  | .copyNotice => Sys2Proof.Machine.execCopyNotice s
  | .latchArrival => Sys2Proof.Machine.execLatchArrival s
  | .windowAccess => Sys2Proof.Machine.execWindowAccess s
  | .atomicAtHome => Sys2Proof.Machine.execAtomicAtHome s
  | .writeAtHome => Sys2Proof.Machine.execWriteAtHome s
  | .lineFill => Sys2Proof.Machine.execLineFill s
  | .writeAcknowledgement => Sys2Proof.Machine.execWriteAcknowledgement s
  | .releaseComplete core ctx => Sys2Proof.Machine.execReleaseComplete core ctx s
  | .stampDrain => Sys2Proof.Machine.execStampDrain s
  | .lifeguardVerdict => Sys2Proof.Machine.execLifeguardVerdict s
  | .logDeferredTrapRecord core => Sys2Proof.Machine.execLogDeferredTrapRecord core s
  | .pipeFarEndUpdate => Sys2Proof.Machine.execPipeFarEndUpdate s
  | .pipeDeparture => Sys2Proof.Machine.execPipeDeparture s
  | .groupArrival => Sys2Proof.Machine.execGroupArrival s
  | .groupEpisodeComplete => Sys2Proof.Machine.execGroupEpisodeComplete s
  | .waitlimExpiry core ctx => Sys2Proof.Machine.execWaitlimExpiry core ctx s
  | .idleExpiry core ctx => Sys2Proof.Machine.execIdleExpiry core ctx s
  | .dispatcherScan core => Sys2Proof.Machine.execDispatcherScan core s
  | .serviceAdmission core => Sys2Proof.Machine.execServiceAdmission core s
  | .pailCleared core pail => Sys2Proof.Machine.execPailCleared core pail s
  | .matrixCommandDone core ctx how => Sys2Proof.Machine.execMatrixCommandDone core ctx how s
  | .vectorCommandDone core ctx faulted => Sys2Proof.Machine.execVectorCommandDone core ctx faulted s
  | .copyCommandDone core ctx => Sys2Proof.Machine.execCopyCommandDone core ctx s
  | .copyHandback core ctx => Sys2Proof.Machine.execCopyHandback core ctx s
  | .translationRequest => Sys2Proof.Machine.execTranslationRequest s
  | .pageWalk => Sys2Proof.Machine.execPageWalk s
  | .translationAnswer => Sys2Proof.Machine.execTranslationAnswer s
  | .shootdownRequest => Sys2Proof.Machine.execShootdownRequest s
  | .shootdownAck => Sys2Proof.Machine.execShootdownAck s
  | .vatResizeSweep tenant vat slice => Sys2Proof.Machine.execVatResizeSweep tenant vat slice s
  | .dualProbe tenant vat pa => Sys2Proof.Machine.execDualProbe tenant vat pa s
  | .lineMove tenant vat pa => Sys2Proof.Machine.execLineMove tenant vat pa s
  | .vatcfgCompletion tenant vat => Sys2Proof.Machine.execVatcfgCompletion tenant vat s
  | .shareOffline tenant vat share => Sys2Proof.Machine.execShareOffline tenant vat share s
  | .eccCorrected place => Sys2Proof.Machine.execEccCorrected place s
  | .uncorrectableError place => Sys2Proof.Machine.execUncorrectableError place s
  | .timingReplay core again => Sys2Proof.Machine.execTimingReplay core again s
  | .heartbeatTimeout core => Sys2Proof.Machine.execHeartbeatTimeout core s
  | .memberLoss core => Sys2Proof.Machine.execMemberLoss core s
  | .suspectSelfTest core => Sys2Proof.Machine.execSuspectSelfTest core s
  | .launchDoorbell tenant value => Sys2Proof.Machine.execLaunchDoorbell tenant value s
  | .launchPost => Sys2Proof.Machine.execLaunchPost s
  | .launchNotice => Sys2Proof.Machine.execLaunchNotice s
  | .gangPlacement tenant => Sys2Proof.Machine.execGangPlacement tenant s
  | .gangStart gang => Sys2Proof.Machine.execGangStart gang s
  | .gangCompletion gang => Sys2Proof.Machine.execGangCompletion gang s
  | .deadlineExpiry tenant rec => Sys2Proof.Machine.execDeadlineExpiry tenant rec s
  | .preemptStarvation tenant => Sys2Proof.Machine.execPreemptStarvation tenant s
  | .preemptBudgetExpiry gang => Sys2Proof.Machine.execPreemptBudgetExpiry gang s
  | .memberSave core => Sys2Proof.Machine.execMemberSave core s
  | .gangRestore gang => Sys2Proof.Machine.execGangRestore gang s
  | .faultRecord tenant => Sys2Proof.Machine.execFaultRecord tenant s
  | .packetEscape => Sys2Proof.Machine.execPacketEscape s
  | .packetAgeSaturation => Sys2Proof.Machine.execPacketAgeSaturation s
  | .hostWindowRead tenant off size => Sys2Proof.Machine.execHostWindowRead tenant off size s
  | .hostWindowWrite tenant off data => Sys2Proof.Machine.execHostWindowWrite tenant off data s
  | .hostWriteFlushComplete port => Sys2Proof.Machine.execHostWriteFlushComplete port s
  | .hostReadTimeout => Sys2Proof.Machine.execHostReadTimeout s
  | .hostLinkDown port => Sys2Proof.Machine.execHostLinkDown port s
  | .blulinInboundRequest src srcTenant tenant op pa => Sys2Proof.Machine.execBlulinInboundRequest src srcTenant tenant op pa s
  | .blulinPeerTimeout port => Sys2Proof.Machine.execBlulinPeerTimeout port s
  | .qpTailPoll qp => Sys2Proof.Machine.execQpTailPoll qp s
  | .qpWorkCompletion qp status => Sys2Proof.Machine.execQpWorkCompletion qp status s
  | .rdmaInbound rkey op va => Sys2Proof.Machine.execRdmaInbound rkey op va s
  | .moduleBringUp image absent => Sys2Proof.Machine.execModuleBringUp image absent s
  | .pcieConfigRequest port => Sys2Proof.Machine.execPcieConfigRequest port s
  | .create => Sys2Proof.Machine.execCreate s
  | .reset => Sys2Proof.Machine.execReset s
  | .destroy => Sys2Proof.Machine.execDestroy s
  | .setWindow => Sys2Proof.Machine.execSetWindow s
  | .preempt => Sys2Proof.Machine.execPreempt s
  | .kill => Sys2Proof.Machine.execKill s
  | .setCap => Sys2Proof.Machine.execSetCap s
  | .attest => Sys2Proof.Machine.execAttest s
  | .createQp => Sys2Proof.Machine.execCreateQp s
  | .destroyQp => Sys2Proof.Machine.execDestroyQp s
  | .regRegion => Sys2Proof.Machine.execRegRegion s
  | .deregRegion => Sys2Proof.Machine.execDeregRegion s
  | .readLog => Sys2Proof.Machine.execReadLog s
  | .registerWrite off value => Sys2Proof.Machine.execRegisterWrite off value s
  | .powerStepAdjust die meas => Sys2Proof.Machine.execPowerStepAdjust die meas s
  | .skimmerLineRead pa found => Sys2Proof.Machine.execSkimmerLineRead pa found s
  | .illegalEncoding w0 => Sys2Proof.Machine.execIllegalEncoding w0 s
  | .instructionFetchFault f => Sys2Proof.Machine.execInstructionFetchFault f s
  | .addressWaitEntry => Sys2Proof.Machine.execAddressWaitEntry s
  | .logReadPointerAdvance => Sys2Proof.Machine.execLogReadPointerAdvance s
  | .hostReadCompletion error => Sys2Proof.Machine.execHostReadCompletion error s
  | .commandDoorbell value => Sys2Proof.Machine.execCommandDoorbell value s
  | .arpNeighbourDiscovery qp mac => Sys2Proof.Machine.execArpNeighbourDiscovery qp mac s

end Sys2Proof.Machine
end

