-- ==== Sys2Proof/Machine/Fetch.lean ====
section
/-! DEFINITION. Issuing an instruction: the round-robin choice of a context (R29), the record of an activation's start (R224,
R233), the fetch of both words (R262, R263) and what follows a fetch. -/
namespace Sys2Proof.Machine

/-- Whether a context's YIELD still waits for another one to issue (R378). -/
def Core.yielding (c : Core) (k : CtxId) : Bool :=
  allCtx.any (fun j => j ≠ k && (c.ctx k).yieldOn.getLsbD j.toNat && (c.ctx j).st = .ready)

/-- The next context in state ready, in round-robin order after the one that issued last (R29), but for one that yields. -/
def Core.nextReady (c : Core) : Option CtxId :=
  [c.cur + 1#2, c.cur + 2#2, c.cur + 3#2, c.cur].find? (fun k => (c.ctx k).st = .ready && !c.yielding k)

/-- A context issues: it is running in this cycle (R30). -/
def State.begin (s : State) (k : CtxId) : State :=
  { s with me := (({ s.me with cur := k }).unyield k).setCtx k { (s.me.unyield k).ctx k with st := .running, width := 4, yieldOn := 0#4 } }

/-- Go on once the activation's ACT record is in its worker's log (R224, R233); the wait at the start is a lag wait. -/
def State.withStart (s : State) (f : State → State) : State :=
  if s.cx.act.begun || s.me.cur = 3#2 || (s.workerBinding s.meId).isNone then f (s.onCx (fun x => { x with act := { x.act with begun := true } }))
  else
    let i : LogItem := { type := 0, body := s.cx.act.actBody }
    if s.logRoom s.meId s.me.cur i then f ((s.log s.meId s.me.cur i).onCx (fun x => { x with act := { x.act with begun := true } }))
    else if s.cx.timedOut then s.lgFail s.meId s.me.cur 15 ((s.workerBinding s.meId).elim 0 Binding.waitingSeq) s.cx.pc 0#64 false
    else s.await .startLag true 0

/-- What a fetch gives: a word, a fault, or a state in which the context waits. -/
inductive Fetched where
  | word (s : State) (w : Lane)
  | fault (s : State) (f : FetchFault)
  | hold (s : State)

/-- Fetch one word at a PC (R262): the checks of the PC, the translation and the L1 instruction memory, which is filled
from the home of the line. -/
def State.fetchWord (s : State) (pc : Word) : Fetched :=
  let va := pc.toNat % 2 ^ 57
  let bad (c : Cause) (l : BitVec 3) : Fetched := .fault s { cause := c, level := l, addr := BitVec.ofNat 64 va }
  if va % 4 ≠ 0 then .fault s { cause := .align, level := 0#3, addr := pc }
  else if inWindow va then .fault s { cause := .window, level := 0#3, addr := pc }
  else if s.missOut then .hold (s.await .counters false s.cx.op.phase)
  else
    match s.ownerOf s.meId with
    | none => bad .pageNp 5#3
    | some t =>
      match (s.cx.op.leaf.filter (fun e => e.covers t.id va)).orElse (fun _ => s.me.steer? t.id va) with
      | none => .hold ((s.askXl va .fetch false).await .fetch false s.cx.op.phase)
      | some e =>
        match leafFault t e va .fetch (!s.cx.sup) with
        | some c => bad c e.level
        | none =>
          let xl := e.xl va
          match s.me.il1.find? (fun l => l.pa = xl.pa / 64 * 64) with
          | none =>
            .hold ((s.sendPacket 0#2 s.cx.act.pri (.fill (s.reqOf s.meId s.me.cur) xl va false true)).await
              .fetch false s.cx.op.phase)
          | some l =>
            if l.poison then bad .uncorrectable 0#3
            else
              .word (s.onMe (fun c =>
                { (if c.steer.any (fun x => x.same e) then c.putSteer e else c).putVat e.vat with
                  il1 := lruPut (fun m : ILine => m.pa = l.pa) 128 l c.il1 })) (BitVec.ofNat 32 (l.data.value xl.pa 4))

/-- What an issue comes to: an instruction, a word that is none, a fetch fault, or a state in which the context waits. -/
inductive Issued where
  | instr (s : State) (i : Instr)
  | illegal (s : State) (w0 : Lane)
  | fault (s : State) (f : FetchFault)
  | hold (s : State)

/-- A fault that the translation service answered to a fetch (R161, R382). -/
def fetchFaultOf (i : TrapInfo) : FetchFault := { cause := i.cause, level := i.level, addr := i.addr }

/-- Fetch and decode the instruction at the PC of the issuing context: both words before it issues (R262, R263, R267). -/
def State.fetchInstr (s : State) : Issued :=
  match s.cx.op.fault.filter (·.fetch) with
  | some i => .fault s (fetchFaultOf i)
  | none =>
    let pc := s.cx.pc
    match s.fetchWord pc with
    | .hold s1 => .hold s1
    | .fault s1 f => .fault s1 f
    | .word s1 w0 =>
      if hasWord1 w0.toNat then
        match (s1.onCx (fun x => { x with width := 8 })).fetchWord (pc + 4#64) with
        | .hold s2 => .hold s2
        | .fault s2 f => .fault s2 f
        | .word s2 w1 =>
          match decode (leBytes 4 w0.toNat ++ leBytes 4 w1.toNat) with
          | .ok (i, _) => .instr s2 i
          | .error _ => .illegal s2 w0
      else
        match decode (leBytes 4 w0.toNat) with
        | .ok (i, _) => .instr s1 i
        | .error _ => .illegal s1 w0

/-- Start to issue in a context: its start record, then the fetch. A context of a gang that is being saved only ends the instruction
that has an answer coming (R177). -/
def State.issue (s : State) (k : CtxId) : Issued :=
  if s.savingAt s.meId && !(s.me.ctx k).owed then .hold (s.onMe Core.stopAll) else
  let s0 := s.begin k
  let s1 := s0.withStart (fun s => s)
  if s1.cx.st = .running then s1.fetchInstr else .hold s1

/-- A packet has waited some more mesh cycles, at the head of the same router or past it (R94, R95): its age counter rises by one for every
16 of them, up to 255. -/
def Packet.wait (p : Packet) (n : Nat) (moved : Bool) : Packet :=
  { p with waited := p.waited + n, blocked := if moved then 0 else p.blocked + n, age := BitVec.ofNat 8 (Nat.min 255 ((p.waited + n) / 16)) }

/-- Time passes: one step, at least one core cycle (R260; log entry 2), and for each packet a free number of mesh cycles of waiting (R95;
log entry 75). -/
def State.pass (s : State) : State :=
  let free (p : Packet) : Word := Config.freeWord (2 ^ 112 * (s.tick + 1) + p.id)
  { s with net := s.net.map (fun p => p.wait ((free p).toNat / 2) ((free p).getLsbD 0)), tick := s.tick + 1, cycle := if s.parlour.state = 2 || s.parlour.state = 3 then s.cycle + BitVec.ofNat 64 (1 + Config.freeCycles s.tick) else s.cycle }

end Sys2Proof.Machine
end

