-- ==== Sys2Proof/Machine/Schedule.lean ====
section
/-! DEFINITION. The order in which the module's own units take their turns when the agenda names none (log entry 8): the events
that the packets, engines, dispatchers, launch units and the parlour have pending, in one fair rotation. -/
namespace Sys2Proof.Machine

/-- The event by which a packet arrives. -/
def packetEvent (p : Packet) : Instr :=
  match p.body with
  | .message _ _ _ hdr _ _ _ => if hdr.getLsbD 5 then .depositMessage else .handlerMessage
  | .accepted .. => .messageAcceptance
  | .refused .. => .messageRefusal
  | .spawnReq .. => .spawnRequest
  | .spawnAns .. => .spawnAnswer
  | .aqReq .. => .aqRequest
  | .aqAns .. => .aqAnswer
  | .notice .. => .copyNotice
  | .latch .. => .latchArrival
  | .window .. => .windowAccess
  | .atomic .. | .atomicAns .. => .atomicAtHome
  | .write .. => .writeAtHome
  | .forward .. => .writeAtHome
  | .fill _ xl _ _ _ => if xl.region = .host then .hostReadCompletion false else .lineFill
  | .ack .. => .writeAcknowledgement
  | .drain .. => .stampDrain
  | .verdict .. => .lifeguardVerdict
  | .readPointer .. => .logReadPointerAdvance
  | .pipe .. => .pipeFarEndUpdate
  | .depart .. => .pipeDeparture
  | .arrive .. => .groupArrival
  | .episode .. => .groupEpisodeComplete
  | .xlateReq .. => .translationRequest
  | .walk .. => .pageWalk
  | .xlateAns .. => .translationAnswer
  | .shootReq .. => .shootdownRequest
  | .shootAck .. => .shootdownAck
  | .waitReq .. => .addressWaitEntry
  | .post .. => .launchPost
  | .notices .. => .launchNotice
  | .hostRead .. => .hostReadCompletion false

/-- The events that a core has pending of its own. -/
def coreEvents (id : CoreId) (c : Core) : List Instr :=
  (if c.scan then [.dispatcherScan id] else [])
  ++ (if c.ctx3.st = .free && !c.svcq.isEmpty then [.serviceAdmission id] else [])
  ++ (List.range c.pails.length).filterMap (fun i => if c.pails[i]?.any (fun p => p.st = .freed) then some (.pailCleared id i) else none)
  ++ allCtx.flatMap (fun k =>
      let x := c.ctx k
      (if x.rel.isEmpty then [] else [.releaseComplete id k])
      ++ x.mq.map (fun q => .matrixCommandDone id k ⟨onLoadPath q.op, false⟩)
      ++ (if x.vq.isEmpty then [] else [.vectorCommandDone id k false])
      ++ (if x.cq.isEmpty then [] else [.copyCommandDone id k, .copyHandback id k]))
  ++ c.outbox.flatMap (fun e => e.dests.filterMap (fun d => if e.released && !d.inFlight then some (.refusalBackoffExpiry id e.slot d.core) else none))

/-- The event of the management command that runs (R249). -/
def State.commandEvent (s : State) : List Instr :=
  match s.parlour.busy with
  | some 1 => [.create]
  | some 2 => [.reset]
  | some 3 => [.destroy]
  | some 4 => [.setWindow]
  | some 5 => [.preempt]
  | some 6 => [.kill]
  | some 7 => [.setCap]
  | some 8 => [.attest]
  | some 9 => [.createQp, .destroyQp, .regRegion, .deregRegion]
  | some 10 => [.readLog]
  | _ => []

/-- The events that a gang has pending. -/
def gangEvents (g : Gang) : List Instr :=
  match g.phase with
  | .placed => [.gangStart g.key]
  | .started => [.gangCompletion g.key]
  | .preempting => [.gangCompletion g.key, .preemptBudgetExpiry g.key]
  | .saving => g.members.filterMap (fun m => if m.saved then none else some (.memberSave m.core))
  | .saved => []
  | .restoring => [.gangRestore g.key]

/-- The events that a tenant's units have pending. -/
def State.tenantEvents (s : State) (t : Tenant) : List Instr :=
  (if t.records.isEmpty then [] else [.faultRecord t.id])
  ++ (if t.queue.isEmpty then [] else [.gangPlacement t.id])
  ++ t.vats.flatMap (fun v =>
      (if v.valid && v.state ≠ 0 || v.defining then [.vatcfgCompletion t.id v.index] else [])
      ++ (if v.state = 1 then ((v.old.elim [] VatGen.members).filter (fun sl => !v.swept.contains sl)).map (.vatResizeSweep t.id v.index) else []))
  ++ s.slices.flatMap (fun p => p.2.failing.filterMap (fun f =>
      if f.1 = t.id then ((t.vat? f.2.1).bind (fun v => v.allShares.findIdx? (· = f.2.2))).map (fun i => .shareOffline f.1 f.2.1 i) else none))

/-- The events of the units that are pending. -/
def State.unitEvents (s : State) : List Instr :=
  s.allCores.flatMap (fun p => coreEvents p.1 p.2)
  ++ s.tenants.flatMap s.tenantEvents
  ++ s.gangs.flatMap gangEvents
  ++ (distinct (s.parlour.posted.map (·.port))).map (fun p => .hostWriteFlushComplete p)
  ++ s.bindings.filterMap (fun b => if b.heldTrap.isEmpty then none else some (.logDeferredTrapRecord b.worker))
  ++ s.parlour.silent.map .memberLoss
  ++ s.parlour.suspect.map .suspectSelfTest
  ++ s.parlour.qps.flatMap (fun q => [.qpTailPoll q.num, .qpWorkCompletion q.num 0])
  ++ s.commandEvent

/-- The turns that are pending: the packets' arrivals and the units' events. -/
def State.pending (s : State) : List Turn :=
  s.net.flatMap (fun p => [.arrival p.id (packetEvent p)]
    ++ (if 8192 ≤ p.blocked && !p.escape then [.arrival p.id .packetEscape] else [])
    ++ (if 4096 ≤ p.waited && !p.s then [.arrival p.id .packetAgeSaturation] else []))
  ++ s.unitEvents.map .event

/-- The pending turn that comes next: one after another, by the number of steps taken. -/
def State.nextInternal (s : State) : Option Turn :=
  let l := s.pending
  l[s.tick / 4 % l.length]?

end Sys2Proof.Machine
end

