-- ==== Sys2Proof/Machine/Step.lean ====
section
/-! DEFINITION. One step of the module: the next turn of the agenda, or where it is empty the core in focus issues and the
module's units take their turns (log entry 8). -/
namespace Sys2Proof.Machine

/-- Run what an issue has come to (R262, R267). -/
def runIssued : Issued → Answer
  | .instr s i => exec i s
  | .illegal s w0 => exec (.illegalEncoding w0) s
  | .fault s f => exec (.instructionFetchFault f) s
  | .hold s => .next s

/-- The core in focus issues from its next ready context (R29), or the step passes. -/
def issueStep (s : State) : Answer :=
  match s.me.nextReady with
  | some k => runIssued (s.issue k)
  | none => .next s

/-- Take one turn (log entry 8). -/
def takeTurn (s : State) : Turn → Answer
  | .event i => if i.isWord then .refused .notAnEvent else exec i s
  | .arrival p i => if i.isWord then .refused .notAnEvent else exec i { s with pick := p }
  | .issue c => if namesCore c then issueStep (s.focus c) else .fault (.noSuchCore c)

/-- One step: copies that a kill has cancelled end, the engines start what they can, and the log units work on (R208, R222, R312); then the next turn of the agenda; or with an empty agenda the core in
focus issues, three times out of four where it can, and otherwise a pending turn of the units is taken. -/
def step (s : State) : Answer :=
  let u := s.endKilledCopies.runEngines.showLogs.pass
  match s.agenda with
  | t :: r => takeTurn { u with agenda := r } t
  | [] =>
    if s.tick % 4 = 3 || u.me.nextReady.isNone then
      match s.nextInternal with
      | some t => takeTurn u t
      | none => issueStep u
    else issueStep u

/-- Where the next instruction of the state lies for `withFetchWord`: a page of its own in the first HBM stack. -/
def fetchVa : Nat := 0x100000

/-- The state with an instruction placed where the next step fetches (log entry 10): the core in focus belongs to a tenant,
context 0 holds an activation whose PC is at the instruction's page, its translation and its line are at the core, and the
next turn is that core's. -/
def State.withFetchWord (s : State) (nbits w : Nat) : State :=
  let bytes := leBytes 8 (w % 2 ^ nbits)
  let owned := (s.ownerOf s.meId).isSome
  let t : Tenant := { id := 0, clusters := [clusterOf s.meId], ranges := [(0, 0x200000)], vats := [{ index := 0, valid := true }] }
  let s1 := if owned then s else { s with tenants := t :: s.tenants.filter (fun u => u.id ≠ 0) }
  let tn := s1.tenantNo s1.meId
  let x := s1.me.ctx 0#2
  let act : Act := if x.st = .free then { sregs := 31, tiles := 8, serial := s1.me.serial, begun := true } else { x.act with begun := true }
  let y : Context := { x with st := .ready, pc := BitVec.ofNat 64 fetchVa, act := act, op := {}, sup := if x.st = .free then true else x.sup }
  let e : PageEntry := { tenant := tn, va := fetchVa, lg := 12, pa := fetchVa, level := 1#3, u := true, w := true, x := true, d := true,
                         e := false, vat := 0, pl := 0#2 }
  let m := ({ s1.me with cur := 3#2 }).setCtx 0#2 y
  let hbm := s1.hbm.write fetchVa bytes
  { s1 with
    me := { (m.putSteer e) with
      il1 := lruPut (fun l : ILine => l.pa = fetchVa) 128 { pa := fetchVa, data := hbm.slice fetchVa 64 } m.il1
      serial := if x.st = .free then m.serial + 1 else m.serial }
    hbm := hbm
    agenda := [.issue s1.meId] }

end Sys2Proof.Machine
end

