-- ==== Sys2Proof/Safety.lean ====
section
/-! DEFINITION. The words that statements use: runs, the bytes that the module holds, what an instruction leaves unchanged, when a
translation or a record is at hand, and what taking a trap leaves. -/
namespace Sys2Proof.Machine

/-- A state that some number of steps reaches from another, each of them answering a next state. -/
inductive Reaches : State → State → Prop where
  | here (s : State) : Reaches s s
  | step {s t u : State} (h : step s = .next t) (r : Reaches t u) : Reaches s u

/-! ## Bytes and frames -/

/-- A place that holds one byte: HBM, host memory and peer memory by address, a core's local memory by offset, a core's L1 data
memory by physical address, and the line that a slice holds for a tenant's vat from an aligned address on. -/
inductive Spot where
  | hbm (a : Nat)
  | host (a : Nat)
  | peer (a : Nat)
  | localMem (c : CoreId) (off : Nat)
  | l1 (c : CoreId) (pa : Nat)
  | slice (c : CoreId) (tenant vat base a : Nat)
  deriving DecidableEq, Repr

/-- The byte at a place; a place that holds none reads zero. -/
def State.byteAt (s : State) : Spot → Byte
  | .hbm a => s.hbm.get a
  | .host a => s.hostView.get a
  | .peer a => s.peerMem.get a
  | .localMem c off => (s.core c).localMem.get off
  | .l1 c pa => ((s.core c).l1Line? pa).elim 0#8 (fun l => l.data.get pa)
  | .slice c tn vat base a => ((s.slice c).line? tn vat base).elim 0#8 (fun l => l.data.get a)

/-- The three memories of the module and its outside are in their canonical form. -/
def State.memoryForm (s : State) : Prop := s.hbm.wf = true ∧ s.hostMem.wf = true ∧ s.peerMem.wf = true

/-- From `s`, the issuing context has retired to `pc`, has written `v` to g[d] and ORed `f` into FFLAGS, and nothing else has
changed: no other register, flag, mask, tile or special register of the context, nothing of any other context, core or unit, and
no byte of memory. With d = 0 no register is written (R255). -/
structure Wrote (s t : State) (d : BitVec 5) (v : Word) (f : BitVec 5) (pc : Word) : Prop where
  value : t.cx.rg d = if d = 0#5 then 0#64 else v
  others : ∀ n, n ≠ d → t.cx.rg n = s.cx.rg n
  counted : t.cx.wroteG = if d = 0#5 then s.cx.wroteG else s.cx.wroteG ||| (1#32 <<< d.toNat)
  flags : t.cx.fflags = s.cx.fflags ||| f
  pc : t.cx.pc = pc
  ready : t.cx.st = .ready
  settled : t.cx.op = {}
  context : ({ t.cx with pc := s.cx.pc, st := s.cx.st, op := s.cx.op, g := s.cx.g, wroteG := s.cx.wroteG, fflags := s.cx.fflags } : Context)
    = s.cx
  rest : t.onCx (fun _ => s.cx) = s
  memory : ∀ p, t.byteAt p = s.byteAt p

/-- The issuing context has retired to `pc` and nothing else has changed. -/
abbrev Passed (s t : State) (pc : Word) : Prop := Wrote s t 0#5 0#64 0#5 pc

/-- An instruction of `words` words completes wherever its activation may write g[d] (R34), with the value and flags given. -/
def Gives (i : Instr) (d : BitVec 5) (v : State → Word) (f : State → BitVec 5 := fun _ => 0#5) (words : Nat := 1) : Prop :=
  ∀ s : State, s.cx.mayG d = true → ∃ t, exec i s = .next t ∧ Wrote s t d (v s) (f s) (s.cx.pc + BitVec.ofNat 64 (4 * words))

/-- From `s`, the issuing context waits with its instruction at a phase, for the kind of event given, and nothing else of the
module has changed. -/
structure Waits (s t : State) (w : WaitKind) (timed : Bool) (phase : Nat) : Prop where
  waiting : t.cx.st = .waiting
  wait : t.cx.op = { s.cx.op with wait := w, timed := timed, phase := phase }
  context : ({ t.cx with st := s.cx.st, op := s.cx.op } : Context) = s.cx
  rest : t.onCx (fun _ => s.cx) = s

/-! ## What an instruction finds -/

/-- The record of the issuing instruction has been logged (R222). -/
def State.logged (s : State) (i : LogItem) : State := s.log s.meId s.me.cur { i with dirty := i.dirty || s.cx.act.dirtied }

/-- The log lets the issuing instruction retire (R222). -/
def State.mayLog (s : State) (i : LogItem) : Prop := s.logRoom s.meId s.me.cur i = true

/-- An address of the issuing core's own local memory that a self access may reach (R102, R103, R105). -/
def State.reachesSelf (s : State) (va n : Nat) (atomic : Bool) (off : Nat) : Prop :=
  s.cx.op.fault = none ∧ inWindow va = true ∧ windowTarget s.meId va = some (.self off) ∧ va % n = 0 ∧ s.me.selfOpen off atomic = true

/-- An address of another core's local memory (R102, R103). -/
def State.reachesCore (s : State) (va n : Nat) (dst : CoreId) (off : Nat) : Prop :=
  s.cx.op.fault = none ∧ inWindow va = true ∧ windowTarget s.meId va = some (.core dst off) ∧ va % n = 0

/-- A translation that the core has at hand and that passes the checks of R156: one that has just arrived or one of the steer
table, with no miss of the context to wait for (R288). -/
def State.atHand (s : State) (va : Nat) (k : Access) (e : PageEntry) : Prop :=
  s.missOut = false ∧ ∃ t, s.ownerOf s.meId = some t
    ∧ ((s.cx.op.leaf.filter (fun e => e.covers t.id va && (k ≠ .write || e.d))).orElse
        (fun _ => (s.me.steer? t.id va).filter (fun e => e.covers t.id va && (k ≠ .write || e.d)))) = some e
    ∧ leafFault t e va k (!s.cx.sup) = none

/-- The core after it has used a translation: its two translation caches are touched (R160). -/
def State.used (s : State) (e : PageEntry) : State :=
  s.onMe (fun c => (if c.steer.any (fun x => x.same e) then c.putSteer e else c).putVat e.vat)

/-- A paged address whose translation is at hand (R97, R156). -/
def State.reachesPage (s : State) (va n : Nat) (k : Access) (e : PageEntry) : Prop :=
  s.cx.op.fault = none ∧ inWindow va = false ∧ va % n = 0 ∧ s.atHand va k e

/-- The line of a paged address lies in L1 under this translation, with every byte of the access valid and no poison (R108). -/
def State.hitsL1 (s : State) (xl : Xl) (n : Nat) (l : L1Line) : Prop :=
  s.me.l1Line? xl.pa = some l ∧ l.xl = xl.base ∧ l.valid &&& byteMask xl.pa n = byteMask xl.pa n ∧ l.poison = false

/-- Step 2 of a release by the issuing instruction, taken once, before phase `ph` (R137). -/
def State.writtenBack (s : State) (sc : Scope) (ph : Nat) : State :=
  if s.cx.op.phase < ph then s.releaseLines (s.reqOf s.meId s.me.cur) sc else s

/-- The release steps of the issuing instruction can end at once: the counters take step 2's write-backs, and after it steps 1 and 3 find
nothing outstanding (R134, R137). -/
def State.mayRelease (s : State) (sc : Scope) (ph : Nat) : Prop :=
  s.releaseRoom sc ph = true ∧
  (s.writtenBack sc ph).released (s.writtenBack sc ph).meId (s.writtenBack sc ph).me.cur sc = true

/-- The state once the release steps of the issuing instruction have ended: its lines are written back and it is at phase `ph`. -/
def State.afterRelease (s : State) (sc : Scope) (ph : Nat) : State :=
  (s.writtenBack sc ph).onCx (fun x => { x with op := { x.op with phase := Nat.max x.op.phase ph } })

/-- The thirteen atomics of one operand form, each with its operation code (R294). -/
def amoWords (d a b : BitVec 5) (sc z o : BitVec 2) : List (BitVec 4 × Instr) :=
  [(0#4, .amoadd d a b sc z o), (1#4, .amoswp d a b sc z o), (2#4, .amoand d a b sc z o), (3#4, .amoor d a b sc z o),
   (4#4, .amoxor d a b sc z o), (5#4, .amomin d a b sc z o), (6#4, .amomax d a b sc z o), (7#4, .amominu d a b sc z o),
   (8#4, .amomaxu d a b sc z o), (9#4, .amofadd d a b sc z o), (10#4, .amofmin d a b sc z o), (11#4, .amofmax d a b sc z o),
   (12#4, .amocas d a b sc z o)]

/-- The state once the release of an atomic, if it has one, has ended (R141). -/
def State.amoReady (s : State) (o sc : BitVec 2) : State := if o.getLsbD 1 then s.afterRelease sc 1 else s

/-- The release of an atomic, if it has one, can end at once. -/
def State.mayAmo (s : State) (o sc : BitVec 2) : Prop := o.getLsbD 1 = true → s.mayRelease sc 1

/-- The state once the acquire of an atomic, if it has one, has taken place (R138, R141). -/
def State.amoAcquired (s : State) (o sc : BitVec 2) : State := if o.getLsbD 0 then s.acquireLines s.meId s.me.cur sc else s

/-! ## Engine commands -/

/-- The tiles and the mask of an instruction are settled (R34, R208, R317, R359). -/
def State.mayTile (s : State) (i : Instr) : Prop :=
  s.cx.mayTiles (shapeOf i).writes = true ∧ s.cx.tileBusy i = false ∧ ∀ o ∈ s.cx.orphans, (shapeOf i).reads.contains o.tile = false

/-- The record of an engine instruction (R224). -/
def engineRecord (i : Instr) (a : Word) : LogItem := engineItem (word0 i) a

/-- The state of an engine instruction once its record is logged and it has counted as dirty (R224, R229). -/
def State.engineLogged (s : State) (i : Instr) (a : Word) : State := (s.logged (engineRecord i a)).dirty

/-- From `u`, the instruction has retired with one more command in the vector queue, and the tiles it writes are declared (R34, R208). -/
def QueuesVector (u t : State) (i : Instr) (q : EngCmd) : Prop :=
  Passed (u.onCx (fun x => { x.markTiles (shapeOf i).writes with vq := x.vq ++ [q] })) t (u.cx.pc + 4#64)

/-- From `u`, the instruction has retired with one more command in the matrix queue. -/
def QueuesMatrix (u t : State) (i : Instr) (q : EngCmd) : Prop :=
  Passed (u.onCx (fun x => { x.markTiles (shapeOf i).writes with mq := x.mq ++ [q] })) t (u.cx.pc + 8#64)

/-- A lane of a tile of a context. -/
def Context.lane (x : Context) (t : BitVec 3) (r l : Nat) : Lane := (x.tile t).at r l

/-- The first command of a context's vector queue, of the activation that holds the context: it is the one that the engine starts next, and
the tiles it reads hold no poison (R208, R236). -/
def State.vectorNext (s : State) (c : CoreId) (k : CtxId) (q : EngCmd) : Prop :=
  q.kept = none ∧ q.serial = (s.ctxAt c k).act.serial ∧ (∃ rest, (s.ctxAt c k).vq = q :: rest)
    ∧ (∀ r ∈ (s.ctxAt c k).vq, r.started = false) ∧ s.nextVector c = some k ∧ (s.ctxAt c k).readsPoison q.op = false

/-- The first command of a context's matrix queue, of the activation that holds the context: it is the one that the engine starts next, and
the tiles it reads hold no poison (R208, R236). -/
def State.matrixNext (s : State) (c : CoreId) (k : CtxId) (q : EngCmd) : Prop :=
  q.serial = (s.ctxAt c k).act.serial ∧ (∃ rest, (s.ctxAt c k).mq = q :: rest)
    ∧ (∀ r ∈ (s.ctxAt c k).mq, r.started = false) ∧ (s.core c).nextMatrix = some k ∧ (s.ctxAt c k).readsPoison q.op = false

/-- The first command of a context's matrix queue, of the activation that holds the context, which its engine executes (R202). -/
def State.matrixRuns (s : State) (c : CoreId) (k : CtxId) (q : EngCmd) : Prop :=
  q.serial = (s.ctxAt c k).act.serial ∧ (∃ rest, (s.ctxAt c k).mq = q :: rest) ∧ q.started = true ∧ (s.ctxAt c k).readsPoison q.op = false

/-- The latches of a core are as before, with their poison. -/
def Core.sameLatches (c d : Core) : Prop := d.latch0 = c.latch0 ∧ d.latch1 = c.latch1 ∧ d.latchPoison = c.latchPoison

/-- From `s`, the first vector command of a context has completed: the named rows of tile `d` hold in each computed lane what `f`
gives there, whose flags are ORed into FFLAGS, every other lane and tile is as before, and so is every byte (R195, R358). -/
structure LanesDone (s t : State) (c : CoreId) (k : CtxId) (d : BitVec 3) (rows : List Nat) (mask : BitVec 16) (f : Nat → Nat → FOut) : Prop where
  lanes : ∀ r < 8, ∀ l < 16, (t.ctxAt c k).lane d r l =
    if rows.contains r && mask.getLsbD l then (f r l).v else (s.ctxAt c k).lane d r l
  others : ∀ e, e ≠ d → (t.ctxAt c k).tile e = (s.ctxAt c k).tile e
  flags : ∀ i < 5, (t.ctxAt c k).fflags.getLsbD i = true ↔
    (s.ctxAt c k).fflags.getLsbD i = true ∨ ∃ r ∈ rows, ∃ l < 16, mask.getLsbD l = true ∧ (f r l).f.getLsbD i = true
  queue : (t.ctxAt c k).vq = (s.ctxAt c k).vq.tail
  registers : (t.ctxAt c k).g = (s.ctxAt c k).g ∧ (t.ctxAt c k).pc = (s.ctxAt c k).pc ∧ (t.ctxAt c k).m1 = (s.ctxAt c k).m1
    ∧ (t.ctxAt c k).m2 = (s.ctxAt c k).m2 ∧ (t.ctxAt c k).m3 = (s.ctxAt c k).m3
  memory : ∀ p, t.byteAt p = s.byteAt p

/-- Pieces of a core's local memory that cover `n` bytes from an offset on, one after another. -/
def Covers : List (Tgt × Nat) → Nat → Nat → Prop
  | [], _, n => n = 0
  | (g, m) :: r, off, n => g = .self off ∧ m ≤ n ∧ Covers r (off + m) (n - m)

/-- Bytes of a core's own memory from an address on: they lie at an offset on, in areas open to a self access (R102, R105). -/
def State.opens (s : State) (c : CoreId) (va n off : Nat) : Prop := ∀ i < n, let a := (va + i) % 2 ^ 57
  inWindow a = true ∧ windowTarget c a = some (.self (off + i)) ∧ (s.core c).selfOpen (off + i) false = true

/-- Bytes of the issuing core's own memory. -/
abbrev State.selfBytes (s : State) (va n off : Nat) : Prop := s.opens s.meId va n off

/-- The same, where no answer has brought the instruction a fault. -/
def State.selfRange (s : State) (va n off : Nat) : Prop := s.cx.op.fault = none ∧ s.selfBytes va n off

/-- Bytes of a core's local memory that hold no poison and lie outside the spill region. -/
def Core.sound (c : Core) (off n : Nat) : Prop :=
  ∀ i < n, c.localPoison.contains ((off + i) / 8) = false ∧ c.area (off + i) ≠ .spill

/-- The bytes of a core's local memory from an offset on that hold an element of 32 bits. -/
def State.localWord (s : State) (c : CoreId) (off : Nat) : Lane :=
  BitVec.ofNat 32 (leOf ((List.range 4).map (fun i => s.byteAt (.localMem c (off + i)))))

/-- A byte of a core's own memory by its window address (R102). -/
def State.ownByte (s : State) (c : CoreId) (va : Nat) : Byte := s.byteAt (.localMem c (va % 2 ^ 15))

/-- A 32-bit word of a core's own memory by its window address. -/
def State.ownWord (s : State) (c : CoreId) (va : Nat) : Lane :=
  BitVec.ofNat 32 (leOf ((List.range 4).map (fun i => s.ownByte c ((va + i) % 2 ^ 57))))

/-- Bytes of a core's own memory from a window address on that hold no poison and lie outside the spill region. -/
def State.ownSound (s : State) (c : CoreId) (va n : Nat) : Prop := ∀ i < n, (s.core c).sound ((va + i) % 2 ^ 57 % 2 ^ 15) 1

/-! ## Containment -/

/-- The issuing instruction at a containment point, its record logged where none is due (R309). -/
def State.toContain (s : State) : State :=
  if 5 ≤ s.cx.op.phase then s else s.onCx (fun x => { x with op := { x.op with phase := 5, aux := 0 } })

/-- A containment point may be passed (R55, R309): no verdict is due or a pass covers the record, the copy commands have read their
bytes, no kill for poison is due, and the release of the held messages can end. -/
def State.mayContain (s : State) : Prop :=
  (s.cx.op.phase < 5 → s.me.cur = 3#2 ∨ s.workerBinding s.meId = none)
  ∧ (5 ≤ s.cx.op.phase → s.cx.op.aux = 0 ∨ ∀ b, s.workerBinding s.meId = some b → covers b.pass (s.cx.op.aux - 1) = true)
  ∧ (∀ q ∈ s.cx.cq, q.serial = s.cx.act.serial → q.handed = true)
  ∧ s.cx.act.poisoned = false
  ∧ (∀ sc, s.toContain.heldScope = some sc → s.toContain.mayRelease sc 7)

/-- The state once a containment point is passed: what is held has been released, and the activation is clean (R55, R229). -/
def State.contained (s : State) : State :=
  (match s.toContain.heldScope with
   | none => s.toContain
   | some sc => (s.toContain.afterRelease sc 7).releaseHeld).onCx (fun x => { x with act := { x.act with dirtied := false } })

/-- From `s`, the issuing instruction has retired with an entry held in the outbox; a TAG is taken and the record logged (R55, R379). -/
def Holds (s t : State) (i : LogItem) (e : OutEntry) : Prop :=
  Passed ((s.logged i).onMe (fun c => { c with outbox := c.outbox ++ [e], tag := c.tag + 1#11 })) t ((s.logged i).cx.pc + 4#64)

/-- An outbox entry is at hand for the issuing context, and its instruction has begun no containment (R56, R57). -/
def State.mayHold (s : State) (slot : Nat) : Prop := s.cx.op.phase < 5 ∧ s.me.freeSlot s.me.cur = some slot

/-- The outbox entry that the issuing activation adds for a message, with the TAG in the header and the activation's priority (R55, R95, R379). -/
def State.newEntry (s : State) (slot : Nat) (kind : OutKind) (hdr : Word) (payload : List Word) (dests : List CoreId) (pri : BitVec 2) :
    OutEntry :=
  { slot := slot, ctx := s.me.cur, serial := s.cx.act.serial, kind := kind, hdr := taggedHeader hdr s.me.tag, payload := payload,
    sup := s.cx.sup, pri := pri, actPri := s.cx.act.pri, dests := dests.map (fun d => { core := d, inFlight := false }) }

/-- The record of a message: the header with its TAG (R224, R379). -/
def State.messageItem (s : State) (hdr : Word) : LogItem := { type := 4, body := leBytesOf 8 (taggedHeader hdr s.me.tag).toNat }

/-! ## Packets, records and counters -/

/-- The packet of the present turn. -/
def State.picked (s : State) (p : Packet) : Prop := s.packet s.pick = some p

/-- The packet has left the mesh, and packets with the bodies given, in this order, have entered it behind the others. -/
def Answers (s t : State) (p : Packet) (l : List Body) : Prop :=
  ∃ new, t.net = s.net.filter (fun q => q.id ≠ p.id) ++ new ∧ new.map (·.body) = l

/-- Packets with the bodies given have entered the mesh, and none has left it. -/
def Sends (s t : State) (l : List Body) : Prop := ∃ new, t.net = s.net ++ new ∧ new.map (·.body) = l

/-- One fault record has joined those of a tenant, behind the earlier ones (R170). -/
def Recorded (s t : State) (n : Nat) (r : FaultRec) : Prop :=
  ∀ tn, s.tenant n = some tn → ∃ tn', t.tenant n = some tn' ∧ tn'.records = tn.records ++ [r]

/-- A counter of a core after one zero-length deposit (R39, R53, R66): a join counter counts down, and fires its bound task at zero, or
shows its error below zero; a pipe counter gains a fill. -/
structure Counted (s t : State) (c : CoreId) (i : BitVec 5) : Prop where
  counter : (t.core c).counters[i.toNat] =
    let k := (s.core c).counters[i.toNat]
    if k.pipe then { k with count := k.count + 1 }
    else if k.count = 0 then { k with e := true, b := false }
    else { k with count := k.count - 1, b := k.b && k.count ≠ 1 }
  queue : (t.core c).runq = (s.core c).runq ++
    let k := (s.core c).counters[i.toNat]
    if k.pipe = false ∧ k.count = 1 ∧ k.b = true ∧ (s.core c).dropTasks = false then
      [{ place := .counter i.toNat, pri := (s.core c).entryPri k.handler, handler := k.handler, arg := k.arg }]
    else []

/-- No earlier write or atomic of the packet's core to its line is on its way (R133). -/
def State.firstOfLine (s : State) (p : Packet) (core : CoreId) (pa : Nat) : Prop :=
  s.net.filter (fun q => q.id ≤ p.id && q.writesLine core pa) = [p]

/-- A frame of HBM that a tenant reaches through no vat and that is no other tenant's: it is served at HBM itself, and no address wait is held at
its home (R5, R124, R375). -/
def State.bare (s : State) (t : Tenant) (core : CoreId) (xl : Xl) : Prop :=
  xl.region = .hbm ∧ t.liveVat xl.vat = none ∧ s.foreign t xl.pa = false ∧ (s.slice (s.homeOf t.id xl (dieOf core) false)).waits = []

/-- A line of HBM was written under the key of the access (R116). -/
def State.keyed (s : State) (t : Tenant) (xl : Xl) : Prop := ∀ k, assoc? (xl.pa / 64) s.hbmKey = some k → k = keyFor t xl.e

/-- A line of HBM holds no poison and was written under the key of the access (R116, R236). -/
def State.legible (s : State) (t : Tenant) (xl : Xl) : Prop := s.hbmPoison.contains (xl.pa / 64) = false ∧ s.keyed t xl

/-- The free pail of a core with the lowest index (R43). -/
def Core.lowestPail (c : Core) (i : Nat) : Prop :=
  (∃ p, c.pails[i]? = some p ∧ p.st = .free) ∧ ∀ j < i, ∀ p, c.pails[j]? = some p → p.st ≠ .free

/-- A pail of a core holds a header and a payload, with zeros behind them (R42, R44). -/
def State.pailHolds (s : State) (c : CoreId) (i : Nat) (hdr : Word) (payload : List Word) : Prop :=
  ∀ j < 16, (s.core c).localMem.dword (128 * i + 8 * j) = ((hdr :: payload)[j]?).getD 0#64

/-- The next work request of a queue pair has ended with a completion entry: `d` are the doublewords of its send entry (R247). -/
def State.entryEnds (s : State) (q : QueuePair) (d : List Word) (status : Nat) : State :=
  let q' : QueuePair := { q with next := (q.next + 1) % q.sendLen }
  (s.onQp q.num (fun y => { y with next := (y.next + 1) % y.sendLen })).putCompletion q' ((d[6]?).getD 0#64) status (((d[0]?).getD 0#64).toNat / 2 ^ 32)

/-! ## Traps -/

/-- The trap values of a context (R165): the cause word, the address and the PC of the instruction. -/
def TrapValues (x y : Context) (i : TrapInfo) : Prop := y.faultCause = i.word ∧ y.faultAddr = i.addr ∧ y.faultPc = x.pc

/-- The upcall task of a parked context (R167, R171). -/
def upcall (k : CtxId) (x : Context) (i : TrapInfo) : SvcTask :=
  { index := 254#8, g3 := BitVec.ofNat 64 k.toNat, g4 := BitVec.ofNat 64 (causeCode i.cause), g5 := i.addr, g6 := x.pc, cause := i.word }

/-- From `s`, the issuing context is parked by a recoverable trap: its trap values are written, every other register keeps its
value, and one upcall task has joined the service queue. `s1` is `s` with the trap logged. -/
structure ParkedBy (s t : State) (i : TrapInfo) : Prop where
  parked : t.cx.st = .parked
  values : TrapValues s.cx t.cx i
  registers : t.cx.g = s.cx.g ∧ t.cx.m1 = s.cx.m1 ∧ t.cx.m2 = s.cx.m2 ∧ t.cx.m3 = s.cx.m3 ∧ t.cx.pc = s.cx.pc ∧ t.cx.t = s.cx.t ∧ t.cx.fflags = s.cx.fflags ∧ t.cx.frm = s.cx.frm ∧ t.cx.sup = s.cx.sup
  queued : t.me.svcq = s.me.svcq ++ [upcall s.me.cur s.cx i]

/-- The record that a trap end leaves at the tenant's home launch unit (R168, R170). -/
def trapRecord (s : State) (i : TrapInfo) : FaultRec :=
  { cause := i.cause, flags := recordFlags i.word, core := s.meId
    low8 := BitVec.ofNat 32 (s.cx.act.handler.toNat * 256 + s.me.cur.toNat), w10 := s.cx.pc, w18 := i.addr }

/-- From `s`, a trap has ended the activation of the issuing context: its context is free, its pail is freed, none of its messages is
held any longer, and one record of its trap values has joined the records of its tenant, behind the earlier ones. -/
structure EndedBy (s t : State) (i : TrapInfo) : Prop where
  free : (t.me.ctx s.me.cur).st = .free
  same : t.meId = s.meId ∧ t.me.cur = s.me.cur
  pail : ∀ n, s.cx.act.source = .pail n → n < s.me.pails.length → t.me.pails[n]? = some { st := .freed }
  held : ∀ e ∈ t.me.outbox, e.released = true ∨ ¬(e.ctx = s.me.cur ∧ e.serial = s.cx.act.serial)
  record : ∀ tn, s.tenant (s.tenantNo s.meId) = some tn →
    ∃ tn' rest, t.tenant (s.tenantNo s.meId) = some tn' ∧ tn'.records = tn.records ++ trapRecord s i :: rest

end Sys2Proof.Machine
end

