-- ==== Sys2Proof/Certificates/Slice0/Obligations.lean ====
section
/-! DEFINITION. The statements for the provers, family by family. Each docstring names the rules of spec/ that its statement
formalises, and the log entry where a clause is the model's choice. -/
section
open Sys2Proof Sys2Proof.Machine

/-- ADD to SUBW (R292), MUL to MULHU (R343), BEXT and BINS (R299): each completes wherever the activation may write its destination,
with the result that the tables give, on exact integers where the tables speak of them. -/
def Obligations.IntegerRegisterResults : Prop :=
  ∀ d a b : BitVec 5,
    let x (s : State) := s.cx.rg a
    let y (s : State) := s.cx.rg b
    let sh (s : State) := (s.cx.rg b).toNat % 64
    let len (s : State) := (s.cx.rg b).toNat / 64 % 64 + 1
    Gives (.add d a b) d (fun s => BitVec.ofNat 64 ((x s).toNat + (y s).toNat))
    ∧ Gives (.sub d a b) d (fun s => BitVec.ofInt 64 ((x s).toNat - (y s).toNat : Int))
    ∧ Gives (.and d a b) d (fun s => x s &&& y s)
    ∧ Gives (.or d a b) d (fun s => x s ||| y s)
    ∧ Gives (.xor d a b) d (fun s => x s ^^^ y s)
    ∧ Gives (.shl d a b) d (fun s => BitVec.ofNat 64 ((x s).toNat * 2 ^ sh s))
    ∧ Gives (.shr d a b) d (fun s => BitVec.ofNat 64 ((x s).toNat / 2 ^ sh s))
    ∧ Gives (.sar d a b) d (fun s => BitVec.ofInt 64 ((x s).toInt / 2 ^ sh s))
    ∧ Gives (.rotr d a b) d (fun s => x s >>> sh s ||| x s <<< (64 - sh s))
    ∧ Gives (.slt d a b) d (fun s => if (x s).toInt < (y s).toInt then 1#64 else 0#64)
    ∧ Gives (.sltu d a b) d (fun s => if (x s).toNat < (y s).toNat then 1#64 else 0#64)
    ∧ Gives (.min d a b) d (fun s => BitVec.ofInt 64 (min (x s).toInt (y s).toInt))
    ∧ Gives (.max d a b) d (fun s => BitVec.ofInt 64 (max (x s).toInt (y s).toInt))
    ∧ Gives (.minu d a b) d (fun s => BitVec.ofNat 64 (min (x s).toNat (y s).toNat))
    ∧ Gives (.maxu d a b) d (fun s => BitVec.ofNat 64 (max (x s).toNat (y s).toNat))
    ∧ Gives (.addw d a b) d (fun s => (BitVec.ofNat 32 ((x s).toNat + (y s).toNat)).signExtend 64)
    ∧ Gives (.subw d a b) d (fun s => (BitVec.ofInt 32 ((x s).toNat - (y s).toNat : Int)).signExtend 64)
    ∧ Gives (.mul d a b) d (fun s => BitVec.ofNat 64 ((x s).toNat * (y s).toNat))
    ∧ Gives (.mulh d a b) d (fun s => BitVec.ofInt 64 ((x s).toInt * (y s).toInt / 2 ^ 64))
    ∧ Gives (.mulhu d a b) d (fun s => BitVec.ofNat 64 ((x s).toNat * (y s).toNat / 2 ^ 64))
    ∧ Gives (.bext d a b) d (fun s => BitVec.ofNat 64 ((x s).toNat / 2 ^ sh s % 2 ^ len s))
    ∧ Gives (.bins d a b) d (fun s =>
        let mask := BitVec.ofNat 64 ((2 ^ len s - 1) * 2 ^ sh s)
        s.cx.rg d &&& ~~~mask ||| BitVec.ofNat 64 ((x s).toNat * 2 ^ sh s) &&& mask)

/-- ADDI to SLTIU (R293), the immediate shifts (R353), LIH (R338) and LIW (R339): each completes with the result of its rule; LIW
passes two words.
CLZ, CTZ and POPC (R305), SEXT and ZEXT (R352): each completes. A count is the number that the rule describes, and the
extensions take the low 8, 16 or 32 bits. -/
def Obligations.IntegerImmediateAndUnaryResults : Prop :=
  (∀ (d a : BitVec 5) (i : BitVec 16) (sh : BitVec 6) (w : BitVec 32),
      let x (s : State) := s.cx.rg a
      Gives (.addi d a i) d (fun s => BitVec.ofInt 64 ((x s).toNat + i.toInt))
      ∧ Gives (.andi d a i) d (fun s => x s &&& BitVec.ofNat 64 i.toNat)
      ∧ Gives (.ori d a i) d (fun s => x s ||| BitVec.ofNat 64 i.toNat)
      ∧ Gives (.xori d a i) d (fun s => x s ^^^ BitVec.ofNat 64 i.toNat)
      ∧ Gives (.slti d a i) d (fun s => if (x s).toInt < i.toInt then 1#64 else 0#64)
      ∧ Gives (.sltiu d a i) d (fun s => if (x s).toNat < (i.signExtend 64).toNat then 1#64 else 0#64)
      ∧ Gives (.shli d a sh) d (fun s => BitVec.ofNat 64 ((x s).toNat * 2 ^ sh.toNat))
      ∧ Gives (.shri d a sh) d (fun s => BitVec.ofNat 64 ((x s).toNat / 2 ^ sh.toNat))
      ∧ Gives (.sari d a sh) d (fun s => BitVec.ofInt 64 ((x s).toInt / 2 ^ sh.toNat))
      ∧ Gives (.rotri d a sh) d (fun s => x s >>> sh.toNat ||| x s <<< (64 - sh.toNat))
      ∧ Gives (.lih d i) d (fun _ => BitVec.ofInt 64 (i.toInt * 65536))
      ∧ Gives (.liw d w) d (fun _ => BitVec.ofInt 64 w.toInt) (words := 2))
  ∧ (∀ d a : BitVec 5,
      (∀ s : State, s.cx.mayG d = true → ∃ t n, exec (.clz d a) s = .next t ∧ Wrote s t d (BitVec.ofNat 64 n) 0#5 (s.cx.pc + 4#64)
        ∧ n ≤ 64 ∧ (∀ i < n, (s.cx.rg a).getMsbD i = false) ∧ (n < 64 → (s.cx.rg a).getMsbD n = true))
      ∧ (∀ s : State, s.cx.mayG d = true → ∃ t n, exec (.ctz d a) s = .next t ∧ Wrote s t d (BitVec.ofNat 64 n) 0#5 (s.cx.pc + 4#64)
        ∧ n ≤ 64 ∧ (∀ i < n, (s.cx.rg a).getLsbD i = false) ∧ (n < 64 → (s.cx.rg a).getLsbD n = true))
      ∧ Gives (.popc d a) d (fun s => BitVec.ofNat 64 ((List.range 64).countP (fun i => (s.cx.rg a).getLsbD i)))
      ∧ Gives (.sext d a 0#5) d (fun s => BitVec.ofInt 64 (BitVec.ofNat 8 (s.cx.rg a).toNat).toInt)
      ∧ Gives (.sext d a 1#5) d (fun s => BitVec.ofInt 64 (BitVec.ofNat 16 (s.cx.rg a).toNat).toInt)
      ∧ Gives (.sext d a 2#5) d (fun s => BitVec.ofInt 64 (BitVec.ofNat 32 (s.cx.rg a).toNat).toInt)
      ∧ Gives (.zext d a 0#5) d (fun s => BitVec.ofNat 64 ((s.cx.rg a).toNat % 2 ^ 8))
      ∧ Gives (.zext d a 1#5) d (fun s => BitVec.ofNat 64 ((s.cx.rg a).toNat % 2 ^ 16))
      ∧ Gives (.zext d a 2#5) d (fun s => BitVec.ofNat 64 ((s.cx.rg a).toNat % 2 ^ 32)))

/-- DIV, DIVU, REM and REMU (R200, R313): each completes with the quotient toward zero or the remainder, or with 0 and the dividend
for a zero divisor while DZT is 0; with DZT set a zero divisor raises DIVZERO instead. -/
def Obligations.DivisionResults : Prop :=
  ∀ (d a b : BitVec 5) (s : State), s.cx.mayG d = true →
    let x := s.cx.rg a
    let y := s.cx.rg b
    let done (i : Instr) (v : Word) : Prop := ∃ t, exec i s = .next t ∧ Wrote s t d v 0#5 (s.cx.pc + 4#64)
    (y ≠ 0#64 →
      done (.div d a b) (BitVec.ofInt 64 (x.toInt.tdiv y.toInt)) ∧ done (.divu d a b) (BitVec.ofNat 64 (x.toNat / y.toNat))
      ∧ done (.rem d a b) (BitVec.ofInt 64 (x.toInt.tmod y.toInt)) ∧ done (.remu d a b) (BitVec.ofNat 64 (x.toNat % y.toNat)))
    ∧ (y = 0#64 → s.cx.dzt = false →
      done (.div d a b) 0#64 ∧ done (.divu d a b) 0#64 ∧ done (.rem d a b) x ∧ done (.remu d a b) x)
    ∧ (y = 0#64 → s.cx.dzt = true →
      ∀ i ∈ [Instr.div d a b, .divu d a b, .rem d a b, .remu d a b], exec i s = .next (s.trap { cause := .divzero }))

/-- An activation that has written as many distinct scalar registers as it declared raises ILLEGAL at the first write that exceeds
the declaration (R34), before any effect, in every register-only instruction.
An instruction of the supervisor raises PRIV in user mode, before any effect (R258, R263, R314, R220, R125, R162), and so does an
access to a supervisor's special register (R259).
Where the manual leaves a clause open, the model's choice is that of log entry 18. -/
def Obligations.DestinationLimitAndPrivilege : Prop :=
  (∀ (d a b c : BitVec 5) (i : BitVec 16) (sh : BitVec 6) (w : BitVec 32) (r : BitVec 3) (s : State), s.cx.mayG d = false →
      ∀ j ∈ [Instr.add d a b, .sub d a b, .and d a b, .or d a b, .xor d a b, .shl d a b, .shr d a b, .sar d a b, .rotr d a b, .slt d a b,
             .sltu d a b, .min d a b, .max d a b, .minu d a b, .maxu d a b, .addw d a b, .subw d a b, .addi d a i, .andi d a i, .ori d a i,
             .xori d a i, .slti d a i, .sltiu d a i, .shli d a sh, .shri d a sh, .sari d a sh, .rotri d a sh, .lih d i, .liw d w,
             .mul d a b, .mulh d a b, .mulhu d a b, .clz d a, .ctz d a, .popc d a, .sext d a c, .zext d a c, .bext d a b, .bins d a b,
             .fadd d a b c, .fsub d a b c, .fmul d a b c, .fdiv d a b c, .fsqrt d a c, .fmin d a b, .fmax d a b, .feq d a b, .flt d a b,
             .fle d a b, .fcvtif d a c, .fcvtfi d a c, .fclass d a, .ffma d a b c r],
        exec j s = .next (s.trap { cause := .illegal }))
  ∧ (∀ (d a : BitVec 5) (z : BitVec 2) (n : BitVec 8) (s : State), s.cx.sup = false →
      (∀ j ∈ [Instr.eret a, .shoot d a z, .shootAll d z, .vatcfgDefine d a, .vatcfgResize d a, .vatcfgRetire d a, .lgbindBind d a,
              .lgbindUnbind d a], exec j s = .next (s.trap { cause := .priv }))
      ∧ (0x20 ≤ n.toNat → n.toNat ≤ 0x27 → ∀ j ∈ [Instr.rdsr d n, .wrsr a n], exec j s = .next (s.trap { cause := .priv })))

/-- BEQ to BGEU (R298): a branch whose comparison holds is logged and goes to PC + 4 × the signed offset; one whose comparison does
not hold goes on to the next word. Nothing else changes.
JMP and JAL (R332), JR and JALR (R333): each is logged as a taken branch and goes to its target, JAL and JALR with the address of
the next word in their link register, which JALR writes after it has read its target. -/
def Obligations.BranchAndJumpResults : Prop :=
  (∀ (a b : BitVec 5) (o : BitVec 16) (s : State),
      let x := s.cx.rg a
      let y := s.cx.rg b
      let off : Word := BitVec.ofInt 64 (4 * o.toInt)
      let goes (i : Instr) (p : Prop) : Prop :=
        (p → s.mayLog (branchItem off) → ∃ t, exec i s = .next t ∧ Passed (s.logged (branchItem off)) t ((s.logged (branchItem off)).cx.pc + off))
        ∧ (¬p → ∃ t, exec i s = .next t ∧ Passed s t (s.cx.pc + 4#64))
      goes (.beq a b o) (x = y) ∧ goes (.bne a b o) (x ≠ y)
      ∧ goes (.blt a b o) (x.toInt < y.toInt) ∧ goes (.bge a b o) (y.toInt ≤ x.toInt)
      ∧ goes (.bltu a b o) (x.toNat < y.toNat) ∧ goes (.bgeu a b o) (y.toNat ≤ x.toNat))
  ∧ (∀ (d a : BitVec 5) (o : BitVec 26) (s : State),
      let off : Word := BitVec.ofInt 64 (4 * o.toInt)
      let byReg := branchItem (s.cx.rg a - s.cx.pc)
      (s.mayLog (branchItem off) → ∃ t, exec (.jmp o) s = .next t
        ∧ Passed (s.logged (branchItem off)) t ((s.logged (branchItem off)).cx.pc + off))
      ∧ (s.cx.mayG 31#5 = true → s.mayLog (branchItem off) → ∃ t, exec (.jal o) s = .next t
        ∧ Wrote (s.logged (branchItem off)) t 31#5 ((s.logged (branchItem off)).cx.pc + 4#64) 0#5 ((s.logged (branchItem off)).cx.pc + off))
      ∧ (s.mayLog byReg → ∃ t, exec (.jr a) s = .next t ∧ Passed (s.logged byReg) t (s.cx.rg a))
      ∧ (s.cx.mayG d = true → s.mayLog byReg → ∃ t, exec (.jalr d a) s = .next t
        ∧ Wrote (s.logged byReg) t d ((s.logged byReg).cx.pc + 4#64) 0#5 (s.cx.rg a)))

/-- The scalar FP instructions (R193, R194, R198, R319 to R322, R324) complete wherever the activation may write g[d]: the result of
the operands' low words under the mode that the rounding field selects (7 is FRM), zero-extended, with its flags ORed into FFLAGS. -/
def Obligations.FpInstructionsComplete : Prop :=
  ∀ (d a b c r : BitVec 5) (r3 : BitVec 3),
    let x (s : State) : Lane := BitVec.ofNat 32 (s.cx.rg a).toNat
    let y (s : State) : Lane := BitVec.ofNat 32 (s.cx.rg b).toNat
    let z (s : State) : Lane := BitVec.ofNat 32 (s.cx.rg c).toNat
    let mode (s : State) : BitVec 3 := if r.toNat % 8 = 7 then s.cx.frm else BitVec.ofNat 3 r.toNat
    let gives (i : Instr) (o : State → FOut) : Prop := Gives i d (fun s => BitVec.ofNat 64 (o s).v.toNat) (fun s => (o s).f)
    let tells (i : Instr) (p : State → Bool) (f : State → BitVec 5) : Prop := Gives i d (fun s => if p s then 1#64 else 0#64) f
    gives (.fadd d a b r) (fun s => fAdd (mode s) (x s) (y s))
    ∧ gives (.fsub d a b r) (fun s => fSub (mode s) (x s) (y s))
    ∧ gives (.fmul d a b r) (fun s => fMul (mode s) (x s) (y s))
    ∧ gives (.fdiv d a b r) (fun s => fDiv (mode s) (x s) (y s))
    ∧ gives (.fsqrt d a r) (fun s => fSqrt (mode s) (x s))
    ∧ gives (.ffma d a b c r3) (fun s => fFma (if r3 = 7#3 then s.cx.frm else r3) (x s) (y s) (z s))
    ∧ gives (.fmin d a b) (fun s => fMin (x s) (y s))
    ∧ gives (.fmax d a b) (fun s => fMax (x s) (y s))
    ∧ tells (.feq d a b) (fun s => fEqB (x s) (y s)) (fun s => if isSig (x s) || isSig (y s) then 16#5 else 0#5)
    ∧ tells (.flt d a b) (fun s => fLtB (x s) (y s)) (fun s => if isNan (x s) || isNan (y s) then 16#5 else 0#5)
    ∧ tells (.fle d a b) (fun s => fLeB (x s) (y s)) (fun s => if isNan (x s) || isNan (y s) then 16#5 else 0#5)
    ∧ gives (.fcvtif d a r) (fun s => intToF (mode s) (s.cx.rg a).toInt)
    ∧ Gives (.fcvtfi d a r) d (fun s => BitVec.ofInt 64 (fToInt (mode s) 64 (x s)).1) (fun s => (fToInt (mode s) 64 (x s)).2)
    ∧ Gives (.fclass d a) d (fun s => BitVec.ofNat 64 (fClass (x s)))

/-- The special cases of the FP arithmetic (R182, R193, R319, R322): a NaN operand gives the canonical NaN with NV only where one is
signalling; ∞ − ∞, 0 × ∞, 0/0, ∞/∞ and the root of a negative number give it with NV; a finite nonzero number over zero gives an
infinity with DZ; and no operation gives any other NaN.
Minimum, maximum, comparison, class and conversion (R196, R198, R320, R321): a number wins over a NaN, two NaNs give the canonical
NaN, −0 orders below +0 for the minimum and equals it for the comparisons, a NaN makes every comparison false, FCLASS sets exactly
one of its ten bits, and FCVTFI gives 0 for a NaN and saturates with NV at the infinities. -/
def Obligations.FpSpecialCasesAndOrder : Prop :=
  (∀ (rm : BitVec 3) (x y z : Lane),
      let sig (l : List Lane) : BitVec 5 := if l.any isSig then 16#5 else 0#5
      let zero (v : Lane) : Prop := v.toNat % 2 ^ 31 = 0
      let inf (v : Lane) : Prop := v.toNat % 2 ^ 31 = 0x7F800000
      let sgn (v : Lane) : Bool := v.getLsbD 31
      ((isNan x || isNan y) = true → fAdd rm x y = { v := 0x7FC00000#32, f := sig [x, y] }
        ∧ fMul rm x y = { v := 0x7FC00000#32, f := sig [x, y] } ∧ fDiv rm x y = { v := 0x7FC00000#32, f := sig [x, y] }
        ∧ (fSub rm x y).v = 0x7FC00000#32)
      ∧ (isNan x = true → fSqrt rm x = { v := 0x7FC00000#32, f := sig [x] })
      ∧ (isNan z = true → (fFma rm x y z).v = 0x7FC00000#32)
      ∧ (inf x → inf y → sgn x ≠ sgn y → fAdd rm x y = { v := 0x7FC00000#32, f := 16#5 })
      ∧ (inf x → inf y → sgn x = sgn y → fSub rm x y = { v := 0x7FC00000#32, f := 16#5 })
      ∧ (zero x → inf y → fMul rm x y = { v := 0x7FC00000#32, f := 16#5 } ∧ fFma rm x y z = { v := 0x7FC00000#32, f := 16#5 })
      ∧ (zero x → zero y → fDiv rm x y = { v := 0x7FC00000#32, f := 16#5 })
      ∧ (inf x → inf y → fDiv rm x y = { v := 0x7FC00000#32, f := 16#5 })
      ∧ (isNan x = false → ¬inf x → ¬zero x → zero y →
          fDiv rm x y = { v := if sgn x = sgn y then 0x7F800000#32 else 0xFF800000#32, f := 8#5 })
      ∧ (isNan x = false → ¬zero x → sgn x = true → fSqrt rm x = { v := 0x7FC00000#32, f := 16#5 })
      ∧ (zero x → fSqrt rm x = { v := x })
      ∧ (∀ v ∈ [(fAdd rm x y).v, (fSub rm x y).v, (fMul rm x y).v, (fDiv rm x y).v, (fSqrt rm x).v, (fFma rm x y z).v],
          isNan v = true → v = 0x7FC00000#32))
  ∧ (∀ (rm : BitVec 3) (x y : Lane),
      (isNan x = true → isNan y = true → (fMin x y).v = 0x7FC00000#32 ∧ (fMax x y).v = 0x7FC00000#32)
      ∧ (isNan x = true → isNan y = false → (fMin x y).v = y ∧ (fMax x y).v = y ∧ (fMin y x).v = y ∧ (fMax y x).v = y)
      ∧ (isNan x = false → isNan y = false →
          ((fMin x y).v = x ∧ (fMax x y).v = y ∨ (fMin x y).v = y ∧ (fMax x y).v = x) ∧ fLeB (fMin x y).v (fMax x y).v = true)
      ∧ (fMin 0x80000000#32 0#32).v = 0x80000000#32 ∧ (fMin 0#32 0x80000000#32).v = 0x80000000#32
      ∧ (fMax 0x80000000#32 0#32).v = 0#32 ∧ (fMax 0#32 0x80000000#32).v = 0#32
      ∧ fEqB 0x80000000#32 0#32 = true ∧ fLtB 0x80000000#32 0#32 = false ∧ fLeB 0#32 0x80000000#32 = true
      ∧ ((isNan x || isNan y) = true → fEqB x y = false ∧ fLtB x y = false ∧ fLeB x y = false)
      ∧ (isNan x = false → isNan y = false → fLeB x y = (fLtB x y || fEqB x y) ∧ (fLeB x y || fLeB y x) = true)
      ∧ (∃ i < 10, fClass x = 2 ^ i ∧ (isNan x = true ↔ 8 ≤ i))
      ∧ (isNan x = true → fToInt rm 64 x = (0, 16#5))
      ∧ fToInt rm 64 0x7F800000#32 = (2 ^ 63 - 1, 16#5) ∧ fToInt rm 64 0xFF800000#32 = (-2 ^ 63, 16#5)
      ∧ (-2 ^ 63 ≤ (fToInt rm 64 x).1 ∧ (fToInt rm 64 x).1 < 2 ^ 63))

/-- A recoverable trap of an ordinary context whose gang has a valid entry 254 (R165, R167, R171): the context is parked with its trap
values written and every other register unchanged, and one upcall task joins the service queue.
Every other trap ends its activation (R165, R167, R168, R170): of a cause that is not recoverable, in the service context, or where
entry 254 is not valid. One record of the trap values joins the tenant's, the pail is freed, held messages are dropped and the
context is free. TRAP and BRK do so with their own causes and their number as FAULTADDR (R302).
Where the manual leaves a clause open, the model's choice is that of log entries 25 and 112. -/
def Obligations.TrapsParkOrEnd : Prop :=
  (∀ (s : State) (i : TrapInfo), s.me.cur ≠ 3#2 → (s.me.entry? 254#8).isSome = true →
      i.cause ∈ [Cause.pageNp, .pageProt, .pageRsvd, .singular, .pipeBroken, .waitTimeout, .accOrphan, .format, .divzero] →
      ParkedBy s (s.trap i) i)
  ∧ ((∀ (s : State) (i : TrapInfo),
      (s.me.cur = 3#2 ∨ (s.me.entry? 254#8).isSome = false
        ∨ i.cause ∉ [Cause.pageNp, .pageProt, .pageRsvd, .singular, .pipeBroken, .waitTimeout, .accOrphan, .format, .divzero]) →
      EndedBy s (s.trap i) i)
    ∧ (∀ (s : State) (n : BitVec 8),
      (∃ t, exec (.trap n) s = .next t ∧ EndedBy s t { cause := .trap, addr := BitVec.ofNat 64 n.toNat })
      ∧ (∃ t, exec (.brk n) s = .next t ∧ EndedBy s t { cause := .breakpoint, addr := BitVec.ofNat 64 n.toNat })))

/-- LD and LDS (R133, R138, R334, R335): wherever the address is reached and the record fits, a load completes with the bytes that it
reads, over which the context's own release stores to the same place still to be performed are seen, zero- or sign-extended: from local memory,
whose spill region reads as zero (R33), from the answer of another core, from a valid L1 line, or as an acquire from its home. An acquire also invalidates what is not
dirty within its scope, and is killed by poison in the core's own dirty bytes (R236). Where the bytes are not at hand, it sends one request
and waits; a read of another core goes behind the context's own release stores to its bytes (R133).
Where the manual leaves a clause open, the model's choice is that of log entries 8, 14, 28 and 74. -/
def Obligations.LoadsComplete : Prop :=
  ∀ (d a : BitVec 5) (i : BitVec 10) (sc z o : BitVec 2) (s : State), s.cx.mayG d = true →
    let va := addrOf (s.cx.rg a) (i.signExtend 64)
    let n := 2 ^ z.toNat
    let r := s.reqOf s.meId s.me.cur
    let laid (t : Tgt) (bytes : List Byte) : Nat := leOf (overRel s.cx.rel (relKey t) bytes)
    let done (u : State) (v : Nat) : Prop :=
      let u := if o = 1#2 then u.acquireLines u.meId u.me.cur sc else u
      let item := loadItem u.recordMode z va v
      u.mayLog item →
        (∃ t, exec (.ld d a i sc z o) s = .next t ∧ Wrote (u.logged item) t d (BitVec.ofNat 64 v) 0#5 ((u.logged item).cx.pc + 4#64))
        ∧ (∃ t, exec (.lds d a i sc z o) s = .next t
            ∧ Wrote (u.logged item) t d (BitVec.ofInt 64 (Int.bmod v (2 ^ (8 * n)))) 0#5 ((u.logged item).cx.pc + 4#64))
    let waits (u : State) (w : WaitKind) (ph : Nat) : Prop :=
      ∀ j ∈ [Instr.ld d a i sc z o, .lds d a i sc z o], ∃ t, exec j s = .next t ∧ Waits u t w false ph
    (∀ off, s.reachesSelf va n false off → s.me.localBad off n = false →
        done s (if s.me.area off = .spill then 0 else laid (.self off) (leBytesOf n (s.me.localRead off n))))
    ∧ (∀ dst off, s.reachesCore va n dst off →
        let key := relKey (.core dst off)
        (∀ w, s.cx.op.result = some w → done s (laid (.core dst off) (leBytesOf n w.toNat)))
        ∧ (s.cx.op.result = none → s.cx.op.phase ≠ 9 → s.cx.relOverlaps key n = true → waits s .counters s.cx.op.phase)
        ∧ (s.cx.op.result = none → s.cx.op.phase ≠ 9 → s.cx.relOverlaps key n = false →
            waits (s.sendPacket 0#2 s.cx.act.pri (.window dst r off (BitVec.ofNat 64 va) (.load n false) (scopeOf s.meId dst))) .reply 9))
    ∧ (∀ e, s.reachesPage va n .read e →
        let u := s.used e
        let xl := e.xl va
        (o ≠ 1#2 → ∀ l, u.hitsL1 xl n l → done (if o = 2#2 then u else u.onMe (fun c => c.l1Touch xl.pa)) (laid (.paged xl) (l.data.read xl.pa n)))
        ∧ (o ≠ 1#2 → u.me.l1Line? xl.pa = none →
            waits (u.sendPacket 0#2 s.cx.act.pri (.fill r xl va (o = 2#2) false)) .fill s.cx.op.phase)
        ∧ (o = 1#2 → u.me.dirtyBad xl.pa n = true → ∀ j ∈ [Instr.ld d a i sc z o, .lds d a i sc z o],
            exec j s = .next (u.killUncorrectable u.meId u.me.cur { cause := .uncorrectable, addr := BitVec.ofNat 64 va }))
        ∧ (o = 1#2 → u.me.dirtyBad xl.pa n = false → ∀ w, s.cx.op.result = some w →
            done u (laid (.paged xl) (u.me.overDirty xl.pa (leBytesOf n w.toNat))))
        ∧ (o = 1#2 → u.me.dirtyBad xl.pa n = false → s.cx.op.result = none → xl.region ≠ .host → ∀ t u2 bytes, s.ownerOf s.meId = some t →
            u.blockingStamp (u.homeOf t.id xl (dieOf s.meId) true) s.meId xl.pa = none →
            u.peerDenies t xl = false → (u.ownWrites s.meId xl.pa).readHome t (dieOf s.meId) xl n true = (u2, bytes, false) →
            done u2 (laid (.paged xl) (u2.me.overDirty xl.pa bytes))))

/-- ST to the core's own local memory (R33, R105, R133, R284, R356): once no release store to the bytes is left, the low 2^z bytes of g[v]
are stored at the address, unless it lies in the spill region, whose stores are discarded; a release store waits for none and is kept for its
steps instead. The instruction retires, and every byte elsewhere is unchanged.
ST to paged memory whose line the core holds under the same translation (R108, R133, R356): a plain store writes the bytes into
the line, which becomes most recently used with those bytes valid and dirty; every byte elsewhere is unchanged. A streaming
store sends the bytes to their home as one counted write and updates the line, whose bytes are then valid and not dirty. The page
of the translation has at least 4 KiB, as every page that a walk gives has.
ST to another core's local memory (R104, R134, R142, R356): one counted window store leaves for its owner, and the store retires;
no byte changes until the owner performs it, and a streaming store is treated alike.
Where the manual leaves a clause open, the model's choice is that of log entries 8, 72 and 101. -/
def Obligations.StoresComplete : Prop :=
  (∀ (v a : BitVec 5) (i : BitVec 10) (sc z o : BitVec 2) (off : Nat) (s : State),
      let va := addrOf (s.cx.rg a) (i.signExtend 64)
      let n := 2 ^ z.toNat
      let w := (s.cx.rg v).toNat % 2 ^ (8 * n)
      let item := storeItem z va w
      let u := s.logged item
      s.reachesSelf va n false off → s.mayLog item →
        (o ≠ 1#2 → s.cx.relOverlaps (relKey (.self off)) n = true → ∃ t, exec (.st v a i sc z o) s = .next t ∧ Waits s t .counters false s.cx.op.phase)
        ∧ (o ≠ 1#2 → s.cx.relOverlaps (relKey (.self off)) n = false → ∃ t, exec (.st v a i sc z o) s = .next t ∧ Passed (u.dirty.onMe (fun c => c.localWrite off n w)) t (u.cx.pc + 4#64)
          ∧ (∀ p, (∀ j < n, p ≠ .localMem u.meId (off + j)) → t.byteAt p = u.byteAt p)
          ∧ (∀ j < n, t.byteAt (.localMem u.meId (off + j)) =
              if u.me.area off = .spill then u.byteAt (.localMem u.meId (off + j)) else BitVec.ofNat 8 (w / 256 ^ j)))
        ∧ (o = 1#2 → s.roomFor (s.reqOf s.meId s.me.cur) (fun l => l.within sc) none = true →
          ∃ t, exec (.st v a i sc z o) s = .next t ∧ (∀ p, t.byteAt p = u.byteAt p) ∧ t.cx.pc = u.cx.pc + 4#64 ∧ t.cx.g = u.cx.g
          ∧ t.cx.rel = u.cx.rel ++ [{ serial := u.cx.act.serial, scope := sc, va := va, size := n, value := BitVec.ofNat 64 w,
                                      tgt := .self off, place := t.nextPkt - 1, pri := u.cx.act.pri }]))
  ∧ (∀ (v a : BitVec 5) (i : BitVec 10) (sc z o : BitVec 2) (e : PageEntry) (l : L1Line) (s : State),
      let va := addrOf (s.cx.rg a) (i.signExtend 64)
      let n := 2 ^ z.toNat
      let w := (s.cx.rg v).toNat % 2 ^ (8 * n)
      let item := storeItem z va w
      let pa := (e.xl va).pa
      let u := (s.used e).logged item
      12 ≤ e.lg → s.reachesPage va n .write e → s.cx.relOverlaps (relKey (.paged (e.xl va))) n = false → (s.used e).mayLog item → u.me.l1Line? pa = some l → l.xl = (e.xl va).base →
        (o = 0#2 → ∃ t l', exec (.st v a i sc z o) s = .next t ∧ t.me.l1.head? = some l' ∧ t.me.l1Line? pa = some l'
          ∧ l'.xl = l.xl ∧ l'.valid = l.valid ||| byteMask pa n ∧ l'.dirty = l.dirty ||| byteMask pa n
          ∧ (∀ p, (∀ j < n, p ≠ .l1 u.meId (pa + j)) → t.byteAt p = u.byteAt p)
          ∧ (∀ j < n, t.byteAt (.l1 u.meId (pa + j)) = BitVec.ofNat 8 (w / 256 ^ j))
          ∧ t.cx.g = u.cx.g ∧ t.cx.pc = u.cx.pc + 4#64 ∧ t.cx.unack = u.cx.unack ∧ t.net = u.net ∧ t.hbm = u.hbm)
        ∧ (o = 2#2 → (s.used e).countRoom ((s.used e).scopeOfHome s.meId (e.xl va) false) = true → u.meId = s.meId → u.cx.act = s.cx.act →
          ∃ t l', exec (.st v a i sc z o) s = .next t ∧ t.me.l1Line? pa = some l'
            ∧ l'.valid = l.valid ||| byteMask pa n ∧ l'.dirty = l.dirty &&& ~~~byteMask pa n
            ∧ (∀ j < n, t.byteAt (.l1 u.meId (pa + j)) = BitVec.ofNat 8 (w / 256 ^ j))
            ∧ t.cx.unack = u.cx.unack.inc (u.scopeOfHome u.meId (e.xl va) false)
            ∧ t.net.map (·.body) = u.net.map (·.body) ++ [.write (u.reqOf u.meId u.me.cur) (e.xl va) va (cellsAt pa (leBytesOf n w)) false none
                (u.scopeOfHome u.meId (e.xl va) false)]
            ∧ t.cx.g = u.cx.g ∧ t.cx.pc = u.cx.pc + 4#64))
  ∧ (∀ (v a : BitVec 5) (i : BitVec 10) (sc z o : BitVec 2) (dst : CoreId) (off : Nat) (s : State),
      let va := addrOf (s.cx.rg a) (i.signExtend 64)
      let n := 2 ^ z.toNat
      let w := (s.cx.rg v).toNat % 2 ^ (8 * n)
      let item := storeItem z va w
      let u := s.logged item
      s.reachesCore va n dst off → s.cx.relOverlaps (relKey (.core dst off)) n = false → s.countRoom (scopeOf s.meId dst) = true → s.mayLog item → o ≠ 1#2 →
        ∃ t, exec (.st v a i sc z o) s = .next t ∧ (∀ p, t.byteAt p = u.byteAt p)
          ∧ t.cx.unack = u.cx.unack.inc (scopeOf u.meId dst)
          ∧ t.net.map (·.body) = u.net.map (·.body) ++ [.window dst (u.reqOf u.meId u.me.cur) off (BitVec.ofNat 64 va)
              (.store n (BitVec.ofNat 64 w)) (scopeOf u.meId dst)]
          ∧ t.cx.g = u.cx.g ∧ t.cx.pc = u.cx.pc + 4#64 ∧ t.cx.st = .ready)

/-- A paged address that is not a multiple of the access size raises ALIGN before anything is translated, and a window address that
names no open byte raises WINDOW, in loads, stores and atomics alike (R97, R103, R165): FAULTADDR is the address, and the write bit is that of the
instruction.
Where the manual leaves a clause open, the model's choice is that of log entries 20 and 115. -/
def Obligations.AccessFaults : Prop :=
  ∀ (d a b : BitVec 5) (i : BitVec 10) (sc z o : BitVec 2) (s : State), s.cx.mayG d = true → s.cx.op.fault = none → s.cx.op.phase = 0 →
    let va := addrOf (s.cx.rg a) (i.signExtend 64)
    let va0 := addrOf (s.cx.rg a) 0#64
    let n := 2 ^ z.toNat
    let m := if z = 3#2 then 8 else 4
    let at_ (c : Cause) (w : Bool) (va : Nat) : TrapInfo := { cause := c, write := w, addr := BitVec.ofNat 64 va }
    let loads : List Instr := [.ld d a i sc z o, .lds d a i sc z o]
    let amos : List Instr := [.amoadd d a b sc z o, .amoswp d a b sc z o, .amoand d a b sc z o, .amoor d a b sc z o, .amoxor d a b sc z o,
      .amomin d a b sc z o, .amomax d a b sc z o, .amominu d a b sc z o, .amomaxu d a b sc z o, .amofadd d a b sc z o, .amofmin d a b sc z o,
      .amofmax d a b sc z o, .amocas d a b sc z o]
    (inWindow va = false → va % n ≠ 0 → (∀ j ∈ loads, exec j s = .next (s.trap (at_ .align false va)))
      ∧ exec (.st d a i sc z o) s = .next (s.trap (at_ .align true va)))
    ∧ (inWindow va0 = false → va0 % m ≠ 0 → ∀ j ∈ amos, exec j s = .next (s.trap (at_ .align true va0)))
    ∧ (inWindow va = true → windowTarget s.meId va = none → (∀ j ∈ loads, exec j s = .next (s.trap (at_ .window false va)))
      ∧ exec (.st d a i sc z o) s = .next (s.trap (at_ .window true va)))
    ∧ (inWindow va0 = true → windowTarget s.meId va0 = none → ∀ j ∈ amos, exec j s = .next (s.trap (at_ .window true va0)))
    ∧ (inWindow va = true → (windowTarget s.meId va).isSome → va % n ≠ 0 → (∀ j ∈ loads, exec j s = .next (s.trap (at_ .align false va)))
      ∧ exec (.st d a i sc z o) s = .next (s.trap (at_ .align true va)))
    ∧ (∀ off, inWindow va = true → windowTarget s.meId va = some (.self off) → va % n = 0 → s.me.selfOpen off false = false →
        (∀ j ∈ loads, exec j s = .next (s.trap (at_ .window false va))) ∧ exec (.st d a i sc z o) s = .next (s.trap (at_ .window true va)))
    ∧ (∀ off, inWindow va0 = true → windowTarget s.meId va0 = some (.self off) → va0 % m = 0 → s.me.selfOpen off true = false →
        ∀ j ∈ amos, exec j s = .next (s.trap (at_ .window true va0)))

/-- The thirteen atomics on the core's own local memory (R141, R294, R295): after the release, where the order field asks for one, the
value of the table replaces the old one, the acquire follows, and the old value goes to g[d] zero-extended; with d = g0 no
register is written. A compare-and-swap that does not match writes nothing. Every byte elsewhere is unchanged.
Where the manual leaves a clause open, the model's choice is that of log entry 20. -/
def Obligations.AtomicsOnLocalMemory : Prop :=
  ∀ (d a b : BitVec 5) (sc z o : BitVec 2) (off : Nat) (s : State),
    let va := addrOf (s.cx.rg a) 0#64
    let n := if z = 3#2 then 8 else 4
    let m := 2 ^ (8 * n)
    let v := (s.cx.rg b).toNat % m
    let s1 := s.amoReady o sc
    let old := s1.me.localRead off n
    let item := atomicItem s1.recordMode n va (s.cx.rg b).toNat old
    let signed (x : Nat) : Int := Int.bmod x m
    let lane (x : Nat) : Lane := BitVec.ofNat 32 x
    s.reachesSelf va n true off → s.cx.mayG d = true → s.cx.op.phase ≠ 9 → s.cx.relOverlaps (relKey (.self off)) n = false → s.mayAmo o sc →
    s1.me.localBad off n = false → s1.mayLog item →
      let u := s1.logged item
      let stored (x : Nat) : State := (u.onMe (fun c => c.localWrite off n x)).dirty.amoAcquired o sc
      let gives (j : Instr) (x : Nat) : Prop := ∃ t, exec j s = .next t
        ∧ Wrote (stored x) t d (BitVec.ofNat 64 old) 0#5 ((stored x).cx.pc + 4#64)
      gives (.amoadd d a b sc z o) ((old + v) % m) ∧ gives (.amoswp d a b sc z o) v
      ∧ gives (.amoand d a b sc z o) (old &&& v) ∧ gives (.amoor d a b sc z o) (old ||| v) ∧ gives (.amoxor d a b sc z o) (old ^^^ v)
      ∧ gives (.amomin d a b sc z o) (if signed old < signed v then old else v)
      ∧ gives (.amomax d a b sc z o) (if signed old < signed v then v else old)
      ∧ gives (.amominu d a b sc z o) (min old v) ∧ gives (.amomaxu d a b sc z o) (max old v)
      ∧ (z ≠ 3#2 → gives (.amofadd d a b sc z o) (fAdd 0#3 (lane old) (lane v)).v.toNat
        ∧ gives (.amofmin d a b sc z o) (fMin (lane old) (lane v)).v.toNat
        ∧ gives (.amofmax d a b sc z o) (fMax (lane old) (lane v)).v.toNat)
      ∧ (old = (s.cx.rg d).toNat % m → gives (.amocas d a b sc z o) v)
      ∧ (old ≠ (s.cx.rg d).toNat % m → ∃ t, exec (.amocas d a b sc z o) s = .next t
        ∧ Wrote (u.dirty.amoAcquired o sc) t d (BitVec.ofNat 64 old) 0#5 ((u.dirty.amoAcquired o sc).cx.pc + 4#64))

/-- The thirteen atomics elsewhere (R141, R294 to R296). With d ≠ g0 one request leaves for the home or the owning core, after the
release and with the line's own dirty bytes written back, and the context waits; when the old value has arrived, the instruction
acquires, writes g[d] zero-extended and retires. A reduction with d = g0 retires with its request counted, or waits for its old value too where
its record has to carry it. One whose translation
faults retires unperformed and remembers the fault for a FENCE; an aop that host memory does not take raises ATOMIC_PATH.
Where the manual leaves a clause open, the model's choice is that of log entries 8, 13, 14, 24, 76 and 101. -/
def Obligations.AtomicsElsewhere : Prop :=
  ∀ (d a b : BitVec 5) (sc z o : BitVec 2) (aop : BitVec 4) (j : Instr) (s : State), (aop, j) ∈ amoWords d a b sc z o →
    let va := addrOf (s.cx.rg a) 0#64
    let n := if z = 3#2 then 8 else 4
    let x := s.cx.rg b
    let cmp := s.cx.rg d
    let ret := !(decide (d = 0#5)) || s.recordsOld
    let window (u : State) (dst : CoreId) (off : Nat) : State :=
      u.sendPacket 0#2 u.cx.act.pri (.window dst (u.reqOf u.meId u.me.cur) off (BitVec.ofNat 64 va) (.atomic aop (z = 3#2) x cmp ret) (scopeOf u.meId dst))
    let home (u : State) (xl : Xl) : State :=
      let p := u.purgeLine xl
      let q := if ret then p else p.countWrite (u.reqOf u.meId u.me.cur) (u.scopeOfHome u.meId xl false)
      q.sendPacket 0#2 u.cx.act.pri (.atomic (u.reqOf u.meId u.me.cur) xl (BitVec.ofNat 64 va) aop (z = 3#2) x cmp ret
        (if o.getLsbD 1 then some sc else none) (if o.getLsbD 0 then some sc else none) (u.scopeOfHome u.meId xl false))
    let lets (u : State) (room : Bool) (send : State → State) : Prop :=
      let item := atomicItem u.recordMode n va x.toNat u.unreturned
      (ret = true → s.cx.mayG d = true → room = true → ∃ t, exec j s = .next t ∧ Waits (send u) t .reply false 9)
      ∧ (ret = false → room = true → u.mayLog item →
          ∃ t, exec j s = .next t ∧ Passed (send (u.logged item).dirty) t ((send (u.logged item).dirty).cx.pc + 4#64))
    (s.cx.op.phase = 9 → s.cx.op.fault = none → ∀ w, s.cx.op.result = some w →
      let item := atomicItem s.recordMode n va x.toNat w.toNat
      s.mayLog item → ∃ t, exec j s = .next t
        ∧ Wrote ((s.logged item).dirty.amoAcquired o sc) t d (BitVec.ofNat 64 (w.toNat % 2 ^ (8 * n))) 0#5
            (((s.logged item).dirty.amoAcquired o sc).cx.pc + 4#64))
    ∧ (s.cx.op.phase ≠ 9 →
        (∀ dst off, s.reachesCore va n dst off → s.cx.relOverlaps (relKey (.core dst off)) n = false → s.mayAmo o sc →
          lets (s.amoReady o sc) (ret || (s.amoReady o sc).countRoom (scopeOf (s.amoReady o sc).meId dst))
            (fun u => window (if ret = false then u.countWrite (u.reqOf u.meId u.me.cur) (scopeOf u.meId dst) else u) dst off))
        ∧ (∀ e, s.reachesPage va n .write e → s.cx.relOverlaps (relKey (.paged (e.xl va))) n = false → ((e.xl va).region = .host → aop ∈ [0#4, 1#4, 12#4]) → (s.used e).mayAmo o sc →
          let u := (s.used e).amoReady o sc
          lets u (u.lineRoom (e.xl va).pa (if ret then none else some (u.scopeOfHome u.meId (e.xl va) false))) (fun u => home u (e.xl va)))
        ∧ (∀ e, s.reachesPage va n .write e → s.cx.mayG d = true → (e.xl va).region = .host → aop ∉ [0#4, 1#4, 12#4] →
            exec j s = .next ((s.used e).trap { cause := .atomicPath, write := true, addr := BitVec.ofNat 64 va }))
        ∧ (d = 0#5 → ∀ i, s.cx.op.fault = some i → i.cause ≠ .uncorrectable →
            let item := atomicItem s.recordMode n va x.toNat s.unreturned
            let u := s.logged item
            s.mayLog item → ∃ t, exec j s = .next t ∧ t.cx.pc = u.cx.pc + 4#64 ∧ t.cx.g = u.cx.g ∧ (∀ p, t.byteAt p = u.byteAt p)
              ∧ t.net = u.net ∧ t.cx.deferred = deferInsert { info := i, scope := none, order := 2 * u.nextPkt } u.cx.deferred))

/-- What a release and an acquire do to L1 (R137, R138, R134): after step 2 of a release at a scope no line of the core whose distance
class lies within the scope is dirty, its bytes are as before, and one counted write packet has left for every line that was dirty;
an acquire makes every byte of those lines that is not dirty invalid and keeps the dirty ones, and lines outside the scope stay; it reaches the
lines of the context's prefetches on their way as well, once they have arrived (R345).
FENCE (R139): once the release steps have ended, and with E the context's engine commands, it raises the earliest deferred fault
that its scope covers, reported once, and with a refusal forgets the later ones that it covers (R103), or acquires and retires; until then it waits, and nothing ends that wait but its counters.
Where the manual leaves a clause open, the model's choice is that of log entries 8, 14, 22, 24, 76 and 101. -/
def Obligations.FencesReleaseAndAcquire : Prop :=
  (∀ (s : State) (sc : Scope),
      let r := s.reqOf s.meId s.me.cur
      let u := s.releaseLines r sc
      let out := s.me.l1.filter (fun l => l.within sc && l.dirty ≠ 0#64)
      let v := s.acquireLines s.meId s.me.cur sc
      (∀ l ∈ u.me.l1, l.within sc = true → l.dirty = 0#64)
      ∧ u.me.l1.map (fun l => (l.xl, l.valid, l.data)) = s.me.l1.map (fun l => (l.xl, l.valid, l.data))
      ∧ (∀ p, u.byteAt p = s.byteAt p)
      ∧ u.net.map (·.body) = s.net.map (·.body)
          ++ out.map (fun l => .write r l.xl l.dirtyVa l.dirtyCells l.poison none (s.scopeOfHome s.meId l.xl false))
      ∧ u.cx.unack.clu + u.cx.unack.die + u.cx.unack.mod + u.cx.unack.sys
          = s.cx.unack.clu + s.cx.unack.die + s.cx.unack.mod + s.cx.unack.sys + out.length
      ∧ (∀ l ∈ v.me.l1, ∃ k ∈ s.me.l1, l = if k.within sc then { k with valid := k.dirty } else k)
      ∧ (∀ k ∈ s.me.l1, k.within sc = true → k.dirty ≠ 0#64 → { k with valid := k.dirty } ∈ v.me.l1)
      ∧ (∀ k ∈ s.me.l1, k.within sc = false → k.valid ≠ 0#64 → k ∈ v.me.l1)
      ∧ (∀ p ∈ s.net, p.prefetch s.meId s.me.cur = true → { p with acquired := some (p.acquired.elim sc (Scope.max sc)) } ∈ v.net))
  ∧ (∀ (e : BitVec 1) (sc : BitVec 2) (s : State),
      let u := s.afterRelease sc 1
      let covered (d : Deferred) : Bool := d.scope.all (fun x => x.toNat ≤ sc.toNat)
      let idle (x : Context) : Prop := x.mq = [] ∧ x.vq = [] ∧ ∀ q ∈ x.cq, q.handed = true
      (s.mayRelease sc 1 → (e = 1#1 → idle u.cx ∧ u.cx.act.poisoned = false) →
        ((∀ d ∈ u.cx.deferred, covered d = false) → ∃ t, exec (.fence e sc) s = .next t
          ∧ Passed (u.acquireLines u.meId u.me.cur sc) t ((u.acquireLines u.meId u.me.cur sc).cx.pc + 4#64))
        ∧ (∀ d, u.cx.deferred.find? covered = some d → exec (.fence e sc) s =
            .next ((u.onCx (fun x => { x with deferred :=
              if d.scope.isSome then x.deferred.filter (fun e => e.scope.isNone || !covered e) else x.deferred.erase d })).trap { d.info with deferred := true })))
      ∧ (s.mayRelease sc 1 → e = 1#1 → ¬idle u.cx → ∃ t, exec (.fence e sc) s = .next t ∧ Waits u t .engines false u.cx.op.phase)
      ∧ (s.releaseRoom sc 1 = false → ∃ t, exec (.fence e sc) s = .next t ∧ Waits s t .counters false s.cx.op.phase)
      ∧ (s.releaseRoom sc 1 = true → ¬s.mayRelease sc 1 → ∃ t, exec (.fence e sc) s = .next t
          ∧ Waits (s.writtenBack sc 1) t .counters false (Nat.max (s.writtenBack sc 1).cx.op.phase 1)))

/-- FLUSH and INVAL (R323): nothing for a window address; for a paged one whose translation is at hand and no fill of the line in
flight, FLUSH writes the line's dirty bytes back as one counted write and leaves the line clean, and INVAL invalidates what is not
dirty. SFLUSH (R164): with g0 every steer entry, vat record and instruction line of the core goes, otherwise the steer entries whose
page contains the address.
PREF (R288, R345): it retires, never traps and changes no register and no byte; only a miss of the context that is still out makes it wait. Where the
steer table has a leaf that passes the checks, and the byte is not valid in L1, it asks for a fill of the line; where the table has none, it
asks the translation home; otherwise, and for a window address, it does nothing.
Where the manual leaves a clause open, the model's choice is that of log entries 8, 14 and 101. -/
def Obligations.LineInstructionsAndPrefetch : Prop :=
  (∀ (a : BitVec 5) (s : State),
      let va := addrOf (s.cx.rg a) 0#64
      (inWindow va = true → ∀ j ∈ [Instr.flush a, .inval a], ∃ t, exec j s = .next t ∧ Passed s t (s.cx.pc + 4#64))
      ∧ (∀ e, inWindow va = false → s.cx.op.fault = none → s.atHand va .read e →
          let u := s.used e
          let xl := e.xl va
          let here (l : L1Line) : Bool := l.xl.pa / 64 = xl.pa / 64
          let out := u.me.l1.filter (fun l => here l && l.dirty ≠ 0#64)
          u.fillComing u.meId xl.pa = false →
          (u.lineRoom xl.pa none = false → ∃ t, exec (.flush a) s = .next t ∧ Waits u t .counters false s.cx.op.phase)
          ∧ (u.lineRoom xl.pa none = true → ∃ t, exec (.flush a) s = .next t ∧ t.cx.pc = s.cx.pc + 4#64 ∧ t.cx.st = .ready ∧ t.cx.g = s.cx.g
            ∧ (∀ p, t.byteAt p = s.byteAt p)
            ∧ t.cx.unack = out.foldl (fun n l => n.inc (u.scopeOfHome u.meId l.xl false)) s.cx.unack
            ∧ t.me.l1 = u.me.l1.map (fun l => if here l then { l with dirty := 0#64 } else l)
            ∧ t.net.map (·.body) = s.net.map (·.body)
                ++ out.map (fun l => .write (u.reqOf u.meId u.me.cur) l.xl l.dirtyVa l.dirtyCells l.poison none (u.scopeOfHome u.meId l.xl false)))
          ∧ (∃ t, exec (.inval a) s = .next t ∧ Passed { u with me := { u.me with
                l1 := (u.me.l1.map (fun l => if here l then { l with valid := l.dirty } else l)).filter (fun l => l.valid ≠ 0#64) } } t
                (s.cx.pc + 4#64)))
      ∧ (∃ t, exec (.sflush a) s = .next t
          ∧ Passed { s with me := { s.me with
              steer := if a = 0#5 then [] else s.me.steer.filter (fun e => va / 2 ^ e.lg ≠ e.va / 2 ^ e.lg)
              vatCache := if a = 0#5 then [] else s.me.vatCache
              il1 := if a = 0#5 then [] else s.me.il1 } } t (s.cx.pc + 4#64)))
  ∧ (∀ (a : BitVec 5) (w : BitVec 1) (s : State), inWindow (addrOf (s.cx.rg a) 0#64) = false → s.missOut = true →
      ∃ t, exec (.pref a w) s = .next t ∧ Waits s t .counters false s.cx.op.phase)
  ∧ (∀ (a : BitVec 5) (w : BitVec 1) (s : State), inWindow (addrOf (s.cx.rg a) 0#64) = true ∨ s.missOut = false → ∃ t, exec (.pref a w) s = .next t
      ∧ t.cx.pc = s.cx.pc + 4#64 ∧ t.cx.st = .ready ∧ t.cx.g = s.cx.g ∧ t.cx.fflags = s.cx.fflags ∧ (∀ p, t.byteAt p = s.byteAt p)
      ∧ (let va := addrOf (s.cx.rg a) 0#64
         let r : Req := { core := s.meId, ctx := s.me.cur, serial := s.cx.act.serial, pri := s.cx.act.pri }
         let sent := t.net.map (·.body)
         (inWindow va = true → t.net = s.net)
         ∧ (inWindow va = false → ∀ tn, s.ownerOf s.meId = some tn →
             (s.me.steer? tn.id va = none → sent = s.net.map (·.body)
                ++ [.xlateReq r tn.id va (if w = 1#1 then .write else .read) (!s.cx.sup) true false])
             ∧ (∀ e, s.me.steer? tn.id va = some e →
                  let checks := leafFault tn e va .read (!s.cx.sup) = none ∧ (w = 1#1 → e.w = true)
                  let here := ∃ l, s.me.l1Line? (e.xl va).pa = some l ∧ l.valid.getLsbD ((e.xl va).pa % 64) = true
                  (¬checks ∨ here → t.net = s.net)
                  ∧ (checks → ¬here → sent = s.net.map (·.body) ++ [.fill { r with bg := true } (e.xl va) va false false])))))

/-- PIN (R110): from an offset that is a multiple of 64 it pins lines upward to the number asked for or to OFF 0x7000, and returns how
many; a line that was not pinned reads zero afterwards and no cached line stays in its place, and a pinned one keeps its bytes. An
offset with bits above 14 raises ILLEGAL, one that is not a multiple of 64 raises ALIGN. It waits for line fills on their way into its slots, and where a counter has no room for a write-back
(R134).
UNPIN (R111, R364): once the engine commands that the core had when it issued are done, it walks the same range; the walk passes over lines that are not
pinned, releases those that PIN pinned, whose bytes are lost, and stops at one that the launch unit pinned or at OFF 0x7000; the
result is how many were released. While one of those commands is queued or executing, it waits, and a command queued later is not waited for.
Where the manual leaves a clause open, the model's choice is that of log entries 14, 23 and 101. -/
def Obligations.PinAndUnpinComplete : Prop :=
  (∀ (d a b : BitVec 5) (s : State), s.cx.mayG d = true →
      let o := (s.cx.rg a).toNat
      let k := min (s.cx.rg b).toNat (448 - o / 64)
      let fresh (slot : Nat) : Prop := o / 64 ≤ slot ∧ slot < o / 64 + k ∧ s.me.pinned slot = false
      let room := !s.pinAwaits o (min (s.cx.rg b).toNat 512) && s.pinRoom o (min (s.cx.rg b).toNat 512)
      (o < 2 ^ 15 → o % 64 = 0 → room = false → ∃ t, exec (.pin d a b) s = .next t ∧ Waits s t .counters false s.cx.op.phase)
      ∧ (o < 2 ^ 15 → o % 64 = 0 → room = true → ∃ t, exec (.pin d a b) s = .next t
        ∧ t.cx.rg d = (if d = 0#5 then 0#64 else BitVec.ofNat 64 k) ∧ (∀ n, n ≠ d → t.cx.rg n = s.cx.rg n)
        ∧ t.cx.pc = s.cx.pc + 4#64 ∧ t.cx.st = .ready
        ∧ (∀ slot < 512, t.me.pinned slot = true ↔ s.me.pinned slot = true ∨ fresh slot)
        ∧ (∀ off, ¬fresh (off / 64) → t.byteAt (.localMem s.meId off) = s.byteAt (.localMem s.meId off))
        ∧ (∀ off, fresh (off / 64) → t.byteAt (.localMem s.meId off) = 0#8)
        ∧ (∀ l ∈ t.me.l1, ¬fresh (l.way * 64 + l1Set l.xl.pa)))
      ∧ (2 ^ 15 ≤ o → exec (.pin d a b) s = .next (s.trap { cause := .illegal }))
      ∧ (o < 2 ^ 15 → o % 64 ≠ 0 → exec (.pin d a b) s = .next (s.trap { cause := .align, addr := s.cx.rg a })))
  ∧ (∀ (d a b : BitVec 5) (s : State), s.cx.mayG d = true →
      let o := (s.cx.rg a).toNat
      let idle : Prop := ∀ k ∈ allCtx, (s.me.ctx k).mq = [] ∧ (s.me.ctx k).vq = [] ∧ ∀ q ∈ (s.me.ctx k).cq, q.handed = true
      o < 2 ^ 15 → o % 64 = 0 →
        let done : Prop := if s.cx.op.phase = 1 then s.me.enginesDone s.me.cur = true else idle
        (done → ∃ t stop, exec (.unpin d a b) s = .next t ∧ stop ≤ (s.cx.rg b).toNat
          ∧ (∀ i < stop, o / 64 + i < 448 ∧ s.me.pinLU.getLsbD (o / 64 + i) = false)
          ∧ (stop = (s.cx.rg b).toNat ∨ 448 ≤ o / 64 + stop ∨ s.me.pinLU.getLsbD (o / 64 + stop) = true)
          ∧ (let gone (slot : Nat) : Prop := o / 64 ≤ slot ∧ slot < o / 64 + stop ∧ s.me.pinBy.getLsbD slot = true
             Wrote { s with me := { s.me with pinBy := t.me.pinBy, localMem := t.me.localMem, localPoison := t.me.localPoison } } t d
               (BitVec.ofNat 64 ((List.range stop).countP (fun i => s.me.pinBy.getLsbD (o / 64 + i)))) 0#5 (s.cx.pc + 4#64)
             ∧ (∀ slot < 512, t.me.pinBy.getLsbD slot = true ↔ s.me.pinBy.getLsbD slot = true ∧ ¬gone slot)
             ∧ (∀ off, ¬gone (off / 64) → t.byteAt (.localMem s.meId off) = s.byteAt (.localMem s.meId off))
             ∧ (∀ off, gone (off / 64) → t.byteAt (.localMem s.meId off) = 0#8)))
        ∧ (¬done → ∃ t, exec (.unpin d a b) s = .next t
            ∧ Waits (if s.cx.op.phase = 1 then s else s.onMe (fun c => c.awaitEngines c.cur)) t .engines false 1))

/-- WAITA (R375, R376, R69, R280): with the translation at hand one request with the operands leaves for the home, behind the
context's own bytes of the line, and the context waits. A satisfied wait acquires and gives status 0, a full table gives 2, the end of
WAITLIM withdraws the entry and gives 1; with g0 a full table and a timeout raise WAIT_TIMEOUT. A host frame raises ATOMIC_PATH.
Where the manual leaves a clause open, the model's choice is that of log entries 8, 14, 76 and 101. -/
def Obligations.AddressWaitCompletes : Prop :=
  ∀ (d a b c : BitVec 5) (z : BitVec 2) (p : BitVec 3) (s : State),
    let va := addrOf (s.cx.rg a) 0#64
    let n := 2 ^ z.toNat
    let i := Instr.waita d a b c z p
    let ends (u : State) (code : Nat) : Prop :=
      ∃ t, exec i s = .next t ∧ Wrote u t d (BitVec.ofNat 64 code) 0#5 (u.cx.pc + 4#64)
    s.cx.mayG d = true → inWindow va = false → va % n = 0 → s.cx.op.fault = none →
      (s.cx.op.phase ≠ 9 → ∀ e, s.atHand va .read e →
        let u := s.used e
        let xl := e.xl va
        (xl.region = .host → exec i s = .next (u.trap { cause := .atomicPath, addr := BitVec.ofNat 64 va }))
        ∧ (xl.region ≠ .host → u.cx.relOverlaps (relKey (.paged xl)) n = false → u.lineRoom xl.pa none = true → ∃ t, exec i s = .next t ∧ t.cx.st = .waiting ∧ t.cx.op.phase = 9
            ∧ t.cx.op.wait = .address ∧ t.cx.op.timed = true ∧ t.cx.g = s.cx.g ∧ t.cx.pc = s.cx.pc ∧ (∀ p, t.byteAt p = s.byteAt p)
            ∧ t.net.getLast?.map (·.body) = some (.waitReq
                { req := u.reqOf u.meId u.me.cur, xl := xl, size := n, cmp := p, expected := s.cx.rg b,
                  mask := if c = 0#5 then BitVec.allOnes 64 else s.cx.rg c })))
      ∧ (s.cx.op.phase = 9 → s.cx.op.status = some 0 → ends (s.acquireLines s.meId s.me.cur (BitVec.ofNat 2 s.cx.op.aux)) 0)
      ∧ (s.cx.op.phase = 9 → s.cx.op.status = some 2 → (d ≠ 0#5 → ends s 2) ∧ (d = 0#5 → exec i s = .next (s.trap { cause := .waitTimeout })))
      ∧ (s.cx.op.phase = 9 → s.cx.op.status = none →
          (s.cx.op.elapsed.toNat < s.cx.waitlim.toNat → ∃ t, exec i s = .next t ∧ Waits s t .address true 9)
          ∧ (s.cx.waitlim.toNat ≤ s.cx.op.elapsed.toNat →
              let u := s.withdrawWaits s.meId s.me.cur
              (s.waitStands = false → (d ≠ 0#5 → ends u 1) ∧ (d = 0#5 → exec i s = .next (u.trap { cause := .waitTimeout })))
              ∧ (s.waitStands = true → ∃ t, exec i s = .next t ∧ Waits s t .address true 9)))

/-- SEND, MCAST and LAUNCH (R37, R55, R73, R340, R350, R351, R379): with a legal header, a destination of the tenant and the payload
read, each holds one entry in the outbox with the header that carries the next TAG, and retires; nothing is sent before a containment
point. MCAST and a SEND that names a group hold a copy for every member but the sender. LAUNCH holds a post of the record at g[a], or
notices; none for a count of 0. A record address in the window range is held too, unless it is malformed or a closed area of the core's own
memory, which raise WINDOW (the model's choice, log entry 117).
The payload of a SEND in the core's own local memory is the LEN doublewords at its address, read at issue (R37, R350); an address
that is not a multiple of 8 raises ALIGN, an illegal header ILLEGAL, and a destination outside the tenant WINDOW, before the message
is held.
Where the manual leaves a clause open, the model's choice is that of log entries 67, 73 and 117. -/
def Obligations.MessagesAreHeld : Prop :=
  (∀ (a b : BitVec 5) (k : BitVec 2) (slot : Nat) (s : State), s.mayHold slot →
      let h := s.cx.rg a
      let n := h.toNat % 16
      let pri := BitVec.ofNat 2 (h.toNat / 2 ^ 14 % 4)
      let legal := h.toNat / 2 ^ 29 % 8 = 0 ∧ h.toNat / 16 % 2 = 0
        ∧ (if h.toNat / 32 % 2 = 1 then h.toNat / 2 ^ 11 % 8 = 0 else h.toNat / 2 ^ 17 % 2 ^ 12 = 0)
      let read := s.cx.op.got.length = n ∧ (n = 0 ∨ addrOf (s.cx.rg b) 0#64 % 8 = 0)
      let multi (g : Group) (x : Word) : OutEntry :=
        s.newEntry slot (.multicast k) (x ||| 1#64 <<< 52 ||| BitVec.ofNat 64 (g.id * 2 ^ 32)) s.cx.op.got
          (g.members.filter (fun m => m ≠ s.meId)) pri
      let multiItem (g : Group) (x : Word) : LogItem := s.messageItem (x ||| 1#64 <<< 52 ||| BitVec.ofNat 64 (g.id * 2 ^ 32))
      let va := addrOf h 0#64
      let cnt := (s.cx.rg b).toNat
      (legal → h.toNat / 2 ^ 52 % 2 = 0 → (s.ownerOf (coreIn h)).map (·.id) = some (s.tenantNo s.meId) → read → s.mayLog (s.messageItem h) →
        ∃ t, exec (.send a b) s = .next t ∧ Holds s t (s.messageItem h) (s.newEntry slot .message h s.cx.op.got [coreIn h] pri))
      ∧ (∀ g, legal → h.toNat / 2 ^ 40 % 2 ^ 13 = 2 ^ 12 → s.slotOf (h.toNat / 2 ^ 32 % 256) = some k → s.groupAt s.meId k.toNat = some g → read →
          let x := h &&& 0xFFE00000FFFFFFFF#64
          s.mayLog (multiItem g x) → ∃ t, exec (.send a b) s = .next t ∧ Holds s t (multiItem g x) (multi g x))
      ∧ (∀ g, legal → h.toNat / 2 ^ 32 % 2 ^ 21 = 0 → s.groupAt s.meId k.toNat = some g → read → s.mayLog (multiItem g h) →
          ∃ t, exec (.mcast a b k) s = .next t ∧ Holds s t (multiItem g h) (multi g h))
      ∧ (b = 0#5 → va % 128 = 0 → s.cx.op.fault = none → inWindow va = true → windowTarget s.meId va = none →
          exec (.launch a b) s = .next (s.trap { cause := .window, addr := BitVec.ofNat 64 va }))
      ∧ (∀ w, b = 0#5 → va % 128 = 0 → s.cx.op.fault = none → inWindow va = true → windowTarget s.meId va = some w →
          let item := s.messageItem (BitVec.ofNat 64 (va / 128))
          let closed : Prop := ∃ off, w = .self off ∧ s.me.selfOpen off false = false
          (closed → exec (.launch a b) s = .next (s.trap { cause := .window, addr := BitVec.ofNat 64 va }))
          ∧ (¬closed → s.mayLog item → ∃ t, exec (.launch a b) s = .next t
              ∧ Holds s t item (s.newEntry slot (.post (BitVec.ofNat 64 va)) 0#64 [] [] s.cx.act.pri)))
      ∧ (∀ e, b = 0#5 → va % 128 = 0 → s.cx.op.fault = none → inWindow va = false → s.atHand va .read e →
          let u := s.used e
          let item := u.messageItem (BitVec.ofNat 64 (va / 128))
          u.mayLog item → ∃ t, exec (.launch a b) s = .next t
            ∧ Holds u t item (u.newEntry slot (.post (BitVec.ofNat 64 va)) 0#64 [] [] s.cx.act.pri))
      ∧ (b ≠ 0#5 → 0 < h.toNat → h.toNat < 4096 → cnt < 65536 →
          let item := s.messageItem (BitVec.ofNat 64 (2 ^ 52 + cnt * 4096 + h.toNat))
          (cnt = 0 → ∃ t, exec (.launch a b) s = .next t ∧ Passed s t (s.cx.pc + 4#64))
          ∧ (0 < cnt → s.mayLog item → ∃ t, exec (.launch a b) s = .next t
              ∧ Holds s t item (s.newEntry slot (.notice h.toNat cnt) 0#64 [] [] s.cx.act.pri))))
  ∧ (∀ (a b : BitVec 5) (slot off : Nat) (s : State), s.mayHold slot → s.cx.op.fault = none → s.cx.op.got = [] → s.cx.op.result = none →
      let h := s.cx.rg a
      let n := h.toNat % 16
      let va := addrOf (s.cx.rg b) 0#64
      let owned := (s.ownerOf (coreIn h)).map (·.id) = some (s.tenantNo s.meId)
      (headerBad h = true → exec (.send a b) s = .next (s.trap { cause := .illegal }))
      ∧ (headerBad h = false → h.getLsbD 52 = false → ¬owned → exec (.send a b) s = .next (s.trap { cause := .window }))
      ∧ (headerBad h = false → h.getLsbD 52 = false → owned → 0 < n → va % 8 ≠ 0 →
          exec (.send a b) s = .next (s.trap { cause := .align, addr := BitVec.ofNat 64 va }))
      ∧ (headerBad h = false → h.getLsbD 52 = false → owned → va % 8 = 0 → s.cx.rel = [] →
          (∀ i < n, inWindow (va + 8 * i) = true ∧ windowTarget s.meId (va + 8 * i) = some (.self (off + 8 * i))
            ∧ s.me.selfOpen (off + 8 * i) false = true ∧ s.me.localBad (off + 8 * i) 8 = false) → va + 8 * n < 2 ^ 57 → s.mayLog (s.messageItem h) →
          ∃ t, exec (.send a b) s = .next t ∧ Holds s t (s.messageItem h) (s.newEntry slot .message h
            ((List.range n).map (fun i => BitVec.ofNat 64 (s.me.localRead (off + 8 * i) 8))) [coreIn h] (BitVec.ofNat 2 (h.toNat / 2 ^ 14 % 4)))))

/-- A containment point (R55, R143, R309): CONTAIN retires and EXIT ends its activation once the point may be passed. Every message that
was held has then left, one packet for each destination with the sender's coordinates in its header, in the virtual network of messages,
and none is held any longer; after EXIT the context is free and its pail is being cleared. A bound core first logs its record and waits
for the verdict.
The containment record and its verdict (R219, R229, R309): on a core that is a worker, the record of CONTAIN or EXIT is logged and
the context waits for the lifeguard's verdict; a pass that covers the record lets it go on, and the end of WAITLIM ends the
activation as a fail of type 15.
Where the manual leaves a clause open, the model's choice is that of log entries 8 and 14. -/
def Obligations.ContainmentPoints : Prop :=
  (∀ s : State, s.mayContain →
      (∃ t, exec .contain s = .next t ∧ Passed s.contained t (s.contained.cx.pc + 4#64))
      ∧ (∃ t, exec .exit s = .next t ∧ (t.me.ctx s.me.cur).st = .free ∧ t.meId = s.meId
          ∧ (∀ n, s.cx.act.source = .pail n → n < s.me.pails.length → t.me.pails[n]? = some { st := .freed })
          ∧ (∀ p ∈ s.contained.net, p ∈ t.net))
      ∧ s.contained.heldNow.filter (fun e => !e.isSpawn) = []
      ∧ s.contained.cx.act.dirtied = false ∧ s.contained.cx.g = s.cx.g ∧ s.contained.cx.pc = s.cx.pc
      ∧ (∀ e ∈ s.heldNow, ∀ d ∈ e.dests, (e.kind = .message ∨ ∃ k, e.kind = .multicast k) →
          ∃ p ∈ s.contained.net, p.vnet = 2#2 ∧ p.pri = e.pri
            ∧ p.body = .message d.core s.meId (s.me.gang.getD 0)
                ((e.hdr &&& 0xFFE00000FFFFFFFF#64) ||| headerForm s.meId ||| (if e.kind = .message then 0#64 else 1#64 <<< 52)) e.payload e.slot false))
  ∧ (∀ (s : State) (b : Binding), s.me.cur ≠ 3#2 → s.workerBinding s.meId = some b → (∀ q ∈ s.cx.cq, q.serial = s.cx.act.serial → q.handed = true) →
      ∀ j ∈ [(Instr.contain, 6), (.exit, 7)],
        let item : LogItem := { type := j.2, body := leBytesOf 4 b.nextLog }
        let u := (s.logged item).onCx (fun x => { x with op := { x.op with phase := 5, aux := b.nextLog + 1 } })
        (s.cx.op.phase < 5 → s.mayLog item → (∀ c, u.workerBinding u.meId = some c → covers c.pass b.nextLog = false) →
          (u.workerBinding u.meId).isSome → u.cx.timedOut = false → (∀ q ∈ u.cx.cq, q.serial = u.cx.act.serial → q.handed = true) →
          ∃ t, exec j.1 s = .next t ∧ Waits u t (.verdict b.nextLog) true 5)
        ∧ (∀ n, 5 ≤ s.cx.op.phase → s.cx.op.aux = n + 1 → covers b.pass n = false →
            (s.cx.timedOut = false → ∃ t, exec j.1 s = .next t ∧ Waits s t (.verdict n) true s.cx.op.phase)
            ∧ (s.cx.timedOut = true → exec j.1 s = .next (s.lgFail s.meId s.me.cur 15 n s.cx.pc 0#64 s.cx.act.dirtied))))

/-- SPAWN (R60, R354, R355): past its containment point, one that names its own core becomes a call of g[b] with g31 the address of the
next word and status 1; one that names another core sends one request with the child's header, g[b] and g3 to g6, and waits. A positive
answer frees the entry and gives status 0, a negative one makes the call.
Where the manual leaves a clause open, the model's choice is that of log entries 8 and 14. -/
def Obligations.SpawnCompletes : Prop :=
  ∀ (d a b : BitVec 5) (s : State), s.me.cur ≠ 3#2 →
    let w := s.cx.rg a
    let tgt := coreIn w
    let x := s.cx
    w.toNat / 2 ^ 52 = 0 → w.toNat % 2 ^ 32 = 0 → x.mayG d = true → (x.rg b).toNat % 4 = 0 →
    (s.ownerOf tgt).map (·.id) = some (s.tenantNo s.meId) → ∀ e, s.spawnEntry = some e →
      let calls (u : State) : Prop :=
        let off := x.rg b - u.cx.pc
        let item := branchItem off
        (u.cx.mayG 31#5 = true ∧ (u.cx.setG 31#5 0#64).mayG d = true) → u.mayLog item →
          ∃ t, exec (.spawn d a b) s = .next t ∧ t.cx.pc = x.rg b ∧ t.cx.st = .ready
            ∧ t.cx.rg d = (if d = 0#5 then 0#64 else 1#64) ∧ (d ≠ 31#5 → t.cx.rg 31#5 = (u.logged item).cx.pc + 4#64)
            ∧ (∀ n, n ≠ d → n ≠ 31#5 → t.cx.rg n = (u.logged item).cx.rg n) ∧ t.spawnEntry = none
      (x.op.phase < 8 → s.mayContain → tgt = s.meId →
        calls (s.contained.onCx (fun x => { x with op := { x.op with phase := 8 } })))
      ∧ (x.op.phase < 8 → s.mayContain → tgt ≠ s.meId →
          let u := s.contained
          ∃ t, exec (.spawn d a b) s = .next t ∧ t.cx.st = .waiting ∧ t.cx.op.wait = .spawnAnswer ∧ t.cx.op.timed = false ∧ t.cx.op.phase = 9
            ∧ t.cx.g = x.g ∧ t.cx.pc = x.pc ∧ t.me.tag = u.me.tag + 1#11
            ∧ t.net.map (·.body) = u.net.map (·.body) ++ [.spawnReq tgt (u.reqOf u.meId u.me.cur) e.slot (u.me.gang.getD 0)
                (taggedHeader (headerForm u.meId ||| BitVec.ofNat 64 (u.cx.act.pri.toNat * 2 ^ 14 + 5)) u.me.tag)
                [x.rg b, x.rg 3#5, x.rg 4#5, x.rg 5#5, x.rg 6#5] u.cx.act.sregs u.cx.act.tiles])
      ∧ (x.op.phase = 9 → x.op.status = some 0 → s.mayLog { type := 4, body := leBytesOf 8 e.hdr.toNat } →
          ∃ t, exec (.spawn d a b) s = .next t ∧ t.cx.rg d = 0#64 ∧ (∀ n, n ≠ d → t.cx.rg n = x.rg n)
            ∧ t.cx.pc = x.pc + 4#64 ∧ t.cx.st = .ready ∧ t.spawnEntry = none)
      ∧ (x.op.phase = 9 → x.op.status = some 1 → calls s)

/-- AQ (R61, R297): with a legal descriptor and the translation at hand, one counted request with the operand leaves for the home,
behind the line's own dirty bytes, and the instruction retires; no register changes.
Where the manual leaves a clause open, the model's choice is that of log entries 8 and 101. -/
def Obligations.AqCompletes : Prop :=
  ∀ (d a b : BitVec 5) (s : State) (e : PageEntry),
    let q := s.cx.rg d
    let op := q.toNat / 2 ^ 21 % 8
    let va := addrOf (s.cx.rg a) 0#64
    let k : Access := if op = 0 then .read else .write
    let u := s.used e
    let xl := e.xl va
    let sc := u.scopeOfHome u.meId xl false
    let item : LogItem := { type := 3, size := 3, addr := some (BitVec.ofNat 64 va), dirty := true, aq := true,
                            body := leBytesOf 8 (s.cx.rg b).toNat ++ leBytesOf 8 (q ||| 1#64 <<< 63).toNat }
    q.toNat < 2 ^ 24 → op ≤ 3 → q.toNat % 8 = 0 → s.reachesPage va 8 k e → (xl.region = .host → op ≠ 2) → u.cx.relOverlaps va 8 = false →
    u.lineRoom xl.pa (some sc) = true → u.mayLog item →
      let v := (u.logged item).dirty
      ∃ t, exec (.aq d a b) s = .next t ∧ t.cx.g = v.cx.g ∧ t.cx.pc = v.cx.pc + 4#64 ∧ t.cx.st = .ready ∧ (∀ n, t.byteAt n = (v.purgeLine xl).byteAt n)
        ∧ t.cx.unack = ((v.purgeLine xl).countWrite (v.reqOf v.meId v.me.cur) sc).cx.unack
        ∧ t.net.map (·.body) = (v.purgeLine xl).net.map (·.body) ++ [.aqReq (v.reqOf v.meId v.me.cur) xl va q (s.cx.rg b) sc]

/-- CNTSET, CNTADD and CNTWAIT on a join counter (R53, R306 to R308): CNTSET sets the count, binds the task and clears E, and a count of
0 queues the task at once; CNTADD gives the exact sum, saturated at 65,535 or at 0 with E set, unbound below 0, and queues the task
when the sum reaches 0 from above; CNTWAIT completes with an acquire at mod when the count is 0, with 1 or WAIT_TIMEOUT when WAITLIM
is over, and waits otherwise. On a pipe-mode counter each raises ILLEGAL. Every other counter is unchanged.
Where the manual leaves a clause open, the model's choice is that of log entry 14. -/
def Obligations.CountersComplete : Prop :=
  ∀ (d a b c : BitVec 5) (s : State),
    let k := s.me.counters[c.toNat]
    let n := (s.cx.rg a).toNat
    let task := (s.cx.rg b).toNat
    let queued (h : BitVec 8) (arg : BitVec 56) (l : List Task) : Prop :=
      l = s.me.runq ++ (if s.me.dropTasks then [] else [{ place := .counter c.toNat, pri := s.me.entryPri h, handler := h, arg := arg }])
    let counter (t : State) (x : Counter) : Prop :=
      t.me.counters[c.toNat] = x ∧ ∀ j : Fin 32, j.val ≠ c.toNat → t.me.counters[j] = s.me.counters[j]
    (k.pipe = true → exec (.cntset a b c) s = .next (s.trap { cause := .illegal })
      ∧ (s.cx.mayG d = true → ∀ j ∈ [Instr.cntadd d a c, .cntwait d c], exec j s = .next (s.trap { cause := .illegal })))
    ∧ (k.pipe = false →
      (n < 65536 → task / 2 ^ 56 < 252 →
        ∃ t, exec (.cntset a b c) s = .next t ∧ t.cx.pc = s.cx.pc + 4#64 ∧ t.cx.st = .ready ∧ t.cx.g = s.cx.g ∧ (∀ p, t.byteAt p = s.byteAt p)
          ∧ (let h := BitVec.ofNat 8 (task / 2 ^ 56)
             let x : Counter := { k with count := n, b := decide (n ≠ 0), e := false, handler := h, arg := BitVec.ofNat 56 task }
             counter t x ∧ (if n = 0 then queued h (BitVec.ofNat 56 task) t.me.runq else t.me.runq = s.me.runq)))
      ∧ ((65536 ≤ n ∨ 252 ≤ task / 2 ^ 56) → exec (.cntset a b c) s = .next (s.trap { cause := .illegal }))
      ∧ (s.cx.mayG d = true →
        (∃ t x, exec (.cntadd d a c) s = .next t ∧ counter t x ∧ t.cx.pc = s.cx.pc + 4#64 ∧ t.cx.st = .ready
          ∧ t.cx.rg d = (if d = 0#5 then 0#64 else
              BitVec.ofNat 64 (x.count + (if x.b then 2 ^ 16 else 0) + (if x.e then 2 ^ 17 else 0)))
          ∧ (∀ m, m ≠ d → t.cx.rg m = s.cx.rg m) ∧ (∀ p, t.byteAt p = s.byteAt p)
          ∧ (let v : Int := k.count + (s.cx.rg a).toInt
             let fires := (s.cx.rg a).toInt < 0 ∧ v = 0 ∧ k.b = true
             (65535 < v → x = { k with count := 65535, e := true })
             ∧ (v < 0 → x = { k with count := 0, e := true, b := false })
             ∧ (0 ≤ v → v ≤ 65535 → ¬fires → x = { k with count := v.toNat })
             ∧ (fires → x = { k with count := 0, b := false } ∧ queued k.handler k.arg t.me.runq)
             ∧ (¬fires → t.me.runq = s.me.runq)))
        ∧ (k.count = 0 → ∃ t, exec (.cntwait d c) s = .next t
            ∧ Wrote (s.acquireLines s.meId s.me.cur 2#2) t d 0#64 0#5 (s.cx.pc + 4#64))
        ∧ (k.count ≠ 0 → s.cx.op.elapsed.toNat < s.cx.waitlim.toNat →
            ∃ t, exec (.cntwait d c) s = .next t ∧ Waits s t (.counterZero c) true 0)
        ∧ (k.count ≠ 0 → s.cx.waitlim.toNat ≤ s.cx.op.elapsed.toNat →
            (d ≠ 0#5 → ∃ t, exec (.cntwait d c) s = .next t ∧ Wrote s t d 1#64 0#5 (s.cx.pc + 4#64))
            ∧ (d = 0#5 → exec (.cntwait d c) s = .next (s.trap { cause := .waitTimeout })))))

/-- YIELD (R378) retires and remembers the contexts that are ready besides its own, and no context issues while one that its YIELD waits
for is still ready (R29); the next context to issue is the first ready one in round-robin order. -/
def Obligations.YieldGivesWay : Prop :=
  (∀ s : State, ∃ t, exec .yield s = .next t ∧ t.cx.pc = s.cx.pc + 4#64 ∧ t.cx.st = .ready ∧ t.cx.g = s.cx.g
    ∧ (∀ k : CtxId, t.cx.yieldOn.getLsbD k.toNat = true ↔ (k ≠ s.me.cur ∧ (s.me.ctx k).st = .ready))
    ∧ ({ t.cx with pc := s.cx.pc, st := s.cx.st, op := s.cx.op, yieldOn := s.cx.yieldOn } : Context) = s.cx ∧ t.onCx (fun _ => s.cx) = s)
  ∧ (∀ (c : Core) (k : CtxId), c.nextReady = some k → (c.ctx k).st = .ready
      ∧ ∀ j : CtxId, j ≠ k → (c.ctx j).st = .ready → (c.ctx k).yieldOn.getLsbD j.toNat = false)
  ∧ (∀ (c : Core) (n : Nat) (k : CtxId), c.nextReady = some k → n < 4 → k = c.cur + 1#2 + BitVec.ofNat 2 n →
      ∀ m < n, let j := c.cur + 1#2 + BitVec.ofNat 2 m
        (c.ctx j).st = .ready → ∃ i : CtxId, i ≠ j ∧ (c.ctx i).st = .ready ∧ (c.ctx j).yieldOn.getLsbD i.toNat = true)

/-- GBAR and GRED (R325 to R327, R144): on a bound slot with no arrival of the core outstanding, and once the release at the group's scope
has ended, one arrival with the core's rank, and for GRED the operand, leaves for the group, and the context waits. When the episode
completes, the instruction acquires at the group's scope and retires, GBAR with status 0 and GRED with the result; a refused arrival
raises ILLEGAL, and a timeout gives GBAR status 1 or WAIT_TIMEOUT and GRED WAIT_TIMEOUT: where the episode was
ended, where the group went during the release, and where WAITLIM is over and the counted arrival is withdrawn; one that is still on its
way, and a completion on its way, is awaited.
The result of GRED (R328): the operands are combined pairwise in rounds in the order of their ranks, an odd last one passing up
unchanged, until one is left; and the operands that a group holds give the same result in whatever order they arrived.
Where the manual leaves a clause open, the model's choice is that of log entries 8 and 14. -/
def Obligations.GroupInstructionsComplete : Prop :=
  (∀ (d a : BitVec 5) (op : BitVec 3) (slot : BitVec 2) (s : State), s.cx.mayG d = true →
      let arrives (j : Instr) (kind : Nat) (operand : Word) : Prop :=
        ∀ g, s.cx.op.phase ≠ 9 → s.groupAt s.meId slot.toNat = some g → s.arrivalOut g s.meId = false → s.mayRelease (groupScope g.members) 1 →
          let u := s.afterRelease (groupScope g.members) 1
          ∃ t, exec j s = .next t ∧ t.cx.st = .waiting ∧ t.cx.op.phase = 9 ∧ t.cx.op.wait = .group slot ∧ t.cx.op.timed = true
            ∧ t.cx.op.aux = (groupScope g.members).toNat ∧ t.cx.g = s.cx.g ∧ t.cx.pc = s.cx.pc
            ∧ t.net.map (·.body) = u.net.map (·.body) ++ [.arrive (g.homeSlice (dieOf u.meId)) g.gang g.id ((g.members.findIdx? (· = u.meId)).getD 0) (u.reqOf u.meId u.me.cur)
                slot kind operand]
      let coming : Prop := ∃ p ∈ s.net, match p.body with
        | .arrive _ _ _ _ r k _ _ => r.core = s.meId ∧ r.ctx = s.me.cur ∧ k = slot
        | .episode r k _ => r.core = s.meId ∧ r.ctx = s.me.cur ∧ k = slot
        | _ => False
      let short (u : State) : Prop :=
        (d ≠ 0#5 → ∃ t, exec (.gbar d slot) s = .next t ∧ Wrote u t d 1#64 0#5 (s.cx.pc + 4#64))
        ∧ (d = 0#5 → exec (.gbar d slot) s = .next (u.trap { cause := .waitTimeout }))
        ∧ exec (.gred d a op slot) s = .next (u.trap { cause := .waitTimeout })
      let turned (j : Instr) : Prop :=
        (s.cx.op.phase ≠ 9 → s.cx.op.phase ≠ 1 → s.groupAt s.meId slot.toNat = none → exec j s = .next (s.trap { cause := .illegal }))
        ∧ (s.cx.op.phase ≠ 9 → ∀ g, s.groupAt s.meId slot.toNat = some g → s.arrivalOut g s.meId = true →
            exec j s = .next (s.trap { cause := .illegal }))
        ∧ (s.cx.op.phase = 9 → s.cx.op.status = some 2 → exec j s = .next (s.trap { cause := .illegal }))
      let u := s.acquireLines s.meId s.me.cur (BitVec.ofNat 2 s.cx.op.aux)
      arrives (.gbar d slot) 0 0#64 ∧ arrives (.gred d a op slot) (1 + op.toNat) (s.cx.rg a)
      ∧ turned (.gbar d slot) ∧ turned (.gred d a op slot)
      ∧ (s.cx.op.phase = 9 → s.cx.op.status = some 0 →
          (∃ t, exec (.gbar d slot) s = .next t ∧ Wrote u t d 0#64 0#5 (s.cx.pc + 4#64))
          ∧ (∀ v, s.cx.op.result = some v → ∃ t, exec (.gred d a op slot) s = .next t ∧ Wrote u t d v 0#5 (s.cx.pc + 4#64)))
      ∧ (s.cx.op.phase = 9 → s.cx.op.status = some 1 → short s)
      ∧ (s.cx.op.phase = 1 → s.groupAt s.meId slot.toNat = none → short s)
      ∧ (s.cx.op.phase = 9 → s.cx.op.status = none → s.cx.waitlim.toNat ≤ s.cx.op.elapsed.toNat →
          (coming → ∀ j ∈ [Instr.gbar d slot, .gred d a op slot], ∃ t, exec j s = .next t ∧ Waits s t (.group slot) true 9)
          ∧ (¬coming → ∀ g, s.groupAt s.meId slot.toNat = some g → short (s.onGroup g (fun g =>
              let l := g.arrivals.filter (fun a => g.members[a.1]? ≠ some s.meId)
              { g with arrivals := l, kind := if l.isEmpty then none else g.kind }))))
      ∧ (s.cx.op.phase = 9 → s.cx.op.status = none → s.cx.op.elapsed.toNat < s.cx.waitlim.toNat →
          ∀ j ∈ [Instr.gbar d slot, .gred d a op slot], ∃ t, exec j s = .next t ∧ Waits s t (.group slot) true 9))
  ∧ (∀ (op fuel : Nat) (x y : Word) (r : List Word),
      combineAll op fuel [x] = x
      ∧ (r.length + 2 ≤ fuel → combineAll op fuel (x :: y :: r) = combineAll op fuel (combineRound op (x :: y :: r)))
      ∧ combineRound op (x :: y :: r) = combine op x y :: combineRound op r ∧ combineRound op [x] = [x] ∧ combineRound op [] = []
      ∧ combine 0 x y = x + y ∧ combine 1 x y = BitVec.ofInt 64 (max x.toInt y.toInt) ∧ combine 2 x y = BitVec.ofInt 64 (min x.toInt y.toInt)
      ∧ combine 3 x y = BitVec.ofNat 64 (fAdd 0#3 (BitVec.ofNat 32 x.toNat) (BitVec.ofNat 32 y.toNat)).v.toNat
      ∧ combine 4 x y = BitVec.ofNat 64 (fMax (BitVec.ofNat 32 x.toNat) (BitVec.ofNat 32 y.toNat)).v.toNat
      ∧ combine 5 x y = BitVec.ofNat 64 (fMin (BitVec.ofNat 32 x.toNat) (BitVec.ofNat 32 y.toNat)).v.toNat
      ∧ (∀ l l' : List (Nat × Req × Word), l.Perm l' → (l.map (·.1)).Nodup →
          ∀ rank, operandOf l rank = operandOf l' rank))

/-- The pipe instructions (R62, R68, R346, R347): QWAIT and QFREE complete with status 0 where the fill count or the credits suffice,
QWAIT with an acquire at the pipe's scope, then with 2 where the far end is closed, 3 or PIPE_BROKEN where it is broken, 1 or
WAIT_TIMEOUT when WAITLIM is over, and wait otherwise; QSTAT gives the state word of any handle and never traps on it.
QADV and QCLOSE (R64, R146, R346, R380): after a release at the pipe's scope, QADV moves the end's index by n modulo the slot count,
takes n from the consumer's fill count or the producer's credits, and tells an open far end; more slots than it has raise ILLEGAL, and
0 only retires. QCLOSE marks the end closed and sends its departure; a broken pipe stays broken. Bytes and registers stay.
Where the manual leaves a clause open, the model's choice is that of log entries 8 and 14. -/
def Obligations.PipeInstructionsComplete : Prop :=
  (∀ (q : BitVec 3) (a d : BitVec 5) (i : BitVec 10) (p : PipeEnd) (s : State), s.cx.mayG d = true →
      let n := if a = 0#5 then i.toNat else (s.cx.rg a).toNat
      let bound := s.cx.qbound.getLsbD q.toNat = true ∧ s.me.pipes[q.toNat] = some p
      let open_ := bound ∧ p.closedHere = false
      let ends (j : Instr) (u : State) (code : Nat) : Prop := ∃ t, exec j s = .next t ∧ Wrote u t d (BitVec.ofNat 64 code) 0#5 (s.cx.pc + 4#64)
      let waits (j : Instr) (have_ : Nat) (u : State) : Prop :=
        (n = 0 → ends j s 0)
        ∧ (0 < n → n ≤ have_ → ends j u 0)
        ∧ (have_ < n → p.state = 1 → ends j s 2)
        ∧ (have_ < n → p.state = 2 → (d ≠ 0#5 → ends j s 3) ∧ (d = 0#5 → exec j s = .next (s.trap { cause := .pipeBroken })))
        ∧ (have_ < n → p.state = 0 → s.cx.waitlim.toNat ≤ s.cx.op.elapsed.toNat →
            (d ≠ 0#5 → ends j s 1) ∧ (d = 0#5 → exec j s = .next (s.trap { cause := .waitTimeout })))
        ∧ (have_ < n → p.state = 0 → s.cx.op.elapsed.toNat < s.cx.waitlim.toNat → ∃ t, exec j s = .next t ∧ Waits s t (.pipe q) true 0)
      let word := (if p.producer then 2 ^ 30 else 0) + p.state * 2 ^ 28 + p.lsz * 2 ^ 24 + p.slots * 2 ^ 16 + p.pos * 2 ^ 8
        + (if p.producer then p.credits else s.me.fillOf p) % 2 ^ 8
      (open_ → p.producer = false → n ≤ p.slots → waits (.qwait q a d i) (s.me.fillOf p) (s.acquireLines s.meId s.me.cur (scopeOf s.meId p.far)))
      ∧ (open_ → p.producer = true → n ≤ p.slots → waits (.qfree q a d i) p.credits s)
      ∧ (open_ → (p.producer = true ∨ p.slots < n) → exec (.qwait q a d i) s = .next (s.trap { cause := .illegal }))
      ∧ (open_ → (p.producer = false ∨ p.slots < n) → exec (.qfree q a d i) s = .next (s.trap { cause := .illegal }))
      ∧ ((s.cx.qbound.getLsbD q.toNat = false ∨ s.me.pipes[q.toNat] = none ∨ (bound ∧ p.closedHere = true)) →
          ∀ j ∈ [Instr.qwait q a d i, .qfree q a d i, .qadv q a i, .qclose q], exec j s = .next (s.trap { cause := .illegal }))
      ∧ (bound → ∃ t, exec (.qstat q d) s = .next t ∧ Wrote s t d (BitVec.ofNat 64 word) 0#5 (s.cx.pc + 4#64))
      ∧ (s.cx.qbound.getLsbD q.toNat = false → ∃ t, exec (.qstat q d) s = .next t ∧ Wrote s t d (BitVec.ofNat 64 (3 * 2 ^ 28)) 0#5 (s.cx.pc + 4#64)))
  ∧ (∀ (q : BitVec 3) (a : BitVec 5) (i : BitVec 10) (p : PipeEnd) (s : State),
      let n := if a = 0#5 then i.toNat else (s.cx.rg a).toNat
      let have_ := if p.producer then p.credits else s.me.fillOf p
      let sc := scopeOf s.meId p.far
      let u := s.afterRelease sc 1
      let told (t : State) (l : List Body) : Prop := t.net.map (·.body) = u.net.map (·.body) ++ l
      let stays (t : State) : Prop := t.cx.g = s.cx.g ∧ t.cx.pc = s.cx.pc + 4#64 ∧ t.cx.st = .ready ∧ ∀ x, t.byteAt x = u.byteAt x
      s.cx.qbound.getLsbD q.toNat = true → s.me.pipes[q.toNat] = some p → p.closedHere = false →
        (n = 0 → ∃ t, exec (.qadv q a i) s = .next t ∧ Passed s t (s.cx.pc + 4#64))
        ∧ (have_ < n → exec (.qadv q a i) s = .next (s.trap { cause := .illegal }))
        ∧ (0 < n → n ≤ have_ → s.mayRelease sc 1 → ∃ t, exec (.qadv q a i) s = .next t ∧ stays t
            ∧ (p.producer = false → t.me.pipes[q.toNat] = some { p with pos := (p.pos + n) % p.slots } ∧ t.me.fillOf p = s.me.fillOf p - n
                ∧ told t [.pipe p.far p.farQ (s.me.gang.getD 0) (.credits n)])
            ∧ (p.producer = true → t.me.pipes[q.toNat] = some { p with pos := (p.pos + n) % p.slots, credits := p.credits - n,
                                                                       reserved := if p.mode = 0 then p.reserved else p.reserved + n }
                ∧ told t (if p.state = 0 then [.pipe p.far p.farQ (s.me.gang.getD 0) (if p.mode = 0 then .fill n else .reserve n)] else [])))
        ∧ (s.mayRelease sc 1 → ∃ t, exec (.qclose q) s = .next t ∧ stays t
            ∧ t.me.pipes[q.toNat] = some { p with closedHere := true, state := if p.state = 0 then 1 else p.state }
            ∧ told t [.depart p.far p.farQ (s.me.gang.getD 0) true]))

/-- RDSR (R135, R171, R251, R259, R260): each register of the table completes with the value that the manual gives it; a supervisor's register
needs supervisor mode, FFLAGS waits for the context's vector commands, and a number outside the table raises ILLEGAL. During an upcall
the fault registers are those of the parked context.
WRSR (R154, R169, R176, R194, R251, R259, R261, R377): a writable register takes the whole value and nothing else changes; a tenant's
register changes for its whole tenant. A read-only register, or a value that sets a bit the register does not have, raises ILLEGAL.
Where the manual leaves a clause open, the model's choice is that of log entry 14. -/
def Obligations.SpecialRegisters : Prop :=
  (∀ (d : BitVec 5) (s : State),
      let x := s.cx
      let gives (n : Nat) (v : Word) : Prop := x.mayG d = true → ∃ t, exec (.rdsr d (BitVec.ofNat 8 n)) s = .next t ∧ Wrote s t d v 0#5 (x.pc + 4#64)
      let bit (b : Bool) (k : Nat) : Nat := if b then 2 ^ k else 0
      gives 0x00 (BitVec.ofNat 64 (s.meId.toNat * 2 ^ 32 + bit x.sup 8 + s.me.cur.toNat))
      ∧ (∀ t, s.ownerOf s.meId = some t → gives 0x01 (BitVec.ofNat 64 t.id))
      ∧ gives 0x02 s.me.gangReg ∧ gives 0x03 s.me.grp[0] ∧ gives 0x04 s.me.grp[1] ∧ gives 0x05 s.me.grp[2] ∧ gives 0x06 s.me.grp[3]
      ∧ gives 0x08 s.cycle
      ∧ (x.vq = [] → gives 0x09 (BitVec.ofNat 64 x.fflags.toNat))
      ∧ (x.vq ≠ [] → ∃ t, exec (.rdsr d 9#8) s = .next t ∧ Waits s t .vectorFlags false 0)
      ∧ gives 0x0A (BitVec.ofNat 64 x.frm.toNat) ∧ gives 0x0B x.scaleBase ∧ gives 0x0C x.scaleOrg
      ∧ (s.me.cur ≠ 3#2 → gives 0x0D x.faultCause ∧ gives 0x0E x.faultAddr ∧ gives 0x0F x.faultPc)
      ∧ (∀ c, s.me.cur = 3#2 → x.act.svc = some c → c.index = 254#8 →
          let y := s.me.ctx (BitVec.ofNat 2 c.g3.toNat)
          gives 0x0D y.faultCause ∧ gives 0x0E y.faultAddr ∧ gives 0x0F y.faultPc)
      ∧ gives 0x10 (BitVec.ofNat 64 (x.unack.clu % 2 ^ 16 + x.unack.die % 2 ^ 16 * 2 ^ 16 + x.unack.mod % 2 ^ 16 * 2 ^ 32 + x.unack.sys % 2 ^ 16 * 2 ^ 48))
      ∧ gives 0x11 (BitVec.ofNat 64 (s.me.outbox.length * 2 ^ 8 + s.heldNow.length))
      ∧ gives 0x12 s.me.ringNext ∧ gives 0x13 x.waitlim ∧ gives 0x14 (BitVec.ofNat 64 (bit x.dzt 0)) ∧ gives 0x15 x.lgtbase
      ∧ gives 0x16 (BitVec.ofNat 64 s.me.replays.toNat)
      ∧ (x.sup = true → gives 0x20 s.me.htbase ∧ ∀ t, s.ownerOf s.meId = some t →
          gives 0x21 t.ptroot ∧ gives 0x22 (BitVec.ofNat 64 (t.ranges.headD (0, 0)).1) ∧ gives 0x23 t.savebase
          ∧ gives 0x24 (BitVec.ofNat 64 ((t.ranges.headD (0, 0)).1 + 0x10000)) ∧ gives 0x25 t.faultq ∧ gives 0x26 t.lgtempl ∧ gives 0x27 t.pbudget)
      ∧ (∀ n : BitVec 8, (n.toNat = 7 ∨ 0x17 ≤ n.toNat ∧ n.toNat < 0x20 ∨ 0x28 ≤ n.toNat) →
          ∀ j ∈ [Instr.rdsr d n, .wrsr d n], exec j s = .next (s.trap { cause := .illegal })))
  ∧ (∀ (a : BitVec 5) (s : State),
      let v := s.cx.rg a
      let n := v.toNat
      let sets (k : Nat) (u : State) : Prop := ∃ t, exec (.wrsr a (BitVec.ofNat 8 k)) s = .next t ∧ Passed u t (s.cx.pc + 4#64)
      let bad (k : Nat) : Prop := exec (.wrsr a (BitVec.ofNat 8 k)) s = .next (s.trap { cause := .illegal })
      let onTenants (f : Tenant → Tenant) : State :=
        { s with tenants := s.tenants.map (fun t => if t.id = s.tenantNo s.meId then f t else t) }
      (s.cx.vq = [] → (n < 32 → sets 0x09 (s.onCx (fun x => { x with fflags := BitVec.ofNat 5 n }))) ∧ (32 ≤ n → bad 0x09))
      ∧ (n < 4 → sets 0x0A (s.onCx (fun x => { x with frm := BitVec.ofNat 3 n }))) ∧ (4 ≤ n → bad 0x0A)
      ∧ sets 0x0B (s.onCx (fun x => { x with scaleBase := v })) ∧ sets 0x0C (s.onCx (fun x => { x with scaleOrg := v }))
      ∧ sets 0x13 (s.onCx (fun x => { x with waitlim := v }))
      ∧ (n < 2 → sets 0x14 (s.onCx (fun x => { x with dzt := decide (n = 1) }))) ∧ (2 ≤ n → bad 0x14)
      ∧ sets 0x15 (s.onCx (fun x => { x with lgtbase := v }))
      ∧ (∀ k ∈ [0x00, 0x01, 0x02, 0x03, 0x04, 0x05, 0x06, 0x08, 0x0D, 0x0E, 0x0F, 0x10, 0x11, 0x12, 0x16], bad k)
      ∧ (s.cx.sup = true →
          (v &&& ~~~0x000FFFFFFFFFF001#64 = 0#64 → sets 0x21 (onTenants (fun t => { t with ptroot := v })))
          ∧ (v &&& ~~~0x000FFFFFFFFE0001#64 = 0#64 → sets 0x23 (onTenants (fun t => { t with savebase := v })))
          ∧ (v &&& ~~~0x000FFFFFFFFFF01F#64 = 0#64 → sets 0x25 (onTenants (fun t => { t with faultq := v })))
          ∧ (v &&& ~~~0x000FFFFFFFFFFFC1#64 = 0#64 → sets 0x26 (onTenants (fun t => { t with lgtempl := v })))
          ∧ (n ≤ 1000 → sets 0x27 (onTenants (fun t => { t with pbudget := v }))) ∧ (1000 < n → bad 0x27)
          ∧ (v &&& ~~~0x000FFFFFFFFFF001#64 ≠ 0#64 → bad 0x21) ∧ (v &&& ~~~0x000FFFFFFFFE0001#64 ≠ 0#64 → bad 0x23)
          ∧ (v &&& ~~~0x000FFFFFFFFFF01F#64 ≠ 0#64 → bad 0x25) ∧ (v &&& ~~~0x000FFFFFFFFFFFC1#64 ≠ 0#64 → bad 0x26)
          ∧ bad 0x20 ∧ bad 0x22 ∧ bad 0x24))

/-- ERET, IDLE, RESUME and SHOOT (R314, R331, R172, R162): ERET goes to g[a] in user mode; IDLE waits once for an event and then retires;
RESUME in the service context readies a parked context at its instruction or past it and returns 0, or 1 for a context that is not
parked; SHOOT, after its release, sends one request to every home and core that holds anything of the tenant and returns the number of
its cores when the last acknowledgement has come.
Where the manual leaves a clause open, the model's choice is that of log entries 8, 14, 32 and 68. -/
def Obligations.SystemInstructionsComplete : Prop :=
  ∀ (d a : BitVec 5) (z : BitVec 2) (k : BitVec 1) (s : State),
    let v := s.cx.rg a
    let item := branchItem (v - s.cx.pc)
    let j : CtxId := BitVec.ofNat 2 v.toNat
    let y := s.me.ctx j
    let up := { y with st := CtxState.ready, op := {}, pc := if k = 1#1 then y.pc + BitVec.ofNat 64 y.width else y.pc }
    (s.cx.sup = true → s.mayLog item → ∃ t, exec (.eret a) s = .next t
      ∧ Passed ((s.logged item).onCx (fun x => { x with sup := false })) t v)
    ∧ (s.cx.op.phase ≠ 1 → ∃ t, exec .idle s = .next t ∧ Waits s t .idle false 1)
    ∧ (s.cx.op.phase = 1 → ∃ t, exec .idle s = .next t ∧ Passed s t (s.cx.pc + 4#64))
    ∧ (s.me.cur = 3#2 → v.toNat ≤ 2 → s.cx.mayG d = true →
        (y.st = .parked → ∃ t, exec (.resume d a k) s = .next t ∧ Wrote { s with me := s.me.setCtx j up } t d 0#64 0#5 (s.cx.pc + 4#64))
        ∧ (y.st ≠ .parked → ∃ t, exec (.resume d a k) s = .next t ∧ Wrote s t d 1#64 0#5 (s.cx.pc + 4#64)))
    ∧ ((s.me.cur ≠ 3#2 ∨ 2 < v.toNat) → exec (.resume d a k) s = .next (s.trap { cause := .illegal }))
    ∧ (s.cx.sup = true → s.cx.mayG d = true → inWindow (addrOf v 0#64) = false →
        (s.cx.op.phase ≠ 9 → s.mayRelease 2#2 1 → ∀ tn, (s.afterRelease 2#2 1).ownerOf (s.afterRelease 2#2 1).meId = some tn →
          let u := s.afterRelease 2#2 1
          let lg := if z = 0#2 then 12 else if z = 1#2 then 16 else if z = 2#2 then 21 else 30
          let base := addrOf v 0#64 / 2 ^ lg * 2 ^ lg
          let r := u.reqOf u.meId u.me.cur
          let asks (all : Bool) (va : Nat) : List Body :=
            if (u.shootHomes tn).isEmpty then (u.busyCores tn).map (fun c => Body.shootReq c true tn.id all va lg r)
            else (u.shootHomes tn).map (fun h => Body.shootReq h false tn.id all va lg r)
          ∀ i ∈ [(Instr.shoot d a z, asks false base), (.shootAll d z, asks true 0)],
            ∃ t, exec i.1 s = .next t ∧ t.cx.st = .waiting ∧ t.cx.op.wait = .shoot ∧ t.cx.op.phase = 9 ∧ t.cx.op.aux = i.2.length
              ∧ t.cx.op.result = some (BitVec.ofNat 64 (u.presentCount tn)) ∧ t.cx.g = s.cx.g ∧ t.cx.pc = s.cx.pc
              ∧ t.net.map (·.body) = u.net.map (·.body) ++ i.2)
        ∧ (s.cx.op.phase = 9 → s.cx.op.aux = 0 → ∀ n, s.cx.op.result = some n → ∀ i ∈ [Instr.shoot d a z, .shootAll d z],
            ∃ t, exec i s = .next t ∧ Wrote s t d n 0#5 (s.cx.pc + 4#64))
        ∧ (s.cx.op.phase = 9 → s.cx.op.aux ≠ 0 → ∀ i ∈ [Instr.shoot d a z, .shootAll d z], ∃ t, exec i s = .next t ∧ Waits s t .shoot false 9))

/-- VATCFG (R125 to R127, R367): in supervisor mode, past its release at mod and with the block read, it completes with the status of the
request and its effect. A reserved bit of the block or of a share entry gives 3, then a vat that is or is not defined already 4, one that is changing 1, a bad share or shares that overlap 2,
a bad member, die or placement 3, and too few free ways 5; otherwise the status is 0. A define with status 0
leaves the vat being defined with the block's fields; a resize gives it a new generation and keeps the old one; a retire leaves it
retiring; and then no core of the tenant holds its cached record.
Where the manual leaves a clause open, the model's choice is that of log entries 8, 14, 71 and 108. -/
def Obligations.VatConfigCompletes : Prop :=
  ∀ (d a : BitVec 5) (s : State) (tn : Tenant), s.cx.sup = true → s.cx.mayG d = true → addrOf (s.cx.rg a) 0#64 % 64 = 0 → s.mayRelease 2#2 1 →
    s.cx.op.got.length = 8 →
    let u := s.afterRelease 2#2 1
    u.ownerOf u.meId = some tn →
    let w (i : Nat) : Word := (s.cx.op.got[i]?).getD 0#64
    let n := (w 0).toNat % 1024
    let old : Vat := (tn.vat? n).getD { index := n }
    let after (op : VatOp) : State := (u.vatServe tn op w).1
    let status (op : VatOp) : Nat := (u.vatServe tn op w).2
    let ends (j : Instr) (op : VatOp) : Prop := ∃ t, exec j s = .next t ∧ Wrote (after op) t d (BitVec.ofNat 64 (status op)) 0#5 (s.cx.pc + 4#64)
    let count := (w 3).toNat % 2 ^ 18
    let read := u.readPhysN tn (w 2).toNat count
    let same (op : VatOp) (k : Nat) : Prop := status op = k ∧ after op = if op = .retire ∨ count = 0 ∨ vatBlockBad op w = true then u else read.1
    let clean (op : VatOp) : Prop := vatBlockBad op w = false ∧ (op ≠ .retire → 0 < count → ∀ e ∈ read.2.1, shareReserved e = false)
    let free (op : VatOp) : Prop := clean op ∧ (op = .define → old.valid = false ∧ old.defining = false) ∧ (op ≠ .define → old.valid = true ∧ old.state = 0)
    let lsz (op : VatOp) : BitVec 2 := if op = .define then BitVec.ofNat 2 ((w 1).toNat / 16) else old.lsz
    let found (op : VatOp) : List Share × Nat := u.chooseShares tn (lsz op) (((w 5).toNat + 2 ^ (lsz op).toNat - 1) / 2 ^ (lsz op).toNat) (u.banksByHeat tn)
    let gen (op : VatOp) : VatGen := { list := (w 2).toNat, shares := if count = 0 then (found op).1 else read.2.1.map shareOf
                                       named := if (w 3).getLsbD 52 then some (coreIn (w 3)) else none, gen := if op = .define then old.cur.gen else old.cur.gen + 1#16 }
    let bad (op : VatOp) : Prop := 0 < count ∧ ((∃ e ∈ read.2.1, read.1.shareBad tn (if op = .resize then some n else none) (lsz op) (shareOf e) = true)
      ∨ sharesOverlap (read.2.1.map shareOf) = true)
    let odd (op : VatOp) : Bool := vatShapeBad (if op = .define then BitVec.ofNat 2 (w 1).toNat else old.dpl) (if op = .define then BitVec.ofNat 32 (w 4).toNat else old.dies) (gen op)
    let lacks (op : VatOp) : Prop := count = 0 ∧ (found op).2 ≠ 0
    let vat (op : VatOp) : Option Vat := ((after op).tenant tn.id).bind (fun t => t.vat? n)
    ends (.vatcfgDefine d a) .define ∧ ends (.vatcfgResize d a) .resize ∧ ends (.vatcfgRetire d a) .retire
    ∧ (∀ op, vatBlockBad op w = true → same op 3)
    ∧ (∀ op ∈ [VatOp.define, .resize], 0 < count → (∃ e ∈ read.2.1, shareReserved e = true) → status op = 3)
    ∧ (clean .define → (old.valid || old.defining) = true → same .define 4)
    ∧ (∀ op ∈ [VatOp.resize, .retire], clean op → (old.valid = false → same op 4)
        ∧ (old.valid = true → old.state ≠ 0 → same op 1))
    ∧ (∀ op ∈ [VatOp.define, .resize], free op → (bad op → same op 2) ∧ (¬bad op → odd op = true → same op 3) ∧ (odd op = false → lacks op → same op 5)
        ∧ (¬bad op → odd op = false → ¬lacks op → status op = 0))
    ∧ (free .retire → status .retire = 0)
    ∧ (u.tenant tn.id = some tn →
        (free .retire → vat .retire = some { old with state := 2 })
        ∧ (status .define = 0 → ∃ v, vat .define = some v ∧ v.cur = gen .define ∧ v.defining = true ∧ v.valid = old.valid ∧ v.lsz = BitVec.ofNat 2 ((w 1).toNat / 16)
            ∧ v.wpol = BitVec.ofNat 2 ((w 1).toNat / 4) ∧ v.dpl = BitVec.ofNat 2 (w 1).toNat ∧ v.dies = BitVec.ofNat 32 (w 4).toNat)
        ∧ (status .resize = 0 → ∃ v, vat .resize = some v ∧ v.old = some old.cur ∧ v.cur = gen .resize ∧ v.state = 1
            ∧ v.lsz = old.lsz ∧ v.wpol = old.wpol))
    ∧ (∀ op ∈ [VatOp.resize, .retire], status op = 0 → ∀ c, tn.clusters.contains (clusterOf c) = true → n ∉ ((after op).core c).vatCache)

/-- LGBIND (R219 to R221, R336): in supervisor mode, past its release at mod and with the block read, it completes with its status: 3 for a
reserved bit or a bad size, 1 for a core that the tenant does not own, 2 for one that is bound already or not bound, 4 for a ring that is
not pinned, 5 for a worker with an activation. A bind with status 0 makes the binding that the block describes and opens the ring; an
unbind ends the worker's binding.
Where the manual leaves a clause open, the model's choice is that of log entries 8 and 124. -/
def Obligations.LifeguardBindingCompletes : Prop :=
  ∀ (d a : BitVec 5) (s : State), s.cx.sup = true → s.cx.mayG d = true → addrOf (s.cx.rg a) 0#64 % 64 = 0 → s.mayRelease 2#2 1 →
    let u := s.afterRelease 2#2 1
    let w (i : Nat) : Word := (s.cx.op.got[i]?).getD 0#64
    let b := bindingOf w
    let owned (c : CoreId) : Prop := (u.ownerOf c).map (·.id) = some (u.tenantNo u.meId)
    let ends (j : Instr) (v : State) (k : Nat) : Prop := ∃ t, exec j s = .next t ∧ Wrote v t d (BitVec.ofNat 64 k) 0#5 (s.cx.pc + 4#64)
    (s.cx.op.got.length = 8 →
      let j := Instr.lgbindBind d a
      (lgBlockBad w = true → ends j u 3)
      ∧ (lgBlockBad w = false → (¬owned b.worker ∨ ¬owned b.guard ∨ b.worker = b.guard) → ends j u 1)
      ∧ (lgBlockBad w = false → owned b.worker → owned b.guard → b.worker ≠ b.guard →
          ((u.isBound b.worker = true ∨ u.isBound b.guard = true) → ends j u 2)
          ∧ (u.isBound b.worker = false → u.isBound b.guard = false →
            ((u.core b.guard).ringPinned b.ringOff (2 ^ b.rsz) = false → ends j u 4)
            ∧ ((u.core b.guard).ringPinned b.ringOff (2 ^ b.rsz) = true →
              ((∃ k ∈ allCtx, (u.ctxAt b.worker k).st ≠ .free) → ends j u 5)
              ∧ ((∀ k ∈ allCtx, (u.ctxAt b.worker k).st = .free) →
                  ends j { u.onCore b.guard (fun c => { c with ringOff := b.ringOff, ringLen := 2 ^ b.rsz }) with bindings := u.bindings ++ [b] } 0)))))
    ∧ (s.cx.op.got.length = 1 →
      let j := Instr.lgbindUnbind d a
      let c := coreIn (w 0)
      (notCoreWord (w 0) = true → ends j u 3)
      ∧ (notCoreWord (w 0) = false → ¬owned c → ends j u 1)
      ∧ (notCoreWord (w 0) = false → owned c → u.workerBinding c = none → ends j u 2)
      ∧ (∀ x, notCoreWord (w 0) = false → owned c → u.workerBinding c = some x → ends j (u.endBinding x) 0
          ∧ ∀ y ∈ (u.endBinding x).bindings, y.worker ≠ x.worker))

/-- LGNEXT (R226): a core that is no lifeguard gets status 2; with an empty ring it waits, and gets status 1 or WAIT_TIMEOUT when WAITLIM is
over; a second reader raises ILLEGAL. Otherwise the next record goes to g1 to g6 with status 0, its bytes are given back to the worker, and
the reader jumps to the word that it loads from LGTBASE + 8 × type.
LGVERD and LGSTAT (R227, R228, R337): the reader's verdict on a record that is not delivered yet gives status 1, a fail on one already
passed 3, a fail on one that is not the last delivered 2, and sends nothing; a fail otherwise, and the first pass of a record, send one
verdict to the worker with status 0. LGSTAT gives the worker's or the lifeguard's view of the ring, and 0 in no binding.
Where the manual leaves a clause open, the model's choice is that of log entries 8, 14 and 99. -/
def Obligations.LifeguardReaderCompletes : Prop :=
  (∀ (d : BitVec 5) (s : State), d.toNat = 0 ∨ 6 < d.toNat → s.me.cur ≠ 3#2 → s.cx.mayG d = true →
      let i := Instr.lgnext d
      (s.guardBinding s.meId = none → ∃ t, exec i s = .next t ∧ Wrote s t d 2#64 0#5 (s.cx.pc + 4#64))
      ∧ (∀ b, s.guardBinding s.meId = some b →
          let reads := b.reader = none ∨ b.reader = some (s.me.cur, s.cx.act.serial)
          let u := s.onBinding b.worker (fun x => { x with reader := some (s.me.cur, s.cx.act.serial) })
          let v := b.view s.me.localMem ((b.history.find? (fun h => h.seq = b.nextDel)).any (·.aq))
          let at_ := addrOf (s.cx.lgtbase + BitVec.ofNat 64 (8 * v.type)) 0#64
          (¬reads → exec i s = .next (s.trap { cause := .illegal }))
          ∧ (reads → b.readTotal = b.shown →
              (s.cx.op.elapsed.toNat < s.cx.waitlim.toNat → ∃ t, exec i s = .next t ∧ Waits u t .ring true 0)
              ∧ (s.cx.waitlim.toNat ≤ s.cx.op.elapsed.toNat → (d ≠ 0#5 → ∃ t, exec i s = .next t ∧ Wrote u t d 1#64 0#5 (s.cx.pc + 4#64))
                  ∧ (d = 0#5 → exec i s = .next (u.trap { cause := .waitTimeout }))))
          ∧ (reads → b.readTotal ≠ b.shown → s.cx.mayAll [1#5, 2#5, 3#5, 4#5, 5#5, 6#5, d] = true → s.cx.op.phase = 0 → ∀ off,
              s.reachesSelf at_ 8 false off → s.me.localBad off 8 = false → s.cx.rel = [] →
              ∃ t, exec i s = .next t ∧ t.cx.pc = BitVec.ofNat 64 (s.me.localRead off 8) ∧ t.cx.st = .ready
                ∧ t.cx.rg 1#5 = BitVec.ofNat 64 v.type ∧ t.cx.rg 2#5 = v.g2 ∧ t.cx.rg 3#5 = v.g3 ∧ t.cx.rg 4#5 = v.g4
                ∧ t.cx.rg 5#5 = BitVec.ofNat 64 b.nextDel ∧ t.cx.rg 6#5 = v.g6 ∧ t.cx.rg d = 0#64
                ∧ (∀ n, 6 < n.toNat → n ≠ d → t.cx.rg n = s.cx.rg n)
                ∧ t.net.getLast?.map (·.body) = some (.readPointer b.worker ((b.rp + v.used) % 2 ^ b.rsz) (b.readTotal + v.used)))))
  ∧ (∀ (d a b n : BitVec 5) (s : State), s.cx.mayG d = true →
      let seq := (s.cx.rg a).toNat % 2 ^ 32
      let fail := s.cx.rg b = 1#64
      let i := Instr.lgverd d a b
      let dist (k : Nat) : Nat := (k + (2 ^ 32 - 1)) % 2 ^ 32
      (∀ x, s.guardBinding s.meId = some x → (s.cx.rg b).toNat ≤ 1 → x.reader = some (s.me.cur, s.cx.act.serial) →
        let ends (u : State) (k : Nat) : Prop := ∃ t, exec i s = .next t ∧ Wrote u t d (BitVec.ofNat 64 k) 0#5 (s.cx.pc + 4#64)
        let told (u : State) (r : Option LogRec) : State := u.sendPacket 1#2 u.cx.act.pri (.verdict x.worker seq r)
        ((x.readTotal = 0 ∨ dist x.lastDel < dist seq) → ends s 1)
        ∧ (x.readTotal ≠ 0 → dist seq ≤ dist x.lastDel → ¬fail → covers x.sent seq = true → ends s 0)
        ∧ (x.readTotal ≠ 0 → dist seq ≤ dist x.lastDel → ¬fail → covers x.sent seq = false → ends (told (s.onBinding x.worker (fun y => { y with sent := some seq })) none) 0)
        ∧ (x.readTotal ≠ 0 → dist seq ≤ dist x.lastDel → fail → covers x.sent seq = true → ends s 3)
        ∧ (x.readTotal ≠ 0 → dist seq ≤ dist x.lastDel → fail → covers x.sent seq = false → seq ≠ x.lastDel → ends s 2)
        ∧ (x.readTotal ≠ 0 → dist seq ≤ dist x.lastDel → fail → covers x.sent seq = false → seq = x.lastDel → ∀ r, x.history.find? (fun h => h.seq = seq) = some r →
            ends (told s (some r)) 0))
      ∧ (s.guardBinding s.meId = none → exec i s = .next (s.trap { cause := .illegal }))
      ∧ (∀ x, s.guardBinding s.meId = some x → (1 < (s.cx.rg b).toNat ∨ x.reader ≠ some (s.me.cur, s.cx.act.serial)) →
          exec i s = .next (s.trap { cause := .illegal }))
      ∧ (let ends (v : Nat) : Prop := ∃ t, exec (.lgstat d n) s = .next t ∧ Wrote s t d (BitVec.ofNat 64 v) 0#5 (s.cx.pc + 4#64)
         let bit (p : Bool) (k : Nat) : Nat := if p then 2 ^ k else 0
         (s.guardBinding s.meId = none → s.workerBinding s.meId = none → ends 0)
         ∧ (∀ x, s.guardBinding s.meId = some x → x.rp < 2 ^ 16 → x.wp < 2 ^ 16 → x.sent.getD 0 < 2 ^ 32 →
             (n = 0#5 → ends (x.nextDel * 2 ^ 32 + x.wp * 2 ^ 16 + x.rp))
             ∧ (n ≠ 0#5 → ends (2 ^ 63 + bit x.ovf 61 + x.worker.toNat * 2 ^ 32 + x.sent.getD 0)))
         ∧ (∀ x, s.guardBinding s.meId = none → s.workerBinding s.meId = some x → x.pass.getD 0 < 2 ^ 32 →
             (n = 0#5 → ends (x.nextLog * 2 ^ 32 + x.wp * 2 ^ 16 + x.rpSeen))
             ∧ (n ≠ 0#5 → ends (2 ^ 62 + bit x.ovf 61 + x.guard.toNat * 2 ^ 32 + x.pass.getD 0)))))

/-- The vector operations and the tile moves (R34, R208, R317, R358, R359): with its tiles and mask settled and room in the context's
queue, each is logged as ENGINE (its summary without a register a is log entry 70), declares the tiles it writes, joins the vector queue with the mask, the rounding mode and the register
that it read at issue, and retires; no tile, register or byte changes. It waits for its tiles or for the queue, raises ACC_ORPHAN for an
orphaned source and ILLEGAL beyond the declared tiles.
Where the manual leaves a clause open, the model's choice is that of log entries 14, 16 and 70. -/
def Obligations.VectorInstructionsIssue : Prop :=
  ∀ (d a b : BitVec 3) (r : BitVec 4) (m k o : BitVec 2) (c : BitVec 3) (f v : BitVec 5) (s : State),
    let zero (i : Instr) : Instr × Word := (i, 0#64)
    ∀ j ∈ [Instr.vadd d a b r m, .vsub d a b r m, .vmul d a b r m, .vfma d a b r m, .vmin d a b r m, .vmax d a b r m, .vabs d a r m,
           .vneg d a r m, .vdiv d a b r m, .vrsqrt d a r m, .vexp2 d a r m, .vlog2 d a r m, .vcmp a b r m k c, .vsel d a b r m, .vredsum d a r m,
           .vredmax d a r m, .vshuf d a b r m, .viadd d a b r m, .vimul d a b r m, .vlogic d a b r m o, .vshift d a b r m o, .vcvt d a r m o,
           .venc d a r m f, .vdec d a r m f, .tmov d a r m, .tzero d r].map zero ++ [(.tbcast d r m v, s.cx.rg v)],
      let i := j.1
      let q : EngCmd := { op := i, serial := s.cx.act.serial, user := !s.cx.sup, word0 := word0 i, pc := s.cx.pc, x := j.2, mask := s.cx.mask (shapeOf i).mask,
                          frm := s.cx.frm, scaleBase := s.cx.scaleBase, scaleOrg := s.cx.scaleOrg }
      (s.mayTile i → s.cx.vq.length < 2 → s.mayLog (engineRecord i j.2) →
        ∃ t, exec i s = .next t ∧ QueuesVector (s.engineLogged i j.2) t i q)
      ∧ (s.cx.mayTiles (shapeOf i).writes = false → exec i s = .next (s.trap { cause := .illegal }))
      ∧ (s.cx.mayTiles (shapeOf i).writes = true → s.cx.tileBusy i = true →
          ∃ t, exec i s = .next t ∧ Waits s t .scoreboard false s.cx.op.phase)
      ∧ (s.cx.mayTiles (shapeOf i).writes = true → s.cx.tileBusy i = false → ∀ x, s.cx.orphans.find? (fun x => (shapeOf i).reads.contains x.tile) = some x →
          let tile := BitVec.ofNat 64 (x.word0.toNat * 2 ^ 32 + x.engine.toNat * 2 ^ 8 + x.tile.toNat)
          exec i s = .next (s.trap { cause := .accOrphan, addr := tile }))
      ∧ (s.mayTile i → 2 ≤ s.cx.vq.length → ∃ t, exec i s = .next t ∧ Waits s t .engineQueue false s.cx.op.phase)

/-- What the lane-wise vector commands and the tile moves do when they complete (R200, R358, R360, R365, R366, R369 to R371, R374): in each
computed lane of the named rows the operation on the source lanes, under the mode captured at issue, with every source read before
anything is written; VFMA takes its accumulator from the destination, and VSHUF the source lane that the index lane names modulo 16.
Where the manual leaves a clause open, the model's choice is that of log entry 16. -/
def Obligations.LaneCommandsComplete : Prop :=
  ∀ (d a b : BitVec 3) (r : BitVec 4) (m o : BitVec 2) (v : BitVec 5) (c : CoreId) (k : CtxId) (q : EngCmd) (s : State), s.vectorNext c k q →
    let x := s.ctxAt c k
    let core := s.core c
    let A := x.lane a
    let B := x.lane b
    let rows := if r = 15#4 then List.range 8 else [r.toNat]
    let bare (w : Lane) : FOut := { v := w }
    let done (i : Instr) (mask : BitVec 16) (g : Nat → Nat → FOut) : Prop :=
      q.op = i → ∃ t, exec (.vectorCommandDone c k false) s = .next t ∧ LanesDone s t c k d rows mask g
    let two (i : Instr) (g : Lane → Lane → FOut) : Prop := done i q.mask (fun r l => g (A r l) (B r l))
    let one (i : Instr) (g : Lane → FOut) : Prop := done i q.mask (fun r l => g (A r l))
    two (.vadd d a b r m) (fAdd q.frm) ∧ two (.vsub d a b r m) (fSub q.frm) ∧ two (.vmul d a b r m) (fMul q.frm)
    ∧ two (.vdiv d a b r m) (fDiv q.frm) ∧ two (.vmin d a b r m) fMin ∧ two (.vmax d a b r m) fMax
    ∧ done (.vfma d a b r m) q.mask (fun r l => fFma q.frm (A r l) (B r l) (x.lane d r l))
    ∧ one (.vabs d a r m) (fun w => bare (if isNan w then 0x7FC00000#32 else BitVec.ofNat 32 (w.toNat % 2 ^ 31)))
    ∧ one (.vneg d a r m) (fun w => bare (if isNan w then 0x7FC00000#32 else w ^^^ 0x80000000#32))
    ∧ one (.vrsqrt d a r m) (fRsqrt q.frm) ∧ one (.vexp2 d a r m) (fExp2 q.frm) ∧ one (.vlog2 d a r m) (fLog2 q.frm)
    ∧ done (.vshuf d a b r m) q.mask (fun r l => bare (A r ((B r l).toNat % 16)))
    ∧ two (.viadd d a b r m) (fun v w => bare (BitVec.ofInt 32 (v.toInt + w.toInt)))
    ∧ two (.vimul d a b r m) (fun v w => bare (BitVec.ofInt 32 (v.toInt * w.toInt)))
    ∧ two (.vlogic d a b r m 0#2) (fun v w => bare (v &&& w)) ∧ two (.vlogic d a b r m 1#2) (fun v w => bare (v ||| w))
    ∧ two (.vlogic d a b r m 2#2) (fun v w => bare (v ^^^ w)) ∧ two (.vlogic d a b r m 3#2) (fun v w => bare (v &&& ~~~w))
    ∧ two (.vshift d a b r m 0#2) (fun v w => bare (BitVec.ofNat 32 (v.toNat * 2 ^ (w.toNat % 32))))
    ∧ two (.vshift d a b r m 1#2) (fun v w => bare (BitVec.ofNat 32 (v.toNat / 2 ^ (w.toNat % 32))))
    ∧ two (.vshift d a b r m 2#2) (fun v w => bare (BitVec.ofInt 32 (v.toInt / 2 ^ (w.toNat % 32))))
    ∧ two (.vshift d a b r m 3#2) (fun v w => bare (v >>> (w.toNat % 32) ||| v <<< (32 - w.toNat % 32)))
    ∧ one (.vcvt d a r m 0#2) (fun w => { v := BitVec.ofInt 32 (fToInt q.frm 32 w).1, f := (fToInt q.frm 32 w).2 })
    ∧ one (.vcvt d a r m 1#2) (fun w => intToF q.frm w.toInt)
    ∧ one (.vcvt d a r m 2#2) (fun w => { v := toF19 w, f := f19Flags w })
    ∧ one (.venc d a r m 3#5) (fun w => bare (BitVec.ofNat 32 (encodeC8 core.dtab core.nanCode core.sat w)))
    ∧ one (.venc d a r m 5#5) (fun w => bare (BitVec.ofNat 32 (encodeC4 core.itab w.toInt)))
    ∧ one (.venc d a r m 6#5) (fun w => bare (BitVec.ofInt 32 (max (-128) (min 127 w.toInt))))
    ∧ one (.vdec d a r m 3#5) (fun w => bare (decodeC8 core.dtab core.nanCode (BitVec.ofNat 8 w.toNat)))
    ∧ one (.vdec d a r m 5#5) (fun w => bare (BitVec.ofInt 32 (core.itab.toList[w.toNat % 16]?.getD 0#8).toInt))
    ∧ one (.vdec d a r m 6#5) (fun w => bare (BitVec.ofInt 32 (BitVec.ofNat 8 w.toNat).toInt))
    ∧ one (.tmov d a r m) bare
    ∧ done (.tzero d r) (BitVec.allOnes 16) (fun _ _ => bare 0#32)
    ∧ done (.tbcast d r m v) q.mask (fun _ _ => bare (BitVec.ofNat 32 q.x.toNat))
    ∧ done (.vsel d a b r o) (BitVec.allOnes 16) (fun r l => bare (if q.mask.getLsbD l then A r l else B r l))

/-- VCMP, VREDSUM, VREDMAX and TEXT (R199, R359, R360, R368, R372): a VCMP that completes writes its mask register, in each computed lane
the comparison, for a whole tile in all eight rows, raises NV for a signalling NaN under EQ and NE and for any NaN under LT and LE, and changes no tile; a reduction writes lane 0 of each named row with the value of the
fixed tree, in which a lane that is not computed enters as −0 or −∞; TEXT gives lane 0 of a row to a register at issue, logged as ENGINE with summary 0 (log entry 70).
The fixed tree of the reductions (R199): lanes 2i and 2i + 1 at the first level, then the results pairwise, in four levels.
Where the manual leaves a clause open, the model's choice is that of log entries 16 and 70. -/
def Obligations.MaskAndReductionCommandsComplete : Prop :=
  (∀ (d a b : BitVec 3) (r : BitVec 4) (m n : BitVec 2) (v : BitVec 5) (c : CoreId) (k : CtxId) (q : EngCmd) (s : State),
      let x := s.ctxAt c k
      let rows := if r = 15#4 then List.range 8 else [r.toNat]
      let compares (cnd : BitVec 3) (p nv : Lane → Lane → Bool) : Prop :=
        s.vectorNext c k q → n ≠ 0#2 → q.op = .vcmp a b r m n cnd → ∃ t, exec (.vectorCommandDone c k false) s = .next t
          ∧ (∀ l < 16, ((t.ctxAt c k).mask n).getLsbD l = true ↔
              (if q.mask.getLsbD l then ∀ i ∈ rows, p (x.lane a i l) (x.lane b i l) = true else (x.mask n).getLsbD l = true))
          ∧ (∀ i < 5, (t.ctxAt c k).fflags.getLsbD i = true ↔
              x.fflags.getLsbD i = true ∨ i = 4 ∧ ∃ r ∈ rows, ∃ l < 16, q.mask.getLsbD l = true ∧ nv (x.lane a r l) (x.lane b r l) = true)
          ∧ (∀ j, j ≠ n → (t.ctxAt c k).mask j = x.mask j) ∧ (t.ctxAt c k).t = x.t ∧ (t.ctxAt c k).g = x.g ∧ (∀ p, t.byteAt p = s.byteAt p)
      let reduces (i : Instr) (unit : Lane) (g : Lane → Lane → FOut) : Prop :=
        s.vectorNext c k q → q.op = i → ∃ t, exec (.vectorCommandDone c k false) s = .next t
          ∧ LanesDone s t c k d rows 1#16 (fun row _ => tree16 g ((List.range 16).map (fun l => if q.mask.getLsbD l then x.lane a row l else unit)))
      let quiet (y z : Lane) : Bool := isSig y || isSig z
      let loud (y z : Lane) : Bool := isNan y || isNan z
      compares 0#3 fEqB quiet ∧ compares 1#3 (fun y z => !fEqB y z) quiet ∧ compares 2#3 fLtB loud ∧ compares 3#3 fLeB loud
      ∧ reduces (.vredsum d a r m) 0x80000000#32 (fAdd q.frm) ∧ reduces (.vredmax d a r m) 0xFF800000#32 fMax
      ∧ (let i := Instr.text a r v
         let u := s.engineLogged i 0#64
         (s.cx.mayG v = true → s.mayTile i → s.cx.readsPoison i = false → s.mayLog (engineRecord i 0#64) →
           ∃ t, exec i s = .next t ∧ Wrote u t v (BitVec.ofNat 64 (s.cx.lane a r.toNat 0).toNat) 0#5 (u.cx.pc + 4#64))
         ∧ (s.cx.mayG v = true → s.mayTile i → s.cx.readsPoison i = true → exec i s = .next (s.killUncorrectable s.meId s.me.cur { cause := .uncorrectable }))))
  ∧ (∀ (g : Lane → Lane → FOut) (w : Nat → Lane),
      let v (x y : Lane) : Lane := (g x y).v
      let p (i : Nat) : Lane := v (w (2 * i)) (w (2 * i + 1))
      let q (i : Nat) : Lane := v (p (2 * i)) (p (2 * i + 1))
      (tree16 g ((List.range 16).map w)).v = v (v (q 0) (q 1)) (v (q 2) (q 3)))

/-- EWAIT and ESTAT (R236, R315, R316): EWAIT waits until the selected engines have ended every command of the activation, dies of poison that a
copy of the activation has read, and otherwise acquires at the widest scope that completed vector and copy commands wrote, and retires;
ESTAT gives the counts and marks of the selected engines.
Where the manual leaves a clause open, the model's choice is that of log entries 14 and 16. -/
def Obligations.EngineWaitsComplete : Prop :=
  ∀ (d : BitVec 5) (e : BitVec 3) (s : State),
    let x := s.cx
    let on (i : Nat) : Bool := (if e = 0#3 then 7#3 else e).getLsbD i
    let mine (l : List EngCmd) : Prop := ∃ q ∈ l, q.serial = x.act.serial
    let busy : Prop := on 0 = true ∧ mine x.mq ∨ on 1 = true ∧ mine x.vq ∨ on 2 = true ∧ ∃ q ∈ x.cq, q.serial = x.act.serial ∧ q.handed = false
    let reached := widen (if on 1 then x.vScope else none) (if on 2 then x.cScope else none)
    let bit (b : Bool) (k : Nat) : Nat := if b then 2 ^ k else 0
    (busy → ∃ t, exec (.ewait e) s = .next t ∧ Waits s t .engines false x.op.phase)
    ∧ (¬busy → on 2 = true → x.act.poisoned = true →
        exec (.ewait e) s = .next (s.killUncorrectable s.meId s.me.cur { cause := .uncorrectable }))
    ∧ (¬busy → (on 2 = true → x.act.poisoned = false) → ∃ t, exec (.ewait e) s = .next t
        ∧ (reached = none → Passed s t (x.pc + 4#64))
        ∧ (∀ sc, reached = some sc → Passed (s.acquireLines s.meId s.me.cur sc) t (x.pc + 4#64)))
    ∧ (x.mayG d = true → ∃ t, exec (.estat d e) s = .next t ∧ Wrote s t d
        (BitVec.ofNat 64 ((if on 0 then x.mq.length + bit x.mflt 2 else 0) + (if on 1 then x.vq.length * 2 ^ 4 + bit x.vflt 6 else 0)
          + (if on 2 then x.cq.length * 2 ^ 8 + bit (x.cq.any (·.handed)) 10 else 0))) 0#5 (x.pc + 4#64))

/-- TLD and TST at issue (R67, R192, R263, R362): with the tile settled, room in the queue and every byte of its span checked, each is logged as
ENGINE with register a, joins the vector queue with its base, format and what its span reaches, and retires. A format above 7 raises
FORMAT, and a base that is no multiple of 8 or a span that leaves the pipe's slot ALIGN.
What TLD and TST do when they complete over the core's own memory (R100, R192, R235, R363): TLD gives each lane of the named rows the
element of its format and touches nothing else; TST stores the element of each lane, ORs the flags of a conversion to F19, and changes no
tile and no other byte.
Where the manual leaves a clause open, the model's choice is that of log entries 14, 16 and 70. -/
def Obligations.TileTransfers : Prop :=
  (∀ (t q : BitVec 3) (r : BitVec 4) (a : BitVec 5) (im : BitVec 10) (cv : BitVec 3) (s : State),
      let p := s.cx.rg a
      let offset : Word := im.signExtend 64 <<< 4
      let bytes (f : Nat) : Nat := (match f with | 3 | 4 | 6 => 16 | 5 => 8 | _ => 64) * (if r = 15#4 then 8 else 1)
      let goes (i : Instr) (k : Access) (base : Nat) (ptr : Word) (f : Nat) (inSlot : Prop) : Prop :=
        let n := bytes f
        let cmd (ch : List (Tgt × Nat)) (sc : List (Nat × Tgt)) : EngCmd :=
          { op := i, serial := s.cx.act.serial, user := !s.cx.sup, word0 := word0 i, pc := s.cx.pc, x := BitVec.ofNat 64 base, y := ptr, fmt := f, order := 2 * s.nextPkt
            mask := s.cx.mask 0#2, frm := s.cx.frm, scaleBase := s.cx.scaleBase, scaleOrg := s.cx.scaleOrg, chunks := ch, scales := sc }
        let queues (u : State) (c : EngCmd) : Prop :=
          u.mayLog (engineRecord i ptr) → ∃ v, exec i s = .next v ∧ QueuesVector (u.engineLogged i ptr) v i c
        let scales := scaleVas s.cx.scaleBase s.cx.scaleOrg ptr base n
        (s.cx.mayTiles (shapeOf i).writes = false → exec i s = .next (s.trap { cause := .illegal }))
        ∧ (s.cx.mayTiles (shapeOf i).writes = true → 8 ≤ f → exec i s = .next (s.trap { cause := .format }))
        ∧ (f < 8 → s.mayTile i → (base % 8 ≠ 0 ∨ ¬inSlot) →
            exec i s = .next (s.trap { cause := .align, write := k = .write, addr := BitVec.ofNat 64 base }))
        ∧ (f < 8 → s.mayTile i → base % 8 = 0 → inSlot → s.cx.vq.length < 2 →
            (∀ off, s.selfRange base n off → (f = 4 → ∀ v ∈ scales, ∃ o, s.reachesSelf v 1 false o) →
              ∃ ch, Covers ch off n ∧ queues s (cmd ch (if f = 4 then scales.map (fun v => (v, .self (v % 2 ^ 15))) else [])))
            ∧ (f ≠ 4 → base % 64 + n ≤ 64 →
                (∀ dst off, s.reachesCore base 1 dst off → queues s (cmd [(.core dst off, n)] []))
                ∧ (∀ e, s.reachesPage base 1 k e → queues (s.used e) (cmd [(.paged (e.xl base), n)] []))))
      let format := if cv = 1#3 then p.toNat / 2 ^ 60 else 0
      goes (.tld t r a im cv) .read (addrOf p offset) p format True
      ∧ goes (.tst t r a im cv) .write (addrOf p offset) p format True
      ∧ (∀ e, s.pipeEnd? q = some e →
          let base := addrOf (BitVec.ofNat 64 e.slotVa) offset
          let inSlot := e.slotVa ≤ base ∧ base + bytes 0 ≤ e.slotVa + 2 ^ e.lsz
          goes (.tldPipe t r q im) .read base 0#64 0 inSlot ∧ goes (.tstPipe t r q im) .write base 0#64 0 inSlot)
      ∧ (s.pipeEnd? q = none → exec (.tldPipe t r q im) s = .next (s.trap { cause := .illegal })
          ∧ exec (.tstPipe t r q im) s = .next (s.trap { cause := .illegal })))
  ∧ (∀ (t : BitVec 3) (r : BitVec 4) (a : BitVec 5) (im : BitVec 10) (cv p : BitVec 3) (c : CoreId) (k : CtxId) (q : EngCmd) (off : Nat) (s : State),
      let x := s.ctxAt c k
      let core := s.core c
      let whole := r = 15#4
      let rows := if whole then List.range 8 else [r.toNat]
      let row := match q.fmt with | 3 | 4 | 6 => 16 | 5 => 8 | _ => 64
      let n := row * (if whole then 8 else 1)
      let from_ (i : Nat) : Nat := off + row * (if whole then i else 0)
      let byte (o : Nat) : Byte := s.byteAt (.localMem c o)
      let scale (i l : Nat) : Int := match assoc? (scaleVa q.scaleBase q.scaleOrg q.y ((q.x.toNat + (from_ i - off) + l) % 2 ^ 57)) q.scales with
        | some (.self o) => (byte o).toInt
        | _ => 0
      s.vectorNext c k q → Covers q.chunks off n → core.sound off n → (r.toNat < 8 ∨ whole) → q.fmt < 8 →
      (∀ e ∈ q.scales, ∃ o, e.2 = .self o ∧ core.sound o 1) →
      ((q.op = .tld t r a im cv ∨ q.op = .tldPipe t r p im) → ∃ u, exec (.vectorCommandDone c k false) s = .next u
        ∧ LanesDone s u c k t rows (BitVec.allOnes 16) (fun i l => { v := match q.fmt with
            | 2 => toF19 (s.localWord c (from_ i + 4 * l))
            | 3 => decodeC8 core.dtab core.nanCode (byte (from_ i + l))
            | 4 => scaleF19 (scale i l) (decodeC8 core.dtab core.nanCode (byte (from_ i + l)))
            | 5 => ((core.itab.toList[(byte (from_ i + l / 2)).toNat / 16 ^ (l % 2) % 16]?).getD 0#8).signExtend 32
            | 6 => (byte (from_ i + l)).signExtend 32
            | _ => s.localWord c (from_ i + 4 * l) }))
      ∧ ((q.op = .tst t r a im cv ∨ q.op = .tstPipe t r p im) → ∃ u, exec (.vectorCommandDone c k false) s = .next u
        ∧ (let w (i l : Nat) : Lane := x.lane t i l
           let code (i l : Nat) : Nat := match q.fmt with
             | 2 => (toF19 (w i l)).toNat
             | 3 => encodeC8 core.dtab core.nanCode core.sat (w i l)
             | 4 => encodeC8 core.dtab core.nanCode core.sat (if isNan (w i l) then w i l else scaleF32 (-scale i l) (w i l))
             | 5 => encodeC4 core.itab (w i l).toInt
             | 6 => (BitVec.ofInt 8 (max (-128) (min 127 (w i l).toInt))).toNat
             | _ => (w i l).toNat
           (∀ i ∈ rows, ∀ j < row, u.byteAt (.localMem c (from_ i + j)) = BitVec.ofNat 8 (match row with
              | 8 => code i (2 * j) + 16 * code i (2 * j + 1)
              | 16 => code i j
              | _ => code i (j / 4) / 256 ^ (j % 4)))
           ∧ (∀ z, (∀ j < n, z ≠ .localMem c (off + j)) → u.byteAt z = s.byteAt z)
           ∧ (∀ e, (u.ctxAt c k).tile e = x.tile e) ∧ (u.ctxAt c k).g = x.g ∧ (u.ctxAt c k).vq = x.vq.tail
           ∧ (∀ j < 5, (u.ctxAt c k).fflags.getLsbD j = true ↔
                x.fflags.getLsbD j = true ∨ q.fmt = 2 ∧ ∃ i ∈ rows, ∃ l < 16, (f19Flags (w i l)).getLsbD j = true)))
      ∧ ((q.op = .tld t r a im cv ∨ q.op = .tldPipe t r p im) → ∃ u, exec (.vectorCommandDone c k true) s = .next u
        ∧ (u.ctxAt c k).vflt = true ∧ (∃ o ∈ (u.ctxAt c k).orphans, o.tile = t) ∧ (∀ e, (u.ctxAt c k).tile e = x.tile e) ∧ ∀ z, u.byteAt z = s.byteAt z))

/-- The matrix commands at issue (R201, R264, R300, R303, R342, R344, R361): with its tile settled, room in the queue and every byte that it
reads open in the core's own memory, each is logged as ENGINE, joins the matrix queue with what it captured, and retires past its two
words; a full queue stalls it. A stride that is no multiple of 4 raises ILLEGAL, a format outside R201 FORMAT, a misaligned address ALIGN, and an
operand outside the own memory WINDOW.
What the matrix commands do when they complete (R188, R201, R203 to R205, R207, R235, R300, R303, R344, R361): MMA, MMAS and MMAI write each
lane of the destination tile from the rows of A in the core's own memory and the latch; BLD fills its latch, TBLLD the decode table
with the NaN code and SAT, NTBLLD the integer table; BROT sends its latch to the core that RINGNEXT named. Nothing else changes.
Where the manual leaves a clause open, the model's choice is that of log entries 14, 16 and 70. -/
def Obligations.MatrixInstructions : Prop :=
  (∀ (t : BitVec 3) (a b c : BitVec 5) (l z sat nf : BitVec 1) (st : BitVec 16) (nan : BitVec 8) (s : State),
      let p := s.cx.rg a
      let x := p.toNat % 2 ^ 57
      let f := p.toNat / 2 ^ 60
      let m := s.cx.rg b
      let cmd (i : Instr) (x y : Word) (f : Nat) : EngCmd :=
        { op := i, serial := s.cx.act.serial, user := !s.cx.sup, word0 := word0 i, pc := s.cx.pc, x := x, y := y, fmt := f, mask := s.cx.mask 0#2
          frm := s.cx.frm, scaleBase := s.cx.scaleBase, scaleOrg := s.cx.scaleOrg }
      let opens (v : Nat × Nat) : Prop := ∃ off, s.selfBytes v.1 v.2 off
      let stops (i : Instr) (e : TrapInfo) : Prop := exec i s = .next (s.trap e)
      let issues (i : Instr) (spans : List (Nat × Nat)) (q : EngCmd) (a : Word) : Prop :=
        (s.mayTile i → (∀ v ∈ spans, opens v) → s.cx.mq.length < 2 → s.mayLog (engineRecord i a) →
          ∃ u, exec i s = .next u ∧ QueuesMatrix (s.engineLogged i a) u i q)
        ∧ (s.mayTile i → (∀ v ∈ spans, opens v) → 2 ≤ s.cx.mq.length → ∃ u, exec i s = .next u ∧ Waits s u .engineQueue false s.cx.op.phase)
      let shut (i : Instr) (va : Nat) : Prop := s.mayTile i → ¬opens (va, 1) → stops i { cause := .window, addr := BitVec.ofNat 64 va }
      let row (k : Nat) (len : Nat) : Nat × Nat := ((x + k * st.toNat) % 2 ^ 57, len)
      let scales (rows : List (Nat × Nat)) : List (Nat × Nat) :=
        if f = 4 then rows.flatMap (fun r => (scaleVas s.cx.scaleBase s.cx.scaleOrg p r.1 r.2).map (fun v => (v, 1))) else []
      let mac (i : Instr) (formats : List Nat) (len unit : Nat) (extra : List (Nat × Nat)) (k : Word) : Prop :=
        let rows := (List.range 8).map (fun k => row k len)
        (st.toNat % 4 ≠ 0 ∨ s.cx.mayTiles (shapeOf i).writes = false → stops i { cause := .illegal })
        ∧ (st.toNat % 4 = 0 → s.cx.mayTiles (shapeOf i).writes = true → f ∉ formats → stops i { cause := .format })
        ∧ (st.toNat % 4 = 0 → f ∈ formats → s.mayTile i → x % unit ≠ 0 → stops i { cause := .align, addr := BitVec.ofNat 64 x })
        ∧ (st.toNat % 4 = 0 → f ∈ formats → x % unit = 0 → (extra = [] ∨ k.toNat % 4 = 0) →
            issues i (rows ++ extra ++ scales rows) (cmd i k p f) p ∧ shut i x)
      let table (i : Instr) (n : Nat) : Prop :=
        (x % 64 ≠ 0 → stops i { cause := .align, addr := BitVec.ofNat 64 x })
        ∧ (x % 64 = 0 → issues i [(x, n)] (cmd i (BitVec.ofNat 64 x) 0#64 0) p ∧ shut i x)
      mac (.mma t a l z st) [0, 1, 2, 3, 4, 5, 6] (if f ≤ 2 then 128 else if f = 5 then 16 else 32) (if f ≤ 2 then 4 else 1) [] (s.cx.rg 0#5)
      ∧ mac (.mmas t a b l z st) [0, 1, 2, 3, 4, 5, 6] (if f ≤ 2 then 64 else if f = 5 then 8 else 16) (if f ≤ 2 then 4 else 1)
          [(m.toNat % 2 ^ 57, 32)] m
      ∧ mac (.mmai t a l z st) [0, 5, 6] (if f = 5 then 16 else 32) 1 [] (s.cx.rg 0#5)
      ∧ (let i := Instr.bld a l st
         let unit := if f ≤ 2 then 4 else 1
         let rows := (List.range 32).map (fun k => row k (if f ≤ 2 then 64 else if f = 5 then 8 else 16))
         (7 ≤ f → stops i { cause := .format })
         ∧ (f < 7 → (x % unit ≠ 0 ∨ st.toNat % unit ≠ 0) → stops i { cause := .align, addr := BitVec.ofNat 64 x })
         ∧ (f < 7 → x % unit = 0 → st.toNat % unit = 0 → issues i (rows ++ scales rows) (cmd i 0#64 p f) p ∧ shut i x))
      ∧ table (.tblld a sat nan) 1024 ∧ table (.ntblld a) 16
      ∧ (let i := Instr.brot l nf c
         ((s.me.ringNext = 0#64 ∨ nf = 0#1 ∧ c ≠ 0#5) → stops i { cause := .illegal })
         ∧ (s.me.ringNext ≠ 0#64 → (nf = 0#1 → c = 0#5) → issues i [] (cmd i s.me.ringNext 0#64 0) 0#64)))
  ∧ (∀ (t : BitVec 3) (a b cn : BitVec 5) (l z sat nf : BitVec 1) (st : BitVec 16) (nan : BitVec 8) (c : CoreId) (k : CtxId) (q : EngCmd) (s : State),
      let x := s.ctxAt c k
      let core := s.core c
      let va := q.y.toNat % 2 ^ 57
      let row (i : Nat) : Nat := (va + i * st.toNat) % 2 ^ 57
      let byte (v : Nat) : Byte := s.ownByte c (v % 2 ^ 57)
      let entry (n : Nat) : Int := ((core.itab.toList[n % 16]?).getD 0#8).toInt
      let scaleAt (v : Nat) : Nat := scaleVa q.scaleBase q.scaleOrg q.y (v % 2 ^ 57)
      let elem (r j : Nat) : Lane := match q.fmt with
        | 0 | 1 | 2 => toF19 (s.ownWord c (r + 4 * j))
        | 3 => decodeC8 core.dtab core.nanCode (byte (r + j))
        | 4 => scaleF19 (byte (scaleAt (r + j))).toInt (decodeC8 core.dtab core.nanCode (byte (r + j)))
        | 5 => (intToF 0#3 (entry ((byte (r + j / 2)).toNat / 16 ^ (j % 2)))).v
        | _ => (intToF 0#3 (byte (r + j)).toInt).v
      let number (r j : Nat) : Int := if q.fmt = 5 then entry ((byte (r + j / 2)).toNat / 16 ^ (j % 2)) else (byte (r + j)).toInt
      let latched (i j : Nat) : Lane := (core.latch l).at i j
      let acc (i j : Nat) : Lane := if z = 1#1 then 0#32 else x.lane t i j
      let dot (v : Lane) (a : Nat → Lane) (j : Nat) : Lane :=
        (List.range 8).foldl (fun v g => groupSum v ((List.range 4).map (fun i => product (a (4 * g + i)) (latched (4 * g + i) j)))) v
      let spread (mw : Nat) (e : Nat → Lane) (i : Nat) : Lane :=
        if mw / 2 ^ (4 * (i / 4) + 2) % 4 = i % 4 then e (2 * (i / 4) + 1)
        else if mw / 2 ^ (4 * (i / 4)) % 4 = i % 4 then e (2 * (i / 4)) else 0#32
      let whole (w : Lane) : Int := if isNan w then 0 else max (-128) (min 127 (fToInt 1#3 64 w).1)
      let sound (n len : Nat) : Prop := (∀ i < n, s.ownSound c (row i) len) ∧ (q.fmt = 4 → ∀ i < n, ∀ j < len, s.ownSound c (scaleAt (row i + j)) 1)
      let now : Memory × List Nat := (core.localMem, core.localPoison)
      let same (v : State) : Prop := core.sameLatches (v.core c) ∧ (v.core c).tables = core.tables
      let ends (load : Bool) (i : Instr) (u : State → Prop) : Prop := q.op = i → ∃ v, exec (.matrixCommandDone c k ⟨load, false⟩) s = .next v ∧ u v
        ∧ (v.ctxAt c k).mq = x.mq.tail ∧ (v.ctxAt c k).g = x.g ∧ (v.ctxAt c k).fflags = x.fflags ∧ (v.ctxAt c k).pc = x.pc ∧ ∀ p, v.byteAt p = s.byteAt p
      let tiles (v : State) : Prop := (v.ctxAt c k).t = x.t
      let accumulates (v : State) (out : Nat → Nat → Lane) : Prop :=
        (∀ r < 8, ∀ j < 16, (v.ctxAt c k).lane t r j = out r j) ∧ (∀ e, e ≠ t → (v.ctxAt c k).tile e = x.tile e) ∧ same v
      let clean : Prop := core.latchPoison.getLsbD l.toNat = false
      let macs (i : Instr) (len : Nat) (ok : Prop) (out : Nat → Nat → Lane) : Prop :=
        s.matrixNext c k q → clean → sound 8 len → ok → ends false i (fun v => accumulates v out)
      let m := q.x.toNat % 2 ^ 57
      macs (.mma t a l z st) (if q.fmt ≤ 2 then 128 else if q.fmt = 5 then 16 else 32) True (fun i j => dot (acc i j) (elem (row i)) j)
      ∧ macs (.mmas t a b l z st) (if q.fmt ≤ 2 then 64 else if q.fmt = 5 then 8 else 16) (s.ownSound c m 32)
          (fun i j => dot (acc i j) (spread (s.ownWord c (m + 4 * i)).toNat (elem (row i))) j)
      ∧ macs (.mmai t a l z st) (if q.fmt = 5 then 16 else 32) True
          (fun i j => acc i j + BitVec.ofInt 32 (((List.range 32).map (fun n => number (row i) n * whole (latched n j))).sum))
      ∧ (s.matrixRuns c k q → clean → q.op = .mma t a l z st → (∀ m ∈ q.seen, m.2 = []) → core.localPoison = [] →
          ∃ v, exec (.matrixCommandDone c k ⟨false, false⟩) s = .next v ∧ ∃ A : Nat → Nat → Lane,
            (∀ i n, ∃ m ∈ q.seen ++ [now], ∃ m' ∈ q.seen ++ [now], A i n = (core.seenBy q m).macElem (core.seenBy q m') q (row i) n)
            ∧ accumulates v (fun i j => dot (acc i j) (A i) j))
      ∧ (s.matrixNext c k q → sound 32 (if q.fmt ≤ 2 then 64 else if q.fmt = 5 then 8 else 16) → ends true (.bld a l st) (fun v => tiles v
          ∧ (∀ i < 32, ∀ j < 16, ((v.core c).latch l).at i j = elem (row i) j) ∧ (v.core c).latch (~~~l) = core.latch (~~~l)
          ∧ (v.core c).latchPoison.getLsbD l.toNat = false
          ∧ (v.core c).latchPoison.getLsbD (~~~l).toNat = core.latchPoison.getLsbD (~~~l).toNat ∧ (v.core c).tables = core.tables))
      ∧ (s.matrixNext c k q → s.ownSound c q.x.toNat 1024 → ends true (.tblld a sat nan) (fun v => tiles v ∧ (v.core c).nanCode = nan
          ∧ (v.core c).sat = decide (sat = 1#1) ∧ (v.core c).itab = core.itab ∧ core.sameLatches (v.core c)
          ∧ ∀ i < 256, (v.core c).dtab.toList[i]? = some (if i = nan.toNat then 0x7FC00000#32 else toF19 (s.ownWord c (q.x.toNat + 4 * i)))))
      ∧ (s.matrixNext c k q → s.ownSound c q.x.toNat 16 → ends true (.ntblld a) (fun v => tiles v ∧ core.sameLatches (v.core c)
          ∧ (v.core c).tables = { core.tables with itab := (v.core c).itab } ∧ ∀ i < 16, (v.core c).itab.toList[i]? = some (byte (q.x.toNat + i))))
      ∧ (s.matrixNext c k q → ends true (.brot l nf cn) (fun v => tiles v ∧ same v ∧ ∃ p, v.net = s.net ++ [p]
          ∧ p.body = .latch (coreIn q.x) c (core.gang.getD 0) (~~~l) (core.latch l) (core.latchPoison.getLsbD l.toNat) (nf = 1#1) cn))
      ∧ (s.matrixNext c k q → (∃ j ∈ [Instr.mma t a l z st, .mmas t a b l z st, .mmai t a l z st], q.op = j) →
          ∃ v, exec (.matrixCommandDone c k ⟨false, true⟩) s = .next v ∧ same v
          ∧ tiles v ∧ (v.ctxAt c k).mflt = true ∧ (∃ o ∈ (v.ctxAt c k).orphans, o.tile = t) ∧ ∀ p, v.byteAt p = s.byteAt p))

/-- The Gaussian instructions (R209 to R216): GACC, GUNPK, GPACK and GDAMP, with their tiles settled, room in the queue and their message in an
open part of the own memory, join the vector queue with the message's address, its dimension and what they read from registers. GELIM
completes at once: it writes the marginal of the joint in tile form, ORs its flags and changes nothing else, or raises SINGULAR with the
pair and the dimension of the failing pivot. Bad pairs, rows, dimensions and parameters raise ILLEGAL, and a misaligned message ALIGN.
What the queued Gaussian commands do when they complete (R209, R210, R212, R215, R216): GACC adds the message into the block of the joint at
its offset, in both triangles and in η, and changes no other lane; GUNPK writes the message in tile form, both triangles; GPACK writes the header,
η and the upper triangle of the rows as whole doublewords; GDAMP blends the two tiles in the lanes of its mask.
Where the manual leaves a clause open, the model's choice is that of log entries 14, 16, 19, 70, 96, 122 and 123. -/
def Obligations.GaussInstructions : Prop :=
  (∀ (d t : BitVec 3) (r : BitVec 4) (mk : BitVec 2) (a : BitVec 5) (s : State),
      let va := (s.cx.rg a).toNat % 2 ^ 57
      let stops (i : Instr) (e : TrapInfo) : Prop := exec i s = .next (s.trap e)
      let cmd (i : Instr) (x y : Word) (n : Nat) (m : BitVec 2) : EngCmd :=
        { op := i, serial := s.cx.act.serial, user := !s.cx.sup, word0 := word0 i, pc := s.cx.pc, x := x, y := y, fmt := n, mask := s.cx.mask m
          frm := s.cx.frm, scaleBase := s.cx.scaleBase, scaleOrg := s.cx.scaleOrg }
      let bytes (n : Nat) : Nat := match n with | 1 => 16 | 2 => 32 | 3 => 48 | 4 => 64 | 5 => 88 | _ => 120
      let queues (i : Instr) (q : EngCmd) : Prop := s.cx.vq.length < 2 → s.mayLog (engineRecord i (s.cx.rg a)) →
        ∃ v, exec i s = .next v ∧ QueuesVector (s.engineLogged i (s.cx.rg a)) v i q
      let reads (i : Instr) (limit : Nat) (ok : Prop) : Prop :=
        (¬ok → stops i { cause := .illegal })
        ∧ (ok → s.mayTile i → va % 8 ≠ 0 → stops i { cause := .align, addr := BitVec.ofNat 64 va })
        ∧ (ok → s.mayTile i → va % 8 = 0 → (¬∃ off, s.selfBytes va 1 off) →
            stops i { cause := .window, addr := BitVec.ofNat 64 va })
        ∧ (ok → s.mayTile i → va % 8 = 0 → s.ownSound s.meId va 4 → ∀ off, s.selfBytes va 8 off →
            let n := (s.ownWord s.meId va).toNat / 2 ^ 16 % 16
            ((n = 0 ∨ 6 < n ∨ limit < r.toNat + n) → stops i { cause := .illegal })
            ∧ (0 < n → n ≤ 6 → r.toNat + n ≤ limit → s.selfBytes va (bytes n) off → queues i (cmd i (BitVec.ofNat 64 va) 0#64 n 0#2)))
      reads (.gacc d r a) 12 (d.toNat % 2 = 0 ∧ r.toNat < 12) ∧ reads (.gunpk d r a) 8 (r.toNat < 8)
      ∧ (let i := Instr.gpack d r a
         let h := s.cx.rg (a + 1#5)
         let n := h.toNat / 2 ^ 16 % 16
         let ok := r.toNat < 8 ∧ a ≠ 31#5 ∧ 0 < n ∧ n ≤ 6 ∧ r.toNat + n ≤ 8
         (¬ok → stops i { cause := .illegal })
         ∧ (ok → s.mayTile i → va % 8 ≠ 0 → stops i { cause := .align, write := true, addr := BitVec.ofNat 64 va })
         ∧ (ok → s.mayTile i → va % 8 = 0 → ∀ off, s.selfBytes va (bytes n) off → queues i (cmd i (BitVec.ofNat 64 va) h n 0#2)))
      ∧ (let i := Instr.gdamp d t r mk a
         (7 < r.toNat → r ≠ 15#4 → stops i { cause := .illegal })
         ∧ ((r.toNat < 8 ∨ r = 15#4) → s.mayTile i → queues i (cmd i (s.cx.rg a) 0#64 0 mk)))
      ∧ (let i := Instr.gelim d t r a
         let p := (s.cx.rg a).toNat
         let dims := p % 16
         let o := p / 2 ^ 4 % 16
         let k := p / 2 ^ 8 % 16
         let J := s.cx.joint d
         let ok := d.toNat % 2 = 0 ∧ r.toNat < 8 ∧ p < 2 ^ 12 ∧ dims ≤ 12 ∧ 0 < k ∧ k ≤ 6 ∧ o + k ≤ dims ∧ r.toNat + k ≤ 8 ∧ t ≠ d ∧ t ≠ d + 1#3
         let gives (out : Nat → Nat → Lane) (f : BitVec 5) : Prop := ∃ v T, exec i s = .next v
           ∧ Passed ((s.engineLogged i (s.cx.rg a)).onCx (fun x => (x.setT t T).orFlags f)) v (s.cx.pc + 4#64)
           ∧ ∀ n < 8, ∀ l < 16, Tile.at T n l =
               if r.toNat ≤ n ∧ n < r.toNat + k then
                 (if l < k then out (min (n - r.toNat) l) (max (n - r.toNat) l) else if l = 12 then out (n - r.toNat) k else 0#32)
               else s.cx.lane t n l
         (¬ok → stops i { cause := .illegal })
         ∧ (ok → s.mayTile i → s.cx.vq ≠ [] → ∃ v, exec i s = .next v ∧ Waits s v .scoreboard false s.cx.op.phase)
         ∧ (ok → s.mayTile i → s.cx.vq = [] → s.cx.readsPoison i = true →
             exec i s = .next (s.killUncorrectable s.meId s.me.cur { cause := .uncorrectable }))
         ∧ (ok → s.mayTile i → s.cx.vq = [] → s.cx.readsPoison i = false → s.mayLog (engineRecord i (s.cx.rg a)) →
             (∀ out f, gelim J dims o k = .ok (out, f) → gives out f)
             ∧ (∀ j, gelim J dims o k = .error j → stops i { cause := .singular, addr := BitVec.ofNat 64 (j * 2 ^ 8 + d.toNat) })
             ∧ (dims = k → gives (fun y c => if c < k then J y c else J y 12) 0#5)
             ∧ (dims = 2 → o = 0 → k = 1 →
                 let tau := fMul 0#3 0x35800000#32 (J 1 1)
                 let L := fSqrt 0#3 (J 1 1)
                 let y := fDiv 0#3 (J 0 1) L.v
                 let e := fDiv 0#3 (J 1 12) L.v
                 let m := fFma 0#3 (fNeg y.v) y.v (J 0 0)
                 let n := fFma 0#3 (fNeg y.v) e.v (J 0 12)
                 (fLtB tau.v (J 1 1) = false → stops i { cause := .singular, addr := BitVec.ofNat 64 (2 ^ 8 + d.toNat) })
                 ∧ (fLtB tau.v (J 1 1) = true →
                     gives (fun _ c => if c = 0 then m.v else n.v) (tau.f ||| L.f ||| y.f ||| e.f ||| m.f ||| n.f))))))
  ∧ (∀ (d t : BitVec 3) (r : BitVec 4) (mk : BitVec 2) (a : BitVec 5) (c : CoreId) (k : CtxId) (q : EngCmd) (s : State), s.vectorNext c k q →
      let x := s.ctxAt c k
      let va := q.x.toNat
      let n := q.fmt
      let o := r.toNat
      let length := match n with | 1 => 16 | 2 => 32 | 3 => 48 | 4 => 64 | 5 => 88 | _ => 120
      let word (i : Nat) : Lane := s.ownWord c (va + 4 * i)
      let eta (i : Nat) : Lane := word (2 + i)
      let cell (i j : Nat) : Lane := word (2 + n + (min i j * n - min i j * (min i j - 1) / 2 + (max i j - min i j)))
      let runs (u : State → Prop) : Prop := ∃ v, exec (.vectorCommandDone c k false) s = .next v ∧ u v ∧ (v.ctxAt c k).vq = x.vq.tail
        ∧ (v.ctxAt c k).g = x.g ∧ (v.ctxAt c k).pc = x.pc
      let J := x.joint d
      (q.op = .gacc d r a → d.toNat % 2 = 0 → 0 < n → n ≤ 6 → o + n ≤ 12 → s.ownSound c va length → runs (fun v =>
        (∀ i < 16, ∀ l < 16, (v.ctxAt c k).joint d i l =
          if o ≤ i ∧ i < o + n ∧ l = 12 then (fAdd 0#3 (J i 12) (eta (i - o))).v
          else if o ≤ i ∧ i < o + n ∧ o ≤ l ∧ l < o + n then (fAdd 0#3 (J (min i l) (max i l)) (cell (i - o) (l - o))).v
          else J i l)
        ∧ (∀ e, e ≠ d → e ≠ d + 1#3 → (v.ctxAt c k).tile e = x.tile e) ∧ ∀ p, v.byteAt p = s.byteAt p))
      ∧ (q.op = .gunpk d r a → 0 < n → n ≤ 6 → o + n ≤ 8 → s.ownSound c va length → runs (fun v =>
        (∀ i < 8, ∀ l < 16, (v.ctxAt c k).lane d i l =
          if o ≤ i ∧ i < o + n then (if l < n then cell (i - o) l else if l = 12 then eta (i - o) else 0#32) else x.lane d i l)
        ∧ (∀ e, e ≠ d → (v.ctxAt c k).tile e = x.tile e) ∧ (v.ctxAt c k).fflags = x.fflags ∧ ∀ p, v.byteAt p = s.byteAt p))
      ∧ (q.op = .gpack d r a → 0 < n → n ≤ 6 → o + n ≤ 8 → va % 8 = 0 → va < 2 ^ 57 → (∀ i < length, (s.core c).area ((va + i) % 2 ^ 57 % 2 ^ 15) ≠ .spill) →
        runs (fun v =>
          let w (i : Nat) : Lane := v.ownWord c (va + 4 * i)
          w 0 = q.y.setWidth 32 ∧ w 1 = (q.y >>> 32).setWidth 32 ∧ (∀ i < n, w (2 + i) = x.lane d (o + i) 12)
          ∧ (∀ i < n, ∀ j < n, i ≤ j → w (2 + n + (i * n - i * (i - 1) / 2 + (j - i))) = x.lane d (o + i) j)
          ∧ ((n = 2 ∨ n = 3) → w (length / 4 - 1) = 0#32) ∧ (n = 6 → w 29 = 0#32)
          ∧ (∀ p, (∀ i < length, p ≠ .localMem c ((va + i) % 2 ^ 57 % 2 ^ 15)) → v.byteAt p = s.byteAt p)
          ∧ (v.ctxAt c k).t = x.t ∧ (v.ctxAt c k).fflags = x.fflags))
      ∧ (q.op = .gdamp d t r mk a → ∃ v, exec (.vectorCommandDone c k false) s = .next v
        ∧ LanesDone s v c k d (if r = 15#4 then List.range 8 else [o]) q.mask (fun i l =>
            let beta := q.x.setWidth 32
            let w := fSub 0#3 0x3F800000#32 beta
            let m := fMul 0#3 w.v (x.lane t i l)
            let z := fFma 0#3 beta (x.lane d i l) m.v
            { v := z.v, f := w.f ||| m.f ||| z.f })))

/-- CPY, CPYS and CPYG at issue (R310, R311): with the notice naming a core of the tenant, or with none, and with room in the queue, each is
logged as ENGINE with register a, joins the copy queue with the registers it captured, and retires past its two words. A bad notice value,
or a register without a notice, raises ILLEGAL, an lg above 6 likewise, a misaligned index list ALIGN, a core that the tenant does not own
WINDOW, and a full queue stalls it.
What CPY, CPYS and CPYG do when they complete over the core's own memory, where no byte is both written and read (R145, R173 to R175, R310 to R312): each
destination byte holds its source byte, for a CPY whose source has changed since it started the byte as it was then or as it is now, every other byte is as before, the queue entry is free, and a command with a notice sends it. A
command whose first destination byte is refused completes nothing: it is handed back, and handler 253 is queued with its descriptor.
Where the manual leaves a clause open, the model's choice is that of log entries 6, 14, 16, 17 and 19. -/
def Obligations.CopyInstructions : Prop :=
  (∀ (n a b : BitVec 5) (nf : BitVec 1) (len : BitVec 32) (rows bytes : BitVec 16) (lg : BitVec 4) (count : BitVec 28) (s : State),
      let x := s.cx
      let v := x.rg n
      let list := x.rg (a + 1#5)
      let valued : Prop := if nf = 0#1 then n = 0#5 else v.toNat < 2 ^ 52 ∧ v.toNat / 2 ^ 5 % 2 ^ 27 = 0
      let owned : Prop := (s.ownerOf (coreIn v)).map (·.id) = some (s.tenantNo s.meId)
      let stops (i : Instr) (e : TrapInfo) : Prop := exec i s = .next (s.trap e)
      let copies (i : Instr) (pair ok aligned : Prop) (sa sb : Word) : Prop :=
        let q : CopyCmd := { op := i, serial := x.act.serial, handler := x.act.handler, user := !x.sup, src := x.rg a, dst := x.rg b
                             notice := if nf = 1#1 then v else 0#64, sa := sa, sb := sb }
        let u := s.engineLogged i (x.rg a)
        (¬(valued ∧ ok) → stops i { cause := .illegal })
        ∧ (valued → ok → pair → ¬aligned → stops i { cause := .align, addr := BitVec.ofNat 64 (list.toNat % 2 ^ 57) })
        ∧ (valued → ok → aligned → nf = 1#1 → ¬owned → stops i { cause := .window })
        ∧ (valued → ok → aligned → (nf = 1#1 → owned) →
            (x.cq.length < 2 → s.mayLog (engineRecord i (x.rg a)) → ∃ t, exec i s = .next t
              ∧ Passed (u.onCx (fun y => { y with cq := y.cq ++ [q] })) t (x.pc + 8#64))
            ∧ (2 ≤ x.cq.length → ∃ t, exec i s = .next t ∧ Waits s t .engineQueue false x.op.phase))
      copies (.cpy n a b nf len) False True True 0#64 0#64
      ∧ copies (.cpys n a b nf rows bytes) False True True list (x.rg (b + 1#5))
      ∧ copies (.cpyg n a b nf lg count) True (lg.toNat ≤ 6) (list.toNat % 4 = 0) list (x.rg (b + 1#5)))
  ∧ (∀ (n a b : BitVec 5) (nf : BitVec 1) (len : BitVec 32) (rows bytes : BitVec 16) (lg : BitVec 4) (count : BitVec 28) (c : CoreId) (k : CtxId)
      (q : CopyCmd) (h r : List CopyCmd) (s : State),
      let core := s.core c
      (s.ctxAt c k).cq = h ++ q :: r → (∀ e ∈ h, e.handed = true) → q.handed = false → s.savingAt c = false →
      let unchanged : Prop := ∀ x, q.seen = some x → x.mem = core.localMem
      let ready : Prop := q.cancelled = false ∧ (q.started = true ∧ unchanged ∨ core.nextCopyTurn = some k)
      let at_ (w : Word) (i : Nat) : Nat := (w.toNat + i) % 2 ^ 57
      let off (va : Nat) : Nat := va % 2 ^ 15
      let apart (x m y o : Nat) : Prop := off x + m ≤ off y ∨ off y + o ≤ off x
      let reads (va m : Nat) : Prop := s.opens c va m (off va) ∧ core.sound (off va) m
      let writes (va m : Nat) : Prop := s.opens c va m (off va) ∧ ∀ j < m, core.area (off va + j) ≠ .spill
      let moves (i : Instr) (list : List Nat) (pieces : List (Nat × Nat)) (m : Nat) : Prop := q.op = i → ready →
        (∀ l ∈ list, reads l 4) →
        (∀ p ∈ pieces, reads p.1 m ∧ writes p.2 m ∧ (∀ l ∈ list, apart p.2 m l 4) ∧ ∀ z ∈ pieces, apart p.2 m z.1 m) →
        pieces.Pairwise (fun p z => apart p.2 m z.2 m) →
        ∃ t, exec (.copyCommandDone c k) s = .next t
          ∧ (∀ p ∈ pieces, ∀ j < m, t.byteAt (.localMem c (off p.2 + j)) = s.byteAt (.localMem c (off p.1 + j)))
          ∧ (∀ z, (∀ p ∈ pieces, ∀ j < m, z ≠ .localMem c (off p.2 + j)) → t.byteAt z = s.byteAt z)
          ∧ (t.ctxAt c k).cq = h ++ r ∧ (t.ctxAt c k).g = (s.ctxAt c k).g ∧ (t.ctxAt c k).t = (s.ctxAt c k).t
          ∧ (nf = 0#1 → t.net = s.net)
          ∧ (nf = 1#1 → ∃ p, t.net = s.net ++ [p] ∧ p.body = .notice (coreIn q.notice) c (core.gang.getD 0) q.notice)
      moves (.cpy n a b nf len) [] [(at_ q.src 0, at_ q.dst 0)] len.toNat
      ∧ (q.done = 0 → moves (.cpys n a b nf rows bytes) []
          ((List.range rows.toNat).map (fun i => (at_ q.src (i * q.sa.toNat), at_ q.dst (i * q.sb.toNat)))) bytes.toNat)
      ∧ (lg.toNat ≤ 6 → moves (.cpyg n a b nf lg count) ((List.range count.toNat).map (fun i => at_ q.sa (4 * i)))
          ((List.range count.toNat).map (fun i =>
            (at_ q.src ((s.ownWord c (at_ q.sa (4 * i))).toNat * 2 ^ lg.toNat), at_ q.dst (i * 2 ^ lg.toNat)))) (2 ^ lg.toNat))
      ∧ (∀ x, q.op = .cpy n a b nf len → q.started = true → q.cancelled = false → q.seen = some x → reads (at_ q.src 0) len.toNat →
          writes (at_ q.dst 0) len.toNat → apart (at_ q.dst 0) len.toNat (at_ q.src 0) len.toNat → ∃ t, exec (.copyCommandDone c k) s = .next t
          ∧ (∀ j < len.toNat, t.byteAt (.localMem c (off (at_ q.dst 0) + j)) = s.byteAt (.localMem c (off (at_ q.src 0) + j))
              ∨ t.byteAt (.localMem c (off (at_ q.dst 0) + j)) = x.mem.get (off (at_ q.src 0) + j))
          ∧ (∀ z, (∀ j < len.toNat, z ≠ .localMem c (off (at_ q.dst 0) + j)) → t.byteAt z = s.byteAt z) ∧ (t.ctxAt c k).cq = h ++ r)
      ∧ (q.op = .cpy n a b nf len → q.started = true → unchanged → q.cancelled = true → reads (at_ q.src 0) len.toNat → writes (at_ q.dst 0) len.toNat →
          apart (at_ q.dst 0) len.toNat (at_ q.src 0) len.toNat → ∃ t p, exec (.copyCommandDone c k) s = .next t ∧ p % 64 = 0 ∧ p ≤ len.toNat
          ∧ (∀ j < p, t.byteAt (.localMem c (off (at_ q.dst 0) + j)) = s.byteAt (.localMem c (off (at_ q.src 0) + j)))
          ∧ (∀ z, (∀ j < p, z ≠ .localMem c (off (at_ q.dst 0) + j)) → t.byteAt z = s.byteAt z)
          ∧ (t.ctxAt c k).cq = h ++ r ∧ t.net = s.net)
      ∧ (q.op = .cpy n a b nf len → q.started = true → q.cancelled = false → 0 < len.toNat → reads (at_ q.src 0) 1 → inWindow (at_ q.dst 0) = true → windowTarget c (at_ q.dst 0) = none →
          (core.entry? 253#8).isSome = true →
          exec (.copyCommandDone c k) s = .next s
          ∧ ∃ t, exec (.copyHandback c k) s = .next t ∧ (t.ctxAt c k).cq = h ++ { q with handed := true, started := false, seen := none } :: r
            ∧ (∀ z, t.byteAt z = s.byteAt z) ∧ t.net = s.net ∧ ∃ task, (t.core c).svcq = core.svcq ++ [task] ∧ task.index = 253#8
              ∧ task.g3 = BitVec.ofNat 64 k.toNat ∧ task.copyCtx = some k
              ∧ task.desc = [BitVec.ofNat 64 ((word0 q.op).toNat + 2 ^ 32 * len.toNat), q.src, q.dst, q.notice, 0#64, 0#64,
                             BitVec.ofNat 64 (at_ q.dst 0), BitVec.ofNat 64 (causeCode .window + 2 ^ 8)]))

/-- GRPCFG (R85, R86, R329, R330): in either mode, past its release at mod and with its block and list read, it completes with its status, and a
nonzero status changes nothing. A reserved bit or too many members give 4, a core outside the gang or listed twice 2, a slot that is bound at
a member, or for an unbind is not bound at the issuer, 3, no free id 1. A bind takes the lowest id free on every die of a member and sets the slot of each
member to its rank, and of no other core; an unbind clears the slot at every member and ends the group. Slots 0 and 1 raise ILLEGAL.
Where the manual leaves a clause open, the model's choice is that of log entries 8, 35 and 66. -/
def Obligations.GroupConfigCompletes : Prop :=
  ∀ (d a : BitVec 5) (slot : BitVec 2) (s : State),
    let i := Instr.grpcfg d a slot
    (slot.toNat < 2 → exec i s = .next (s.trap { cause := .illegal }))
    ∧ (2 ≤ slot.toNat → s.cx.mayG d = true → s.mayRelease 2#2 1 → (s.cx.rg a).toNat % 64 = 0 →
      let u := s.afterRelease 2#2 1
      let got := s.cx.op.got
      let w (j : Nat) : Word := (got[j]?).getD 0#64
      let n := (w 0).toNat % 2 ^ 20
      let gang := u.me.gang.getD 0
      let cores := ((u.gang? gang).elim [] (·.members)).map (·.core)
      let bad : Prop := 2 ^ 20 ≤ (w 0).toNat ∨ (∃ j, 2 ≤ j ∧ j < 8 ∧ w j ≠ 0#64) ∨ cores.length < n
      let ends (v : State) (k : Nat) : Prop := ∃ t, exec i s = .next t ∧ Wrote v t d (BitVec.ofNat 64 k) 0#5 (s.cx.pc + 4#64)
      let list := got.drop 8
      let ms := list.map coreIn
      let bound (m : CoreId) : Prop := (((u.core m).grp.toList[slot.toNat]?).getD 0#64).getLsbD 63 = true
      let free (id : Nat) : Prop := id < 256 ∧ ∀ g ∈ u.groups, g.id = id → ∀ m ∈ g.members, ∀ z ∈ ms, dieOf m ≠ dieOf z
      (got.length = 8 → (bad → ends u 4)
        ∧ (¬bad → n = 0 → (u.groupAt u.meId slot.toNat = none → ends u 3)
            ∧ (∀ g, u.groupAt u.meId slot.toNat = some g → ends (u.dropGroup g) 0
                ∧ (∀ m ∈ g.members, ((u.dropGroup g).core m).grp.toList[g.slot]? ≠ none →
                    ((u.dropGroup g).core m).grp.toList[g.slot]? = some 0#64)
                ∧ g ∉ (u.dropGroup g).groups)))
      ∧ (got.length = 8 + n → 0 < n → ¬bad →
          ((∃ z ∈ list, notCoreWord z = true) → ends u 4)
          ∧ ((∀ z ∈ list, notCoreWord z = false) →
              (((∃ m ∈ ms, m ∉ cores) ∨ ¬ms.Nodup) → ends u 2)
              ∧ ((∀ m ∈ ms, m ∈ cores) → ms.Nodup →
                  ((∃ m ∈ ms, bound m) → ends u 3)
                  ∧ ((∀ m ∈ ms, ¬bound m) →
                      ((∀ id, ¬free id) → ends u 1)
                      ∧ (∀ id, free id → (∀ j < id, ¬free j) → ∃ v, ends v 0
                          ∧ v.groups = u.groups ++ [{ gang := gang, id := id, slot := slot.toNat, members := ms }]
                          ∧ (∀ j m, ms[j]? = some m → (v.core m).grp.toList[slot.toNat]? = some (BitVec.ofNat 64 (2 ^ 63 + n * 2 ^ 40 + j * 2 ^ 20 + id)))
                          ∧ (∀ m, m ∉ ms → v.core m = u.core m) ∧ (∀ m, ∀ j < 4, j ≠ slot.toNat → (v.core m).grp.toList[j]? = (u.core m).grp.toList[j]?)
                          ∧ ∀ p, v.byteAt p = u.byteAt p))))))

/-- The arrival of messages and of their answers (R38 to R45, R48, R49, R56, R66, R71, R77). A handler message takes the lowest free pail, which
holds its header and payload, joins the run queue at the higher of its priority and its entry's, and is accepted; without a free pail it is refused
and nothing changes, a launch unit's start message being sent again; before a worker's entry activation has started, no other message is taken, and one that
then comes to a gang that saves is refused; a start message waits for the restore of a member that is being saved; at a core of another gang it is accepted and leaves a WINDOW record, and for an invalid entry or one of the reserved indexes 252 to 255 its pail is freed and an ILLEGAL record left.
A deposit writes its payload and then acts on its counter, or does neither and leaves a record. An acceptance removes its destination, the last one the
entry; a refusal makes the destination wait, and the end of its backoff sends the message to it again, with twice the backoff, while the other
destinations stay as they are; a gang that saves sends nothing but what completes a multicast that some members have accepted and that has no bitmap.
Where the manual leaves a clause open, the model's choice is that of log entries 8, 30, 52, 67 and 97. -/
def Obligations.MessagesArrive : Prop :=
  ∀ (s : State) (p : Packet) (dst src : CoreId) (gang : Nat) (hdr : Word) (payload : List Word) (slot : Nat) (start : Bool), s.picked p →
    let core := s.core dst
    let n := s.tenantNo dst
    let taken := if start then [] else [Body.accepted src slot dst]
    let index : BitVec 8 := BitVec.ofNat 8 (hdr.toNat / 2 ^ 6)
    let keeps (t : State) : Prop := (t.core dst).pails = core.pails ∧ (t.core dst).runq = core.runq ∧ ∀ z, t.byteAt z = s.byteAt z
    let record (c : Cause) : FaultRec := { cause := c, flags := 0x10#8, core := dst, low8 := 0#32, w10 := 0#64, w18 := hdr }
    let home : Prop := s.present dst = true ∧ core.gang = some gang
    let goes (i : Instr) (q : State → Prop) : Prop := ∃ t, exec i s = .next t ∧ q t
    let takes : Prop := start = true ∨ s.startComing dst = false
    (p.body = .message dst src gang hdr payload slot start → hdr.getLsbD 5 = false → payload.length ≤ 15 →
      (home → core.dropTasks = false → index.toNat < 252 → ∀ i h, core.lowestPail i → core.entry? index = some h →
        takes → goes .handlerMessage (fun t => Answers s t p taken ∧ (t.core dst).pails = core.pails.set i { st := .queued, start := start }
          ∧ t.pailHolds dst i hdr payload ∧ (t.core dst).scan = true
          ∧ (∀ z, (∀ j < 128, z ≠ .localMem dst (128 * i + j)) → t.byteAt z = s.byteAt z)
          ∧ (t.core dst).runq = core.runq ++
              [{ place := .pail i, pri := BitVec.ofNat 2 (max (hdr.toNat / 2 ^ 14 % 4) h.pri.toNat), handler := index }]))
      ∧ (home → takes → core.dropTasks = false → ∀ i, core.lowestPail i → (core.entry? index = none ∨ 252 ≤ index.toNat) → goes .handlerMessage (fun t =>
          Answers s t p taken ∧ (t.core dst).pails = core.pails.set i { st := .freed } ∧ Recorded s t n (record .illegal)))
      ∧ (home → takes → (∀ q ∈ core.pails, q.st ≠ .free) → goes .handlerMessage (fun t =>
          Answers s t p (if start then [.message dst src gang hdr payload slot true] else [.refused src slot dst]) ∧ keeps t))
      ∧ (¬takes → s.savingAt dst = false → exec .handlerMessage s = .next s)
      ∧ (¬takes → s.savingAt dst = true → goes .handlerMessage (fun t => Answers s t p [.refused src slot dst] ∧ keeps t))
      ∧ (start = true → s.startWaits dst gang = true → exec .handlerMessage s = .next s)
      ∧ (s.present dst = true → takes → (start = true → s.startWaits dst gang = false) → core.gang ≠ some gang →
          goes .handlerMessage (fun t => Answers s t p taken ∧ keeps t ∧ Recorded s t n (record .window))))
    ∧ (p.body = .message dst src gang hdr payload slot start → hdr.getLsbD 5 = true →
      let off := 8 * (hdr.toNat / 2 ^ 17 % 2 ^ 12)
      let i : BitVec 5 := BitVec.ofNat 5 (hdr.toNat / 2 ^ 6)
      let fits : Prop := payload = [] ∨ core.depositOk off (8 * payload.length) = true
      (home → fits → core.fillOver i false = false → goes .depositMessage (fun t => Answers s t p taken ∧ Counted s t dst i
          ∧ (∀ j, ∀ w, payload[j]? = some w → (t.core dst).localMem.dword (off + 8 * j) = w)
          ∧ ∀ z, (∀ j < 8 * payload.length, z ≠ .localMem dst (off + j)) → t.byteAt z = s.byteAt z))
      ∧ (home → ¬fits → goes .depositMessage (fun t => Answers s t p taken ∧ keeps t ∧ Recorded s t n (record .window)
          ∧ (t.core dst).counters = core.counters))
      ∧ (home → fits → core.fillOver i false = true → goes .depositMessage (fun t => Answers s t p taken ∧ keeps t
          ∧ Recorded s t n (record .pipeBroken) ∧ (t.core dst).counters = core.counters)))
    ∧ (∀ member e, core.outbox.find? (fun e => e.slot = slot && e.released) = some e →
      let left := e.dests.filter (fun d => d.core ≠ member)
      (p.body = .accepted dst slot member → goes .messageAcceptance (fun t => Answers s t p []
          ∧ (left = [] → (t.core dst).outbox = core.outbox.filter (fun e => e.slot ≠ slot))
          ∧ (left ≠ [] → (t.core dst).outbox = core.outbox.map (fun x => if x.slot = slot then { x with dests := left } else x))))
      ∧ (p.body = .refused dst slot member → (∃ d ∈ e.dests, d.core = member) → goes .messageRefusal (fun t => Answers s t p []
          ∧ ∃ f ∈ (t.core dst).outbox, f.slot = slot ∧ f.hdr = e.hdr ∧ f.payload = e.payload
            ∧ ∀ d ∈ f.dests, d.core = member → d.inFlight = false)))
    ∧ (∀ member e, core.outbox.find? (fun e => e.slot = slot && e.released && e.dests.any (fun d => d.core = member && !d.inFlight)) = some e →
        let stays : Prop := s.savingAt dst = true ∧ (s.partly dst e = false ∨ s.hasBitmap dst slot = true)
        (¬stays → (e.kind = .message ∨ ∃ k, e.kind = .multicast k) → goes (.refusalBackoffExpiry dst slot member) (fun t =>
          (t.core dst).outbox = core.outbox.map (fun x => if x.slot = slot then { x with dests := x.dests.map (fun d =>
            if d.core = member then { d with inFlight := true, backoff := min 4096 (2 * d.backoff) } else d) } else x)
          ∧ Sends s t [.message member dst (core.gang.getD 0) (deliveredHeader dst e.hdr (decide (e.kind ≠ .message))) e.payload e.slot false]))
        ∧ (stays → exec (.refusalBackoffExpiry dst slot member) s = .next s))

/-- The arrival of SPAWN requests and answers, AQ answers, copy notices and latches (R39 to R41, R60, R61, R66, R133, R207, R297, R304,
R311, R354, R355, R380). A SPAWN request with a free ordinary context and a free pail starts the child there at once, with the header, the pail and
the arguments in its registers, and is answered; a worker waits with it until its entry activation has started, or refuses it while its gang saves; otherwise it is refused and nothing starts. An AQ answer stores the old value and acts on its
counter; a notice acts on its counter, under advance-on-completion through the reservations; a latch waits for the commands that read it and is then written as one unit, with its poison. Each that finds
the core in another gang leaves a WINDOW record.
Where the manual leaves a clause open, the model's choice is that of log entries 8, 52, 87 and 97. -/
def Obligations.RequestsAndNoticesArrive : Prop :=
  ∀ (s : State) (p : Packet) (dst src : CoreId) (r : Req) (gang slot sregs tiles : Nat) (hdr value : Word) (args : List Word) (sc : Scope)
    (b bad : Bool) (i : BitVec 5) (l : BitVec 1) (data : Latch), s.picked p →
    let core := s.core dst
    let home : Prop := s.present dst = true ∧ core.gang = some gang
    let goes (j : Instr) (q : State → Prop) : Prop := ∃ t, exec j s = .next t ∧ q t
    let arg (n : Nat) : Word := (args[n]?).getD 0#64
    let record (v : Word) : FaultRec := { cause := .window, flags := 0x10#8, core := dst, low8 := 0#32, w10 := 0#64, w18 := v }
    (p.body = .spawnReq dst r slot gang hdr args sregs tiles →
      let room : Prop := home ∧ core.noAdmit = false ∧ core.dropTasks = false ∧ s.workerFull dst = false ∧ core.fits sregs tiles = true
      (s.startComing dst = true → s.savingAt dst = false → exec .spawnRequest s = .next s)
      ∧ (s.startComing dst = true → s.savingAt dst = true → goes .spawnRequest (fun t => Answers s t p [.spawnAns r slot false] ∧ t.core dst = core
          ∧ ∀ z, t.byteAt z = s.byteAt z))
      ∧ (∀ k n, room → s.startComing dst = false → core.freeCtx? = some k → core.lowestPail n → args.length ≤ 15 → goes .spawnRequest (fun t =>
        let x := t.ctxAt dst k
        (∃ m ∈ t.net, m.body = .spawnAns r slot true) ∧ x.st = .ready ∧ x.pc = arg 0 ∧ x.rg 1 = hdr ∧ x.rg 2 = selfWindow (128 * n)
        ∧ x.rg 3 = arg 1 ∧ x.rg 4 = arg 2 ∧ x.rg 5 = arg 3 ∧ x.rg 6 = arg 4 ∧ x.sup = core.sup ∧ x.act.pri = BitVec.ofNat 2 (hdr.toNat / 2 ^ 14)
        ∧ (t.core dst).pails = core.pails.set n { st := .running } ∧ t.pailHolds dst n hdr args))
      ∧ ((¬room ∨ core.freeCtx? = none ∨ ∀ q ∈ core.pails, q.st ≠ .free) → s.startComing dst = false → goes .spawnRequest (fun t =>
          Answers s t p [.spawnAns r slot false] ∧ t.core dst = core ∧ ∀ z, t.byteAt z = s.byteAt z)))
    ∧ (p.body = .spawnAns r slot b → r.bg = false → (s.ctxAt r.core r.ctx).st = .waiting → (s.ctxAt r.core r.ctx).act.serial = r.serial →
        goes .spawnAnswer (fun t => Answers s t p [] ∧ (t.ctxAt r.core r.ctx).st = .ready
          ∧ (t.ctxAt r.core r.ctx).op.status = some (if b then 0 else 1)))
    ∧ (p.body = .aqAns r hdr value false sc → r.core = dst → s.present dst = true →
        let off := hdr.toNat % 2 ^ 15
        (core.depositOk off 8 = true → core.area off ≠ .spill → core.fillOver (BitVec.ofNat 5 (hdr.toNat / 2 ^ 16)) false = false → goes .aqAnswer (fun t =>
          Answers s t p [] ∧ (t.core dst).localMem.dword off = value ∧ (∀ z, (∀ j < 8, z ≠ .localMem dst (off + j)) → t.byteAt z = s.byteAt z)
          ∧ (hdr.getLsbD 15 = true → Counted s t dst (BitVec.ofNat 5 (hdr.toNat / 2 ^ 16))) ∧ (hdr.getLsbD 15 = false → (t.core dst).counters = core.counters)))
        ∧ (core.depositOk off 8 = false → goes .aqAnswer (fun t => Answers s t p [] ∧ Recorded s t (s.tenantNo dst) (record hdr)
          ∧ ∀ z, t.byteAt z = s.byteAt z)))
    ∧ (p.body = .notice dst src gang value →
        let c := BitVec.ofNat 5 value.toNat
        let k := core.counters[c.toNat]
        (home → core.fillOver c true = false → (∀ e, core.pipeOf c = some e → e.mode = 0) → goes .copyNotice (fun t => Answers s t p [] ∧ Counted s t dst c))
        ∧ (∀ e, home → core.fillOver c true = false → k.pipe = true → core.pipeOf c = some e → e.mode = 1 → goes .copyNotice (fun t => Answers s t p []
            ∧ (0 < k.reserved → (t.core dst).counters[c.toNat] = { k with count := k.count + 1, reserved := k.reserved - 1 })
            ∧ (k.reserved = 0 → (e.state ≠ 0 ∨ e.closedHere = true) → (t.core dst).counters = core.counters)
            ∧ (k.reserved = 0 → e.state = 0 → e.closedHere = false → (t.core dst).counters[c.toNat] = { k with early := k.early + 1 })))
        ∧ (s.present dst = true → core.gang ≠ some gang → goes .copyNotice (fun t => Answers s t p [] ∧ (t.core dst).counters = core.counters
            ∧ Recorded s t (s.tenantNo dst) (record value))))
    ∧ (p.body = .latch dst src gang l data bad b i → home → core.latchBusy l = true → exec .latchArrival s = .next s)
    ∧ (p.body = .latch dst src gang l data bad b i → home → core.latchBusy l = false → core.fillOver i false = false → goes .latchArrival (fun t => Answers s t p []
        ∧ (t.core dst).latch l = data ∧ (t.core dst).latch (~~~l) = core.latch (~~~l) ∧ (t.core dst).latchPoison.getLsbD l.toNat = bad
        ∧ (t.core dst).latchPoison.getLsbD (~~~l).toNat = core.latchPoison.getLsbD (~~~l).toNat ∧ (∀ z, t.byteAt z = s.byteAt z)
        ∧ (b = true → Counted s t dst i) ∧ (b = false → (t.core dst).counters = core.counters)))
    ∧ (p.body = .latch dst src gang l data bad b i → s.present dst = true → core.gang ≠ some gang → goes .latchArrival (fun t => Answers s t p []
        ∧ core.sameLatches (t.core dst) ∧ (t.core dst).counters = core.counters
        ∧ Recorded s t (s.tenantNo dst) (record 0#64)))

/-- What homes do (R121, R124, R132 to R134, R147, R149, R236, R294, R297). A write to a frame that no vat caches writes exactly its bytes of HBM and is acknowledged; one
to a line that its home slice holds writes exactly its bytes there, and to HBM too under write-through and write-around. An atomic and an AQ are one
read-modify-write: the new value is that of the operation on the old one, which goes back to the core that asked; poison is answered and nothing written. An
acquiring atomic that meets a stamp is performed as it arrives, and its answer is held until the drain is done (R71, R147). A write to another tenant's frame changes nothing (R5).
A line fill brings the line of its home; where it is a prefetch's that its context has acquired past, the line's clean bytes are invalid then (R345). An acknowledgement lowers the count of its
writer.
Where the manual leaves a clause open, the model's choice is that of log entries 8, 22 and 89. -/
def Obligations.HomesPerform : Prop :=
  ∀ (s : State) (p : Packet) (r : Req) (tn : Tenant) (xl : Xl) (bytes : List Byte) (st : Bool) (sc : Scope) (aop : BitVec 4) (dw : Bool)
    (va operand cmp desc : Word) (lineVa : Nat) (ret : Bool) (v : Vat) (h : Home) (l : SLine) (rest : List CoreId) (d : CoreId),
    s.picked p → s.ownerOf r.core = some tn → xl.pa % 64 + bytes.length ≤ 64 → bytes ≠ [] →
    let goes (i : Instr) (q : State → Prop) : Prop := ∃ t, exec i s = .next t ∧ q t
    let puts (t : State) (spots : List (Nat → Spot)) (bs : List Byte) : Prop :=
      (∀ f ∈ spots, ∀ j b, bs[j]? = some b → t.byteAt (f (xl.pa + j)) = b)
      ∧ ∀ z, (∀ f ∈ spots, ∀ j < bs.length, z ≠ f (xl.pa + j)) → t.byteAt z = s.byteAt z
    let old (n : Nat) : Nat := leOf ((List.range n).map (fun j => s.byteAt (.hbm (xl.pa + j))))
    let answered (t : State) (x : Nat) : Prop := r.bg = false → (s.ctxAt r.core r.ctx).st = .waiting → (s.ctxAt r.core r.ctx).act.serial = r.serial →
      (t.ctxAt r.core r.ctx).st = .ready ∧ (t.ctxAt r.core r.ctx).op.result = some (BitVec.ofNat 64 x)
    let poisoned : Prop := s.hbmPoison.contains (xl.pa / 64) = true
    let killed (t : State) (i : TrapInfo) : Prop := r.bg = false → (s.ctxAt r.core r.ctx).st = .waiting → (s.ctxAt r.core r.ctx).act.serial = r.serial →
      (t.ctxAt r.core r.ctx).st = .ready ∧ (t.ctxAt r.core r.ctx).op.fault = some i
    let same (t : State) : Prop := ∀ z, t.byteAt z = s.byteAt z
    (p.body = .write r xl lineVa (cellsAt xl.pa bytes) false none sc → s.firstOfLine p r.core xl.pa → s.keyed tn xl →
      (s.bare tn r.core xl → goes .writeAtHome (fun t => Answers s t p [.ack r sc] ∧ puts t [.hbm] bytes))
      ∧ (xl.region = .hbm → s.foreign tn xl.pa = false → (s.slice (s.homeOf tn.id xl (dieOf r.core) false)).waits = [] → s.servedAt tn xl (dieOf r.core) false = .slice v h →
          (s.slice h.slice).line? tn.id v.index (xl.pa / 2 ^ v.lg * 2 ^ v.lg) = some l → l.gen = v.cur.gen → State.otherReplicas tn xl = rest → rest ≠ [] →
          goes .writeAtHome (fun t => Answers s t p [.forward r xl (cellsAt xl.pa bytes) false rest sc]))
      ∧ (xl.region = .hbm → s.foreign tn xl.pa = false → (s.slice (s.homeOf tn.id xl (dieOf r.core) false)).waits = [] → s.servedAt tn xl (dieOf r.core) false = .slice v h →
          (s.slice h.slice).line? tn.id v.index (xl.pa / 2 ^ v.lg * 2 ^ v.lg) = some l → l.gen = v.cur.gen → State.otherReplicas tn xl = [] →
          let line : Nat → Spot := .slice h.slice tn.id v.index (xl.pa / 2 ^ v.lg * 2 ^ v.lg)
          goes .writeAtHome (fun t => Answers s t p [.ack r sc]
            ∧ puts t (if v.wpol = 1#2 ∨ v.wpol = 2#2 then [line, .hbm] else [line]) bytes))
      ∧ (xl.region = .hbm → s.foreign tn xl.pa = true → tn.liveVat xl.vat = none → (s.slice (s.homeOf tn.id xl (dieOf r.core) false)).waits = [] →
          goes .writeAtHome (fun t => Answers s t p [.ack r sc] ∧ same t)))
    ∧ (p.body = .forward r xl (cellsAt xl.pa bytes) false (d :: rest) sc →
      (s.net.any (fun q => q.id < p.id && q.forwardsTo xl.pa d) = true → exec .writeAtHome s = .next s)
      ∧ (s.net.any (fun q => q.id < p.id && q.forwardsTo xl.pa d) = false → goes .writeAtHome (fun t => (rest = [] → Answers s t p [.ack r sc])
          ∧ (rest ≠ [] → t.net = s.net.map (fun q => if q.id = p.id then
              { id := q.id, vnet := q.vnet, pri := q.pri, body := .forward r xl (cellsAt xl.pa bytes) false rest sc } else q))
          ∧ (s.foreign tn xl.pa = false → tn.liveVat xl.vat = some v → replicaOn v v.cur xl.pl (dieOf d) xl.pa = some h → v.state = 0 → v.wpol = 0#2 → s.isOffline v h = false →
              (s.slice h.slice).line? tn.id v.index (xl.pa / 2 ^ v.lg * 2 ^ v.lg) = some l →
              puts t [.slice h.slice tn.id v.index (xl.pa / 2 ^ v.lg * 2 ^ v.lg)] bytes))))
    ∧ (poisoned → s.bare tn r.core xl →
      (p.body = .atomic r xl va aop dw operand cmp ret none none sc → s.firstOfLine p r.core xl.pa → goes .atomicAtHome (fun t => same t
        ∧ (ret = true → Answers s t p [] ∧ killed t { cause := .uncorrectable, write := true, addr := va }) ∧ (ret = false → Answers s t p [.ack r sc])))
      ∧ (p.body = .aqReq r xl lineVa desc operand sc → s.firstOfLine p r.core xl.pa → goes .aqRequest (fun t => same t
        ∧ ∃ x, Answers s t p [.aqAns r desc x true sc]))
      ∧ (∀ a, p.body = .fill r xl a st false → p.acquired = none → (∀ q ∈ s.net, q.writesLine r.core xl.pa = false ∧ q.forwardsOf r.core xl.pa = false) →
        (s.core r.core).l1Line? xl.pa = none → (∃ w < 8, (s.core r.core).pinned (w * 64 + xl.pa / 64 % 64) = false
          ∧ ∀ m ∈ (s.core r.core).l1, l1Set m.xl.pa = xl.pa / 64 % 64 → m.way ≠ w) →
        goes .lineFill (fun t => ∃ m, (t.core r.core).l1Line? xl.pa = some m ∧ m.poison = true)))
    ∧ (p.body = .atomic r xl va aop dw operand cmp ret none none sc → s.firstOfLine p r.core xl.pa → s.bare tn r.core xl → s.legible tn xl →
      let n := if dw then 8 else 4
      let new := amoValue aop.toNat n (old n) operand.toNat cmp.toNat
      xl.pa % 64 + n ≤ 64 → goes .atomicAtHome (fun t => (ret = false → Answers s t p [.ack r sc]) ∧ (ret = true → Answers s t p [] ∧ answered t (old n))
        ∧ (∀ w, new = some w → puts t [.hbm] (leBytesOf n w)) ∧ (new = none → ∀ z, t.byteAt z = s.byteAt z)))
    ∧ (∀ asc g, p.body = .atomic r xl va aop dw operand cmp true none (some asc) sc → s.firstOfLine p r.core xl.pa → s.bare tn r.core xl → s.legible tn xl →
      s.blockingStamp (s.homeOf tn.id xl (dieOf r.core) false) r.core xl.pa = some g →
      let n := if dw then 8 else 4
      let new := amoValue aop.toNat n (old n) operand.toNat cmp.toNat
      xl.pa % 64 + n ≤ 64 → goes .atomicAtHome (fun t => (∀ w, new = some w → puts t [.hbm] (leBytesOf n w)) ∧ (new = none → same t)
        ∧ (t.ctxAt r.core r.ctx).st = (s.ctxAt r.core r.ctx).st
        ∧ ∃ q ∈ t.net, q.body = .atomicAns r (s.homeOf tn.id xl (dieOf r.core) false) g (scopeOf g.core r.core) n (BitVec.ofNat 64 (old n)) true))
    ∧ (∀ home g k x, p.body = .atomicAns r home g sc k (BitVec.ofNat 64 x) false → r.core ≠ 0xFFFFF#20 →
        goes .atomicAtHome (fun t => Answers s t p [] ∧ same t ∧ answered t x))
    ∧ (p.body = .aqReq r xl lineVa desc operand sc → s.firstOfLine p r.core xl.pa → s.bare tn r.core xl → s.legible tn xl → xl.pa % 64 ≤ 56 →
      let x : Word := BitVec.ofNat 64 (old 8)
      let op := desc.toNat / 2 ^ 21 % 8
      let new : Word := if op = 1 then x + operand else if op = 2 then x ||| operand else operand
      goes .aqRequest (fun t => Answers s t p [.aqAns r desc x false sc] ∧ (op = 0 → ∀ z, t.byteAt z = s.byteAt z)
        ∧ (op ≠ 0 → puts t [.hbm] (leBytesOf 8 new.toNat))))
    ∧ (∀ a asc, p.body = .fill r xl a st false → p.acquired = some asc → xl.region = .hbm → s.installRoom r.core xl = true → goes .lineFill (fun t =>
        ∀ m ∈ (t.core r.core).l1, m.xl.pa / 64 = xl.pa / 64 → m.within asc = true → m.valid = m.dirty))
    ∧ (∀ a, p.body = .fill r xl a st false → p.acquired = none → (∀ q ∈ s.net, q.writesLine r.core xl.pa = false ∧ q.forwardsOf r.core xl.pa = false) → s.bare tn r.core xl →
        s.legible tn xl → (s.core r.core).l1Line? xl.pa = none → (∃ w < 8, (s.core r.core).pinned (w * 64 + xl.pa / 64 % 64) = false
          ∧ ∀ m ∈ (s.core r.core).l1, l1Set m.xl.pa = xl.pa / 64 % 64 → m.way ≠ w) →
        goes .lineFill (fun t => Answers s t p [] ∧ ∃ m, (t.core r.core).l1Line? xl.pa = some m ∧ m.xl = xl.base ∧ m.dirty = 0#64 ∧ m.poison = false
          ∧ m.valid = BitVec.allOnes 64 ∧ ∀ j < 64, t.byteAt (.l1 r.core (xl.pa / 64 * 64 + j)) = s.byteAt (.hbm (xl.pa / 64 * 64 + j))))
    ∧ (p.body = .ack r sc → goes .writeAcknowledgement (fun t => Answers s t p [] ∧ (∀ z, t.byteAt z = s.byteAt z)
        ∧ (r.bg = false → (s.ctxAt r.core r.ctx).act.serial = r.serial →
            (t.ctxAt r.core r.ctx).unack = (s.ctxAt r.core r.ctx).unack.dec sc ∧ (t.core r.core).background = (s.core r.core).background)
        ∧ ((r.bg = true ∨ (s.ctxAt r.core r.ctx).act.serial ≠ r.serial) → (t.core r.core).background = (s.core r.core).background.dec sc)))

/-- Window accesses at their owner, release stores, stamp drains and address waits (R103, R104, R137, R142, R147, R148, R236, R375, R376). An open window access is performed on the
owner's local memory, a load and a returning atomic are answered and the others acknowledged; a refused one changes nothing. A release store is
performed once its context and the core have nothing outstanding at its scope. A drain widens the stamp of its line, which has the size of the slice's lines, once its releaser has
nothing outstanding, drops that of a lost one, and lets stamps that wait take the free places of the table of 64. An address wait whose test holds is answered, another is recorded while fewer than 16 wait, and gets status 2 otherwise.
Where the manual leaves a clause open, the model's choice is that of log entries 8, 28, 34, 76, 101 and 110. -/
def Obligations.WindowsStampsAndWaits : Prop :=
  ∀ (s : State) (p : Packet) (r : Req) (dst : CoreId) (off n pa : Nat) (va v operand cmp : Word) (aop : BitVec 4) (dw ret drop : Bool) (sc : Scope) (sl : CoreId)
    (e : WaitEntry) (k : CtxId) (w : RelStore) (rest : List RelStore),
    let goes (i : Instr) (q : State → Prop) : Prop := ∃ t, exec i s = .next t ∧ q t
    let open_ : Prop := s.present dst = true ∧ s.tenantNo dst = s.tenantNo r.core ∧ s.tenantNo r.core < 16 ∧ (s.core dst).area off = .shared
    let x := s.ctxAt r.core r.ctx
    let asks : Prop := r.bg = false ∧ x.st = .waiting ∧ x.act.serial = r.serial
    let holds (t : State) (o m : Nat) (val : Nat) : Prop := (∀ j < m, t.byteAt (.localMem dst (o + j)) = BitVec.ofNat 8 (val / 256 ^ j))
      ∧ ∀ z, (∀ j < m, z ≠ .localMem dst (o + j)) → t.byteAt z = s.byteAt z
    let same (t : State) : Prop := ∀ z, t.byteAt z = s.byteAt z
    let answered (t : State) (q : OpState → Prop) : Prop := (t.ctxAt r.core r.ctx).st = .ready ∧ q (t.ctxAt r.core r.ctx).op
    let m := if dw then 8 else 4
    let old := leOf ((List.range m).map (fun j => s.byteAt (.localMem dst (off + j))))
    (s.picked p →
      (∀ op, p.body = .window dst r off va op sc → s.windowAhead p.id dst r off op.bytes = true → exec .windowAccess s = .next s)
      ∧ (p.body = .window dst r off va (.load n dw) sc → asks → s.windowAhead p.id dst r off n = false →
        (open_ → (s.core dst).localBad off n = false → goes .windowAccess (fun t => Answers s t p [] ∧ same t ∧ answered t (fun o =>
          o.result = some (BitVec.ofNat 64 (leOf ((List.range n).map (fun j => s.byteAt (.localMem dst (off + j)))))))))
        ∧ (¬open_ → goes .windowAccess (fun t => Answers s t p [] ∧ same t ∧ answered t (fun o => o.fault = some { cause := .window, addr := va }))))
      ∧ (p.body = .window dst r off va (.store n v) sc → s.windowAhead p.id dst r off n = false →
        (open_ → goes .windowAccess (fun t => Answers s t p [.ack r sc] ∧ holds t off n v.toNat))
        ∧ (¬open_ → goes .windowAccess (fun t => Answers s t p [.ack r sc] ∧ same t)))
      ∧ (p.body = .window dst r off va (.atomic aop dw operand cmp ret) sc → s.windowAhead p.id dst r off m = false → open_ → (s.core dst).localBad off m = false → (ret = true → asks) →
          goes .windowAccess (fun t => (∀ z, amoValue aop.toNat m old operand.toNat cmp.toNat = some z → holds t off m z)
            ∧ (amoValue aop.toNat m old operand.toNat cmp.toNat = none → same t)
            ∧ (ret = true → Answers s t p [] ∧ answered t (fun o => o.result = some (BitVec.ofNat 64 old))) ∧ (ret = false → Answers s t p [.ack r sc])))
      ∧ (p.body = .drain dst sl pa sc drop →
          let mine (g : Stamp) : Bool := g.core = dst && g.xl.pa / 2 ^ g.lg = pa / 2 ^ g.lg
          let lost := (s.slice sl).stamps.filter (fun g => !mine g)
          let new := (s.slice sl).newStamps
          let table (t : State) (l : List Stamp) : Prop := (t.slice sl).stamps = l ++ new.take (64 - l.length) ∧ (t.slice sl).newStamps = new.drop (64 - l.length)
          (s.present dst = false → goes .stampDrain (fun t => table t lost ∧ same t))
          ∧ (s.present dst = true → (s.core dst).drained sc = true → (∀ g ∈ (s.core dst).l1, g.within sc = true → g.dirty = 0#64) → goes .stampDrain (fun t =>
              table t (if drop then lost else (s.slice sl).stamps.map (fun g => if mine g then { g with scope := sc } else g)))))
      ∧ (∀ tn bytes, p.body = .waitReq e → e.req = r → e.peer = none → asks → s.ownerOf r.core = some tn → e.xl.region = .hbm →
          s.net.filter (fun q => q.id ≤ p.id && q.writesLine r.core e.xl.pa) = [] →
          let u := s.dropPacket p.id
          let home := s.homeOf tn.id e.xl (dieOf r.core) false
          (u.readHome tn (dieOf r.core) e.xl e.size false).2 = (bytes, false) →
          let held := (((u.readHome tn (dieOf r.core) e.xl e.size false).1.slice home).waits)
          (e.test bytes = true → ((u.readHome tn (dieOf r.core) e.xl e.size false).1.blockingStamp home r.core e.xl.pa) = none →
            goes .addressWaitEntry (fun t => answered t (fun o => o.status = some 0)))
          ∧ (e.test bytes = false → 16 ≤ (held.filter (fun q => !q.hit)).length → goes .addressWaitEntry (fun t => answered t (fun o => o.status = some 2)))
          ∧ (e.test bytes = false → (held.filter (fun q => !q.hit)).length < 16 → x.timedOut = false →
              goes .addressWaitEntry (fun t => (t.slice home).waits = held ++ [e] ∧ (t.ctxAt r.core r.ctx).st = .waiting))))
    ∧ ((s.ctxAt dst k).rel = w :: rest → w.tgt = .self off → (s.core dst).area off ≠ .spill →
        let c := s.core dst
        ((c.ctx k).unack.clear w.scope = true → c.background.clear w.scope = true → (∀ q ∈ s.net, q.prefetch dst k = false ∧ c.tells k q = false) →
          goes (.releaseComplete dst k) (fun t => (t.ctxAt dst k).rel = rest ∧ holds t off w.size w.value.toNat))
        ∧ ((c.ctx k).unack.clear w.scope = false → exec (.releaseComplete dst k) s = .next s))

/-- The translation service (R151, R154 to R163, R287, R288, R345, R382). A request that the leaf cache covers is answered at once, another starts one of up to 8
walks. With PTROOT V = 0 supervisor mode gets a 2 MiB page of the ranges joined, and user mode PAGE_NP. A walk reads the PTE of its level: poison, an entry that is
not present, a reserved bit, a pointer at level 1 and a leaf above level 3 answer as such; a leaf that passes the checks gives the page with its fields, a
page of at least 4 KiB, after A, and for a write D, are set. An answer reaches the steer table unless a SHOOT has overtaken it, and the waiting
instruction. A walk's reads are acquires: a stamp that the home lies outside is drained first. A SHOOT leaves no entry of its range at the home or
the core, nor a line filled through it, and is acknowledged; the cores are asked once the last home has acted.
Where the manual leaves a clause open, the model's choice is that of log entries 8, 32 and 101. -/
def Obligations.TranslationServes : Prop :=
  ∀ (s : State) (p : Packet) (r : Req) (tn : Tenant) (va : Nat) (k : Access) (user once : Bool),
    s.picked p → s.tenant tn.id = some tn →
    let goes (i : Instr) (q : State → Prop) : Prop := ∃ t, exec i s = .next t ∧ q t
    let home := xlateHome (dieOf r.core) va
    let answer (a : XlAnswer) : Body := .xlateAns r va k false once a
    let x := s.ctxAt r.core r.ctx
    let asks : Prop := r.bg = false ∧ x.st = .waiting ∧ x.act.serial = r.serial
    (p.body = .xlateReq r tn.id va k user false once →
      (∀ a, (s.thome home).hit tn va k user = some a → goes .translationRequest (fun t => Answers s t p [answer a]))
      ∧ ((s.thome home).hit tn va k user = none →
          (s.walksAt home < 8 → goes .translationRequest (fun t => Answers s t p [.walk r tn.id va k user false once]))
          ∧ (8 ≤ s.walksAt home → exec .translationRequest s = .next s)))
    ∧ (∀ sl st, p.body = .walk r tn.id va k user false once → s.walkAhead p.id r tn.id va = false → s.walkBlock tn home va = some (sl, st) →
        exec .pageWalk s = .next (s.askDrain sl st (scopeOf st.core home) false))
    ∧ (p.body = .walk r tn.id va k user false once → s.walkAhead p.id r tn.id va = false → s.walkBlock tn home va = none →
      let ans (a : XlAnswer) : Prop := goes .pageWalk (fun t => Answers s t p [answer a])
      (tn.ptroot.getLsbD 0 = false →
        (user = true → ans (.fault .pageNp 5#3))
        ∧ (rangeAt tn.ranges (va / 2 ^ 21 * 2 ^ 21) = none → ans (.fault .pageNp 5#3))
        ∧ (∀ pa, user = false → rangeAt tn.ranges (va / 2 ^ 21 * 2 ^ 21) = some pa → ∃ e : PageEntry, ans (.leaf e) ∧ e.tenant = tn.id
            ∧ e.lg = 21 ∧ e.pa = pa ∧ e.va = va / 2 ^ 21 * 2 ^ 21 ∧ e.w = true ∧ e.x = true ∧ e.vat = 0 ∧ e.pl = 0#2 ∧ e.e = false))
      ∧ (tn.ptroot.getLsbD 0 = true →
        let start := (s.thome home).start tn va 4
        ∀ n w bad u, start.2 = n + 1 →
        let at_ := start.1 + 8 * (va / 2 ^ (12 + 9 * n) % 512)
        (s.dropPacket p.id).readPhys tn at_ = (u, w, bad) →
        let level := BitVec.ofNat 3 (n + 1)
        let e := leafEntry tn w.toNat (n + 1) va (k = .write || w.getLsbD 6)
        (bad = true → ans (.poison level))
        ∧ (bad = false → w.getLsbD 0 = false → ans (.fault .pageNp level))
        ∧ (bad = false → w.getLsbD 0 = true → (w.getLsbD 63 = true ∨ w.toNat / 2 ^ 10 % 4 ≠ 0) → ans (.fault .pageRsvd level))
        ∧ (bad = false → w.getLsbD 0 = true → w.getLsbD 63 = false → w.toNat / 2 ^ 10 % 4 = 0 →
            (w.getLsbD 1 = false → n = 0 → ans (.fault .pageRsvd level))
            ∧ (w.getLsbD 1 = true → 3 ≤ n → ans (.fault .pageRsvd level))
            ∧ (w.getLsbD 1 = true → n < 3 → (w.getLsbD 7 = true → n = 0) → (n ≠ 0 → w.toNat / 2 ^ 12 % 2 ^ (9 * n) = 0) →
                (∀ c, leafFault tn e va k user = some c → ans (.fault c level))
                ∧ (leafFault tn e va k user = none → start.1 % 64 = 0 → regionOf at_ = some .hbm → tn.reaches at_ = true → tn.liveVat 0 = none → s.legible tn (physXl at_) →
                    (s.slice (s.homeOf tn.id (physXl at_) tn.homeDie false)).waits = [] → goes .pageWalk (fun t => Answers s t p [answer (.leaf e)]
                      ∧ 12 ≤ e.lg ∧ e.lg = (if n = 0 then (if w.getLsbD 7 then 16 else 12) else 12 + 9 * n)
                      ∧ e.u = w.getLsbD 4 ∧ e.w = w.getLsbD 2 ∧ e.x = w.getLsbD 3 ∧ e.e = w.getLsbD 62 ∧ e.vat = w.toNat / 2 ^ 52 % 2 ^ 10
                      ∧ e.pl = BitVec.ofNat 2 (w.toNat / 2 ^ 8) ∧ e.pa = w.toNat / 2 ^ 12 % 2 ^ 40 * 2 ^ 12 / 2 ^ e.lg * 2 ^ e.lg
                      ∧ (once = false → e ∈ (t.thome home).leaves)
                      ∧ BitVec.ofNat 64 (leOf ((List.range 8).map (fun j => t.byteAt (.hbm (at_ + j))))) = w ||| (if k = .write then
                          (if w.getLsbD 6 then 0#64 else 0x60#64) else if w.getLsbD 5 then 0#64 else 0x20#64)))))))
    ∧ (∀ e, p.body = .xlateAns r va k false once (.leaf e) → asks → goes .translationAnswer (fun t => Answers s t p []
        ∧ (t.ctxAt r.core r.ctx).st = .ready ∧ (t.ctxAt r.core r.ctx).op.leaf = some e
        ∧ (once = false → (t.core r.core).steer.head? = some e) ∧ (once = true → (t.core r.core).steer = (s.core r.core).steer)))
    ∧ (∀ c l, p.body = .xlateAns r va k false once (.fault c l) → asks → goes .translationAnswer (fun t => Answers s t p []
        ∧ (t.ctxAt r.core r.ctx).st = .ready
        ∧ (t.ctxAt r.core r.ctx).op.fault = some { cause := c, level := l, fetch := k = .fetch, write := k = .write, addr := BitVec.ofNat 64 va }))
    ∧ (∀ dst all lo lg, p.body = .shootReq dst false tn.id all lo lg r → goes .shootdownRequest (fun t =>
        (∃ q ∈ t.net, q.body = .shootAck r) ∧ (∀ e ∈ (t.thome dst).leaves, e ∈ (s.thome dst).leaves ∧ e.shot tn.id all lo lg = false)
        ∧ ((∀ q ∈ s.net, q ≠ p → ∀ d u b l g, q.body ≠ .shootReq d false u b l g r) →
            ∀ c ∈ s.busyCores tn, ∃ q ∈ t.net, q.body = .shootReq c true tn.id all lo lg r)))
    ∧ (∀ dst all lo lg, p.body = .shootReq dst true tn.id all lo lg r → s.present dst = true →
        s.roomFor (shootAs dst r) (fun l => shootHit all lo lg l.va) none = true →
        goes .shootdownRequest (fun t => (∀ e ∈ (t.core dst).steer, e.shot tn.id all lo lg = false) ∧ (∀ l ∈ (t.core dst).l1, shootHit all lo lg l.va = false)
          ∧ ((s.shootCore dst tn.id all lo lg r).shootReady dst r tn.id all lo lg = true → ∃ q ∈ t.net, q.body = .shootAck r)))
    ∧ (∀ a, p.body = .shootAck r → asks → x.op.aux = a + 1 → goes .shootdownAck (fun t => Answers s t p []
        ∧ (t.ctxAt r.core r.ctx).op.aux = a ∧ (t.ctxAt r.core r.ctx).st = .ready))

/-- The dispatcher and the service context (R31, R34, R42, R46 to R49, R91, R143, R171). After an event, a scan that finds a free ordinary context admits the head of the
highest priority that has tasks, where it fits: a message with its header, its pail and its first payload doublewords in g1 to g6, a bound task with its
argument, at the PC of its entry and in the mode of the gang; an aged head that does not fit admits nothing. The service context takes the tasks of handlers 255, 252,
254 and 253 in that order, the first to come first; at a core that is being saved it admits none, which is the model's reading of R177 step 1 (every context of the gang
stops). Before the entry activation of a watched worker no other task is admitted.
Where the manual leaves a clause open, the model's choice is that of log entries 8, 30, 52, 97 and 119. -/
def Obligations.ActivationsStart : Prop :=
  ∀ (s : State) (c : CoreId) (k : CtxId) (h : Handler),
    let core := s.core c
    let goes (i : Instr) (q : State → Prop) : Prop := ∃ t, exec i s = .next t ∧ q t
    let starts (t : State) (g : List Word) : Prop := let x := t.ctxAt c k
      x.st = .ready ∧ x.pc = h.pc ∧ (∀ j : BitVec 5, 1 ≤ j.toNat → j.toNat ≤ 6 → x.rg j = (g[j.toNat - 1]?).getD 0#64) ∧ x.rg 28 = selfWindow core.regionOff
        ∧ x.rg 29 = core.stackTop[k.toNat] ∧ x.rg 30 = core.stackTop[k.toNat] ∧ (∀ j : BitVec 5, (j = 0 ∨ 7 ≤ j.toNat ∧ j.toNat < 28 ∨ j = 31) → x.rg j = 0#64)
        ∧ x.m1 = 0xFFFF#16 ∧ x.m2 = 0xFFFF#16 ∧ x.m3 = 0xFFFF#16 ∧ x.fflags = 0#5 ∧ x.frm = 0#3 ∧ x.sup = core.sup ∧ x.act.sregs = h.sregs ∧ x.act.tiles = h.tiles
    (core.scan = false → exec (.dispatcherScan c) s = .next s)
    ∧ (core.scan = true → s.present c = true → core.noAdmit = false → (∀ z ∈ core.runq, z.handler.toNat < 252 ∧ (core.entry? z.handler).isSome = true) →
      (core.freeCtx? = none → goes (.dispatcherScan c) (fun t => (t.core c).runq = core.runq ∧ ∀ j, t.ctxAt c j = s.ctxAt c j))
      ∧ (core.freeCtx? = some k → s.startComing c = true → (∀ z ∈ core.runq, ∀ i, z.place = .pail i → (core.pails[i]?).any (·.start) = false) → goes (.dispatcherScan c) (fun t =>
          (t.core c).runq = core.runq ∧ ∀ j, t.ctxAt c j = s.ctxAt c j))
      ∧ (core.freeCtx? = some k → s.startComing c = false → ∀ z front rest, core.runq = front ++ z :: rest → (∀ y ∈ front, y.pri.toNat < z.pri.toNat) → (∀ y ∈ rest, y.pri.toNat ≤ z.pri.toNat) →
          core.entry? z.handler = some h →
          (core.fits h.sregs h.tiles = true → s.workerFull c = false →
            (∀ i, z.place = .pail i → i < core.pails.length → goes (.dispatcherScan c) (fun t => (t.core c).runq = front ++ rest
                ∧ starts t [core.pailDword i 0, selfWindow (128 * i), core.payload i 0, core.payload i 1, core.payload i 2, core.payload i 3]
                ∧ ((t.core c).pails[i]?).map (·.st) = some .running ∧ (t.ctxAt c k).act.header = core.pailDword i 0))
            ∧ ((∀ i, z.place ≠ .pail i) → goes (.dispatcherScan c) (fun t => (t.core c).runq = front ++ rest ∧ starts t [0#64, 0#64, z.arg.setWidth 64])))
          ∧ (core.fits h.sregs h.tiles = false → z.age = 16 → goes (.dispatcherScan c) (fun t => (t.core c).runq = core.runq ∧ ∀ j, t.ctxAt c j = s.ctxAt c j))))
    ∧ (core.ctx3.st ≠ .free → exec (.serviceAdmission c) s = .next s)
    ∧ (s.savingAt c = true → exec (.serviceAdmission c) s = .next s)
    ∧ (core.ctx3.st = .free → s.present c = true → s.savingAt c = false → core.svcq = [] → exec (.serviceAdmission c) s = .next s)
    ∧ (core.ctx3.st = .free → s.present c = true → s.savingAt c = false → k = 3#2 → ∀ z front rest, core.svcq = front ++ z :: rest →
        let rank (i : BitVec 8) : Nat := if i = 255#8 then 0 else if i = 252#8 then 1 else if i = 254#8 then 2 else 3
        (∀ y ∈ core.svcq, y.index ∈ [255#8, 252#8, 254#8, 253#8]) → (∀ y ∈ front, rank z.index < rank y.index) → (∀ y ∈ rest, rank z.index ≤ rank y.index) →
        (core.entry? z.index = some h → goes (.serviceAdmission c) (fun t => (t.core c).svcq = front ++ rest
          ∧ starts t [0#64, if z.index = 253#8 then selfWindow core.servicePail else 0#64, z.g3, z.g4, z.g5, z.g6]))
        ∧ (core.entry? z.index = none → goes (.serviceAdmission c) (fun t => (t.core c).svcq = front ++ rest ∧ (t.ctxAt c 3#2).st = .free)))

/-- Pails, timed waits and fetches that give no instruction (R43, R69, R236, R262, R267, R331): a freed pail is cleared whole and free again; a timed wait whose limit is over and an IDLE
whose time is over look once more; a word that is no instruction raises ILLEGAL with address 0, and a fetch that fails takes its trap at the target.
Where the manual leaves a clause open, the model's choice is that of log entry 15. -/
def Obligations.WaitsExpireAndFetchesTrap : Prop :=
  ∀ (s : State) (c : CoreId) (k : CtxId) (i : Nat) (w0 : BitVec 32) (f : FetchFault),
    let x := s.ctxAt c k
    let goes (j : Instr) (q : State → Prop) : Prop := ∃ t, exec j s = .next t ∧ q t
    let info : TrapInfo := { cause := f.cause, level := f.level, fetch := true, addr := f.addr }
    (((s.core c).pails[i]?).map (·.st) = some .freed → goes (.pailCleared c i) (fun t => (t.core c).pails[i]? = some {} ∧ t.pailHolds c i 0#64 []
        ∧ ∀ z, (∀ j < 128, z ≠ .localMem c (128 * i + j)) → t.byteAt z = s.byteAt z))
    ∧ (((s.core c).pails[i]?).map (·.st) ≠ some .freed → exec (.pailCleared c i) s = .next s)
    ∧ (x.st = .waiting → x.op.timed = true → goes (.waitlimExpiry c k) (fun t =>
        t.ctxAt c k = { x with st := .ready, op := { x.op with elapsed := x.waitlim } } ∧ (t.ctxAt c k).timedOut = true ∧ ∀ z, t.byteAt z = s.byteAt z))
    ∧ (x.st = .waiting → x.op.wait = .idle → goes (.idleExpiry c k) (fun t => t.ctxAt c k = { x with st := .ready } ∧ ∀ z, t.byteAt z = s.byteAt z))
    ∧ (s.cx.st = .running → exec (.illegalEncoding w0) s = .next (s.trap { cause := .illegal })
        ∧ (f.cause ≠ .uncorrectable → exec (.instructionFetchFault f) s = .next (s.trap info))
        ∧ (f.cause = .uncorrectable → exec (.instructionFetchFault f) s = .next (s.killUncorrectable s.meId s.me.cur info)))

/-- Pipes and groups between cores (R64, R66, R86, R326 to R328, R346, R347, R380). A change of the far end reaches a pipe end behind the earlier ones: credits, or fills of its
counter where the end is neither closed nor broken; a departure closes or breaks it. An arrival passes up its group's tree and is counted at the root, or refused because of its kind, or ended because its
group or a member is gone; the last one completes the episode, and every member gets the result, which for a sum of two members is the sum in rank order; an end answers its context.
Where the manual leaves a clause open, the model's choice is that of log entries 8, 75, 98 and 120. -/
def Obligations.PipesAndGroupsAdvance : Prop :=
  ∀ (s : State) (p : Packet) (dst home' : CoreId) (q : BitVec 3) (gang n id rank kind : Nat) (r : Req) (slot : BitVec 2) (v : Word) (e : PipeEnd) (g : Group)
    (closed : Bool), s.picked p →
    let goes (i : Instr) (z : State → Prop) : Prop := ∃ t, exec i s = .next t ∧ z t
    let core := s.core dst
    let home : Prop := s.present dst = true ∧ core.gang = some gang
    let pipe (t : State) : Option PipeEnd := (t.core dst).pipes[q.toNat]
    let gains (t : State) : Prop := ∀ k, core.counters.toList[28 + e.index]? = some k →
      (t.core dst).counters.toList[28 + e.index]? = some { k with count := k.count + n }
    let x := s.ctxAt r.core r.ctx
    let asks : Prop := r.bg = false ∧ x.st = .waiting ∧ x.act.serial = r.serial
    (pipe s = some e → home → s.pipeAhead p.id dst q = false →
      (p.body = .pipe dst q gang (.credits n) → goes .pipeFarEndUpdate (fun t => Answers s t p [] ∧ pipe t = some { e with credits := e.credits + n }))
      ∧ (p.body = .pipe dst q gang (.fill n) → e.closedHere = false → e.state ≠ 2 → e.index < 4 → goes .pipeFarEndUpdate (fun t => Answers s t p [] ∧ pipe t = some e ∧ gains t))
      ∧ (p.body = .pipe dst q gang (.fill n) → (e.closedHere = true ∨ e.state = 2) → goes .pipeFarEndUpdate (fun t => Answers s t p [] ∧ pipe t = some e
          ∧ (t.core dst).counters = core.counters))
      ∧ (p.body = .depart dst q gang closed → goes .pipeDeparture (fun t => Answers s t p []
          ∧ pipe t = some { e with state := if closed then (if e.state = 0 then 1 else e.state) else 2 })))
    ∧ (s.pipeAhead p.id dst q = true → (∃ m, p.body = .pipe dst q gang m) → exec .pipeFarEndUpdate s = .next s)
    ∧ (p.body = .arrive home' gang id rank r slot kind v →
      let found := s.groups.find? (fun g => g.gang = gang && g.id = id && g.slot = slot.toNat && g.members.contains r.core)
      let atRoot (g : Group) : Prop := s.gangLost gang = false ∧ g.parent (dieOf home') = none
      (found = none → goes .groupArrival (fun t => Answers s t p [.episode r slot .ended]))
      ∧ (found = some g → s.gangLost gang = true → goes .groupArrival (fun t => Answers s t p [.episode r slot .ended]))
      ∧ (∀ up, found = some g → s.gangLost gang = false → g.parent (dieOf home') = some up →
          goes .groupArrival (fun t => Answers s t p [.arrive (g.homeSlice up) gang id rank r slot kind v] ∧ t.groups = s.groups))
      ∧ (found = some g → atRoot g → (∀ j, g.kind = some j → j = kind) →
          (g.arrivals.length + 1 < g.members.length → goes .groupArrival (fun t => Answers s t p []
            ∧ ∃ h ∈ t.groups, h.id = id ∧ h.members = g.members ∧ h.kind = some kind ∧ h.arrivals = g.arrivals ++ [(rank, r, v)]))
          ∧ (∀ m0, g.members = [m0] → g.arrivals = [] → rank = 0 → goes .groupArrival (fun t => Answers s t p
              [.episode r (BitVec.ofNat 2 g.slot) (.passed (if kind = 0 then 0#64
                else if kind < 4 then v else if isNan (v.setWidth 32) then 0x7FC00000#64 else BitVec.ofNat 64 (v.toNat % 2 ^ 32)))]))
          ∧ (∀ m0 m1 r0 w, g.members = [m0, m1] → g.arrivals = [(1 - rank, r0, w)] → rank < 2 →
              let first := if rank = 0 then v else w
              let second := if rank = 0 then w else v
              let result : Word := match kind with
                | 0 => 0#64
                | 1 => first + second
                | 2 => if first.slt second then second else first
                | 3 => if first.slt second then first else second
                | 4 => ((fAdd 0#3 (first.setWidth 32) (second.setWidth 32)).v).setWidth 64
                | 5 => ((fMax (first.setWidth 32) (second.setWidth 32)).v).setWidth 64
                | _ => ((fMin (first.setWidth 32) (second.setWidth 32)).v).setWidth 64
              goes .groupArrival (fun t => Answers s t p
                [.episode r0 (BitVec.ofNat 2 g.slot) (.passed result), .episode r (BitVec.ofNat 2 g.slot) (.passed result)])))
      ∧ (found = some g → atRoot g → (∃ j, g.kind = some j ∧ j ≠ kind) → goes .groupArrival (fun t => Answers s t p [.episode r slot .refused] ∧ t.groups = s.groups)))
    ∧ (∀ d, p.body = .episode r slot d → asks → goes .groupEpisodeComplete (fun t => Answers s t p [] ∧ (t.ctxAt r.core r.ctx).st = .ready
        ∧ (t.ctxAt r.core r.ctx).op.status = some (match d with | .passed _ => 0 | .refused => 2 | .ended => 1)
        ∧ (d = .passed v → (t.ctxAt r.core r.ctx).op.result = some v)))

/-- Verdicts, the log and the mesh (R94, R95, R222, R227, R229, R233): a pass raises what the binding's passes cover, a fail ends the activation that logged the record and leaves an LG_VIOLATION
record; the read pointer's news raises what the worker knows; a held trap record is written once it fits; a packet that has
been blocked for 8,192 mesh cycles takes the escape channel, one that has waited 4,096 sets S, and each stays otherwise as it is.
Where the manual leaves a clause open, the model's choice is that of log entries 8, 69, 75, 99 and 112. -/
def Obligations.VerdictsAndTheMesh : Prop :=
  ∀ (s : State) (p : Packet) (worker : CoreId) (n rp total : Nat) (b : Binding) (r : LogRec), s.picked p →
    let goes (i : Instr) (z : State → Prop) : Prop := ∃ t, exec i s = .next t ∧ z t
    let only (t : State) (f : Binding → Binding) : Prop := t.bindings = s.bindings.map (fun y => if y.worker = worker then f y else y)
    (p.body = .verdict worker n none → s.verdictAhead p.id worker = false → goes .lifeguardVerdict (fun t => Answers s t p []
        ∧ only t (fun y => if covers y.pass n then y else { y with pass := some n })))
    ∧ (p.body = .verdict worker n (some r) → s.verdictAhead p.id worker = false →
        ((s.ctxAt worker r.ctx).act.serial = r.serial → goes .lifeguardVerdict (fun t => (t.ctxAt worker r.ctx).st = .free
          ∧ ∀ tn, s.tenant (s.tenantNo worker) = some tn → ∃ tn' rest, t.tenant (s.tenantNo worker) = some tn' ∧ tn'.records = tn.records ++
              { cause := .lgViolation, flags := if r.dirty then 1#8 else 0#8, core := worker
                low8 := BitVec.ofNat 32 (n % 65536 * 65536 + (s.ctxAt worker r.ctx).act.handler.toNat * 256 + r.type * 4 + r.ctx.toNat)
                w10 := r.pc, w18 := r.addr } :: rest))
        ∧ ((s.ctxAt worker r.ctx).act.serial ≠ r.serial → goes .lifeguardVerdict (fun t => Answers s t p [] ∧ ∀ k, t.ctxAt worker k = s.ctxAt worker k)))
    ∧ (p.body = .readPointer worker rp total → goes .logReadPointerAdvance (fun t => Answers s t p []
        ∧ only t (fun y => if y.seenTotal < total then { y with rpSeen := rp, seenTotal := total } else y)))
    ∧ (∀ h : HeldRec, s.workerBinding worker = some b → b.heldTrap = [h] →
        let item : LogItem := { type := h.type, size := h.size, addr := h.addr, body := h.body, dirty := h.dirty, aq := h.aq }
        let b1 : Binding := { b with heldTrap := [] }
        (b1.fits (recordBytes b1 h.pc item).length = true → goes (.logDeferredTrapRecord worker) (fun t => ∃ y, t.workerBinding worker = some y ∧ y.heldTrap = []
            ∧ y.nextLog = (b.nextLog + 1) % 2 ^ 32 ∧ y.history = b.history ++ [{ seq := b.nextLog, type := h.type, pc := h.pc, addr := h.addr.getD 0#64, dirty := h.dirty, aq := h.aq
                                                                                 ctx := h.ctx, serial := h.serial }]))
        ∧ (b1.fits (recordBytes b1 h.pc item).length = false → exec (.logDeferredTrapRecord worker) s = .next s))
    ∧ goes .packetEscape (fun t => t.net = s.net.map (fun z => if z.id = s.pick ∧ 8192 ≤ z.blocked then { z with escape := true } else z) ∧ ∀ z, t.byteAt z = s.byteAt z)
    ∧ goes .packetAgeSaturation (fun t => t.net = s.net.map (fun z => if z.id = s.pick ∧ 4096 ≤ z.waited then { z with age := 255#8, s := true } else z) ∧ ∀ z, t.byteAt z = s.byteAt z)

/-- The launch unit (R49, R72 to R77, R82 to R89, R170, R279). A doorbell posts, gives notices or leaves a WINDOW record, and while RESET runs it is discarded. Notices add up, and a pending record whose
count is reached enters the queue and lowers it. A post is refused while the queue is full, and a record that reads and passes the checks enters the queue. A fault record is
written at its slot when that is zero, with the numbers of R170, and dropped and counted otherwise. A record alone takes the first free cores of its clusters, or stays. A placed
gang starts with its image's tables and one start message a member; a quiet and drained one ends, and its cores are free. A deadline completes a
waiting record and aborts a placed gang with reason 3.
Where the manual leaves a clause open, the model's choice is that of log entries 8, 40, 41, 42, 44, 47 and 102. -/
def Obligations.LaunchesRun : Prop :=
  ∀ (s : State) (p : Packet) (tn : Tenant) (value va : Word) (src : Option (CoreId × Nat)) (id n : Nat) (sup : Bool) (r : LaunchRec) (g : Gang)
    (f : FaultRec) (rest : List FaultRec), s.tenant tn.id = some tn →
    let goes (i : Instr) (q : State → Prop) : Prop := ∃ t, exec i s = .next t ∧ q t
    let v := value.toNat
    let of (t : State) (q : Tenant → Prop) : Prop := ∃ u, t.tenant tn.id = some u ∧ q u
    (s.parlour.resetting tn.id = true → exec (.launchDoorbell tn.id value) s = .next s)
    ∧ (s.parlour.resetting tn.id = false → v < 2 ^ 57 → v % 128 = 0 → goes (.launchDoorbell tn.id value) (fun t => Sends s t [.post tn.id value true none]))
    ∧ (s.parlour.resetting tn.id = false → 2 ^ 63 ≤ v → v / 2 ^ 48 % 2 ^ 15 = 0 → v / 2 ^ 12 % 2 ^ 20 = 0 → v % 2 ^ 12 ≠ 0 →
        goes (.launchDoorbell tn.id value) (fun t => Sends s t [.notices tn.id (v % 2 ^ 12) (v / 2 ^ 32 % 2 ^ 16) none]))
    ∧ (s.parlour.resetting tn.id = false → v < 2 ^ 63 → (2 ^ 57 ≤ v ∨ v % 128 ≠ 0) → goes (.launchDoorbell tn.id value) (fun t => t.net = s.net
        ∧ Recorded s t tn.id { cause := .window, flags := 0x10#8, core := 0#20, w10 := 0#64, w18 := value }))
    ∧ (s.picked p → p.body = .notices tn.id id n none → id ≠ 0 → tn.notes id + n ≤ 65535 →
        (tn.pending = [] → goes .launchNotice (fun t => Answers s t p [] ∧ of t (fun u => u.notes id = tn.notes id + n ∧ u.queue = tn.queue)))
        ∧ (tn.pending = [r] → r.id = id → r.reached = 0 → r.deps ≤ tn.notes id + n → tn.queue.length < 64 → goes .launchNotice (fun t => Answers s t p []
            ∧ of t (fun u => u.pending = [] ∧ u.queue = tn.queue ++ [{ r with reached := s.tick + 1 }] ∧ u.notes id = tn.notes id + n - r.deps))))
    ∧ (s.picked p → p.body = .post tn.id va sup src →
        (64 ≤ tn.queue.length → ∀ c slot, src = some (c, slot) → goes .launchPost (fun t => Answers s t p [.refused c slot (launchUnit tn.homeDie)]
            ∧ t.tenants = s.tenants))
        ∧ (64 ≤ tn.queue.length → src = none → exec .launchPost s = .next s)
        ∧ (tn.queue.length < 64 → src = none → ∀ dw u,
            (s.dropPacket p.id).unitDwords tn.id tn.homeDie false (va.toNat % 2 ^ 57) 16 = (u, .ok dw) →
            let x : LaunchRec := { key := u.nextKey, va := va, dw := dw, accepted := u.tick, supPost := sup }
            let w := ({ u with nextKey := u.nextKey + 1 } : State).checkRecord tn x
            x.done % 8 = 0 → w.2 = 0 → w.1.blocked = s.blocked → x.deps = 0 → (x.id ≠ 0 → tn.overflow.contains x.id = false) → w.1.tenant tn.id = some tn →
            goes .launchPost (fun t => of t (fun y => y.queue = tn.queue ++ [x]))))
    ∧ (tn.records = f :: rest →
        let size := tn.faultq.toNat % 32
        let slot := tn.faultq.toNat / 2 ^ 12 % 2 ^ 40 * 4096 + 32 * (tn.faultSeq.toNat % 2 ^ size)
        let drops (u : Tenant) : Prop := u.records = rest ∧ u.faultSeq = tn.faultSeq ∧ u.drop = (if tn.drop = 0xFFFF#16 then tn.drop else tn.drop + 1#16)
        (size = 0 → goes (.faultRecord tn.id) (fun t => of t drops ∧ ∀ z, t.byteAt z = s.byteAt z))
        ∧ (0 < size → regionOf slot = some .hbm → (∀ j < 4, tn.reaches (slot + 8 * j) = true) → tn.liveVat 0 = none → s.legible tn (physXl slot) → (∀ sl, (s.slice sl).waits = []) →
            let first := leOf ((List.range 8).map (fun j => s.byteAt (.hbm (slot + j))))
            (first ≠ 0 → goes (.faultRecord tn.id) (fun t => of t drops ∧ ∀ z, t.byteAt z = s.byteAt z))
            ∧ (first = 0 → goes (.faultRecord tn.id) (fun t => of t (fun u => u.records = rest ∧ u.faultSeq = tn.faultSeq + 1#32 ∧ u.drop = 0#16)
                ∧ (∀ j w, (f.words (tn.faultSeq + 1#32) tn.drop)[j]? = some w →
                    BitVec.ofNat 64 (leOf ((List.range 8).map (fun i => t.byteAt (.hbm (slot + 8 * j + i))))) = w)
                ∧ ∀ z, (∀ j < 32, z ≠ .hbm (slot + j)) → t.byteAt z = s.byteAt z))))
    ∧ (tn.queue = [r] → tn.pending = [] → s.gang? r.key = none → s.gangs = [] → r.groups = 1 → s.parlour.suspect = [] → s.groups = [] →
        let cores := ((groupClusters tn r 0).flatMap coresOf).filter (fun c => s.present c && (s.core c).gang.isNone)
        let taken := cores.take (r.count 0)
        (r.count 0 ≤ cores.length → goes (.gangPlacement tn.id) (fun t => of t (fun u => u.queue = [])
          ∧ (∃ h, t.gangs = [h] ∧ h.key = r.key ∧ h.tenant = tn.id ∧ h.phase = .placed ∧ h.members.map (·.core) = taken
            ∧ h.members.map (·.rank) = List.range taken.length ∧ ∀ m ∈ h.members, m.group = 0)
          ∧ (∀ c ∈ taken, (t.core c).gang = some r.key) ∧ ∃ b ∈ t.groups, b.slot = 0 ∧ b.members = taken ∧ b.id = 0))
        ∧ (cores.length < r.count 0 → goes (.gangPlacement tn.id) (fun t => t = s)))
    ∧ (s.gang? g.key = some g → g.tenant = tn.id →
        (g.phase ≠ .placed → exec (.gangStart g.key) s = .next s)
        ∧ (∀ u i tmpl, g.phase = .placed → g.abort = none → s.checkImage tn g.rcd = (u, .ok i tmpl) → u.blocked = s.blocked → (g.members.map (·.core)).Nodup → u.gang? g.key = some g →
            goes (.gangStart g.key) (fun t => (t.gang? g.key).map (·.phase) = some .started ∧ ∀ m ∈ g.members,
              let c := t.core m.core
              c.gang = some g.key ∧ c.sup = i.sup ∧ c.htbase = i.htbase ∧ c.handlers = i.handlers ∧ c.runq = [] ∧ (∀ k, (t.ctxAt m.core k).st = .free)
              ∧ c.gangReg = BitVec.ofNat 64 (m.group * 2 ^ 12 + g.rcd.id)
              ∧ ∃ q ∈ t.net, ∃ hdr, q.body = .message m.core m.core g.key hdr [BitVec.ofNat 64 (g.rcd.w 13), BitVec.ofNat 64 (g.rcd.id * 2 ^ 16 + m.group),
                  BitVec.ofNat 64 m.rank, BitVec.ofNat 64 (g.rcd.count m.group)] 0 true))
        ∧ (g.phase = .started → s.gangQuiet g = false → exec (.gangCompletion g.key) s = .next s)
        ∧ (g.phase = .started → s.gangQuiet g = true → g.relaunches = false → g.blocks = [] → g.rcd.done = 0 →
            (∀ m ∈ g.members, (s.core m.core).drained 3#2 = true ∧ ∀ l ∈ (s.core m.core).l1, l.dirty = 0#64) →
            goes (.gangCompletion g.key) (fun t => t.gang? g.key = none ∧ (∀ b ∈ t.groups, b.gang ≠ g.key)
              ∧ ∀ m ∈ g.members, m.there = true → (t.core m.core).gang = none ∧ (t.core m.core).pinLU = 0#512 ∧ (t.core m.core).steer = []))
        ∧ (g.rcd.deadline ≠ 0 → g.abort = none → goes (.deadlineExpiry tn.id g.key) (fun t => ∃ h, t.gang? g.key = some h ∧ h.abort = some 3)))
    ∧ (s.gang? r.key = none → tn.queue = [r] → r.deadline ≠ 0 → r.done = 0 → r.succ = 0 → tn.pending = [] →
        goes (.deadlineExpiry tn.id r.key) (fun t => of t (fun u => u.queue = []) ∧ ∀ z, t.byteAt z = s.byteAt z))

/-- Vats that change (R127 to R130, R239). A defined vat shows V with the next generation; a resize shows STATE 0 once every old slice has swept; a retire leaves the vat invalid and no slice with a
line of it. A sweep leaves on its slice only lines that the new generation has placed; a line of the old one moves with its data, dirty bytes and marks to its new home, by a move or a probe, but goes there written back where it serves dies whose homes now differ. A share that has failed goes offline: it leaves its slice with no line of it, and one VAT_SHARE record; another stays as it is.
Where the manual leaves a clause open, the model's choice is that of log entries 8, 46 and 71. -/
def Obligations.VatsChange : Prop :=
  ∀ (s : State) (tn : Tenant) (n pa k : Nat) (v : Vat) (slice : CoreId) (sh : Share), s.tenant tn.id = some tn → tn.vat? n = some v →
    let goes (i : Instr) (q : State → Prop) : Prop := ∃ t, exec i s = .next t ∧ q t
    let vat (t : State) : Option Vat := (t.tenant tn.id).bind (fun u => u.vat? n)
    (v.defining = true → goes (.vatcfgCompletion tn.id n) (fun t =>
        vat t = some { v with valid := true, defining := false, state := 0, cur := { v.cur with gen := v.cur.gen + 1#16 } }))
    ∧ (v.defining = false → v.valid = true → v.state = 1 →
        ((∀ c ∈ v.oldMembers, c ∈ v.swept) → goes (.vatcfgCompletion tn.id n) (fun t => vat t = some { v with old := none, state := 0, swept := [] }))
        ∧ ((∃ c ∈ v.oldMembers, c ∉ v.swept) → exec (.vatcfgCompletion tn.id n) s = .next s))
    ∧ (v.defining = false → v.valid = true → v.state = 2 → goes (.vatcfgCompletion tn.id n) (fun t =>
        vat t = some { index := n, cur := { gen := v.cur.gen } } ∧ ∀ c, ∀ l ∈ (t.slice c).lines, ¬(l.tenant = tn.id ∧ l.vat = n)))
    ∧ (v.state = 1 → slice ∈ v.oldMembers → slice ∉ v.swept → goes (.vatResizeSweep tn.id n slice) (fun t => vat t = some { v with swept := v.swept ++ [slice] }
        ∧ ∀ l ∈ (t.slice slice).lines, l.tenant = tn.id → l.vat = n → l.gen = v.cur.gen))
    ∧ (∀ l h, v.state = 1 → s.strayAt tn.id v pa = some (slice, l) → l.homeNow tn.dies v slice = some h → s.isOffline v h = false →
        (h.slice ≠ slice → (s.slice h.slice).line? tn.id n l.pa = none) →
        let whole : Prop := (placement v v.cur l.pl).toNat = 3 ∨ ∀ d ∈ tn.dies, ∀ o c, v.old = some o → homeUnder v o l.pl d l.pa false = some c → c.slice = slice →
          homeUnder v v.cur l.pl d l.pa false = some h
        let moved (t : State) : Prop := (h.slice ≠ slice → (t.slice slice).line? tn.id n l.pa = none) ∧ ∃ m, (t.slice h.slice).line? tn.id n l.pa = some m
          ∧ m.data = l.data ∧ (whole → m.dirty = l.dirty) ∧ (¬whole → m.dirty = 0#256) ∧ m.poison = l.poison ∧ m.share = h.share ∧ m.set = h.set ∧ m.gen = v.cur.gen
        goes (.lineMove tn.id n pa) moved ∧ (regionOf pa = some .hbm → tn.reaches pa = true → goes (.dualProbe tn.id n pa) moved))
    ∧ (v.state = 1 → s.strayAt tn.id v pa = none → exec (.lineMove tn.id n pa) s = .next s)
    ∧ (v.valid = true → v.allShares[k]? = some sh → (s.slice sh.slice).failing.contains (tn.id, n, sh) = false → exec (.shareOffline tn.id n k) s = .next s)
    ∧ (v.valid = true → v.allShares[k]? = some sh → (s.slice sh.slice).failing.contains (tn.id, n, sh) = true → (s.slice sh.slice).waysOff sh.bank sh.ways = false → goes (.shareOffline tn.id n k) (fun t =>
        (sh.bank, sh.ways) ∈ (t.slice sh.slice).offline ∧ (∀ l ∈ (t.slice sh.slice).lines, ¬(l.tenant = tn.id ∧ l.vat = n ∧ v.shareHolding l = some sh))
        ∧ ∃ time, Recorded s t tn.id { cause := .vatShare, flags := 0x10#8, core := sh.slice, low8 := 0#32, w10 := sh.word, w18 := time }))

/-- Errors and losses (R27, R49, R234 to R241). A corrected error changes no byte; an uncorrectable one poisons its line or doubleword, kills the activation of a struck register
and silences the core of a struck control state. A silent core is then lost: it is marked absent, holds no gang and its gang is aborted with reason 1. A suspect core that serves no gang is cleared
or marked absent. A timing replay is counted, and the skimmer poisons and logs a line that fails.
Where the manual leaves a clause open, the model's choice is that of log entries 31, 53 and 106. -/
def Obligations.ErrorsPoisonAndLose : Prop :=
  ∀ (s : State) (c : CoreId) (k : CtxId) (pa die off key : Nat) (g : Gang) (tile : BitVec 3) (latch : BitVec 1),
    let goes (i : Instr) (q : State → Prop) : Prop := ∃ t, exec i s = .next t ∧ q t
    let same (t : State) : Prop := ∀ z, t.byteAt z = s.byteAt z
    let counts (t : State) (i : Nat) : Prop :=
      t.parlour.health.toList[i]? = (s.parlour.health.toList[i]?).map (fun w => if w = 0xFFFFFFFFFFFFFFFF#64 then w else w + 1#64)
    (die < 32 → goes (.eccCorrected (.die die)) (fun t => same t ∧ counts t die))
    ∧ (∀ l sh, (s.slice c).lines = [l] → l.pa ≤ pa → pa < l.pa + 2 ^ l.lg → s.shareHolding l = some sh → dieOf c < 32 →
        goes (.eccCorrected (.slice c pa)) (fun t => same t ∧ counts t (dieOf c)
          ∧ (t.slice c).corrected = (s.slice c).corrected ++ [(l.tenant, l.vat, sh, s.tick)]
          ∧ (15 ≤ ((s.slice c).corrected.filter (fun e => e.1 = l.tenant && e.2.1 = l.vat && e.2.2.1 = sh && Config.micros e.2.2.2 s.tick ≤ 3600000000)).length →
              (l.tenant, l.vat, sh) ∈ (t.slice c).failing)))
    ∧ ((s.ctxAt c k).st ≠ .free → goes (.uncorrectableError (.tile c k tile)) (fun t => same t
        ∧ ∀ e : BitVec 3, (t.ctxAt c k).tPoison.getLsbD e.toNat = ((s.ctxAt c k).tPoison.getLsbD e.toNat || e = tile)))
    ∧ ((s.core c).gang.isSome = true → goes (.uncorrectableError (.latch c latch)) (fun t => same t
        ∧ ∀ m : BitVec 1, (t.core c).latchPoison.getLsbD m.toNat = ((s.core c).latchPoison.getLsbD m.toNat || m = latch)))
    ∧ goes (.uncorrectableError (.instrLine c pa)) (fun t => same t ∧ ∀ l ∈ (t.core c).il1, l.pa / 64 = pa / 64 → l.poison = true)
    ∧ (namesCore c = true → goes (.uncorrectableError (.sliceControl c)) (fun t => same t ∧ clusterOf c ∈ t.parlour.lostClusters ∧ t.present c = false))
    ∧ (∀ q rest, (s.ctxAt c k).vq = q :: rest → q.started = true → q.kept = none → q.sent = [] → q.serial = (s.ctxAt c k).act.serial →
        (s.ctxAt c k).readsPoison q.op = true → exec (.vectorCommandDone c k false) s = .next
          ((((s.onCtx c k (fun x => { x with vq := rest })).cmdFaulted c k q 1#2).killAt c k { cause := .uncorrectable } q.pc).engineWake c))
    ∧ (regionOf pa = some .hbm → goes (.uncorrectableError (.hbm pa)) (fun t => t.hbmPoison.contains (pa / 64) = true ∧ same t)
        ∧ (s.foreignKey pa = false → goes (.skimmerLineRead pa .clean) (fun t => t = s))
        ∧ (s.foreignKey pa = true → goes (.skimmerLineRead pa .clean) (fun t => t.hbmPoison.contains (pa / 64) = true ∧ same t)) ∧ goes (.skimmerLineRead pa .correctable) same
        ∧ goes (.skimmerLineRead pa .uncorrectable) (fun t => t.hbmPoison.contains (pa / 64) = true ∧ same t
            ∧ ∃ e ∈ t.parlour.skimmer, e.1 = pa / 2 ^ 37 % 32 ∧ e.2.toNat % 2 ^ 36 = pa / 4096 ∧ 0 < e.2.toNat / 2 ^ 40 % 2 ^ 8))
    ∧ (∀ l, (s.slice c).lines = [l] → l.pa ≤ pa → pa < l.pa + 2 ^ l.lg → goes (.uncorrectableError (.slice c pa)) (fun t =>
        (t.slice c).lines = [{ l with poison := l.poison ||| (1#4 <<< ((pa - l.pa) / 64)) }]))
    ∧ goes (.uncorrectableError (.l1 c pa)) (fun t => same t ∧ ∀ l ∈ (t.core c).l1, l.xl.pa / 64 = pa / 64 → l.poison = true)
    ∧ (off < 0x8000 → (s.core c).controlByte off = false → goes (.uncorrectableError (.localMem c off)) (fun t => same t ∧ (t.core c).localBad off 1 = true))
    ∧ (s.present c = true → ∀ place ∈ [ErrPlace.control c] ++ (if off < 0x8000 ∧ (s.core c).controlByte off = true then [.localMem c off] else []),
        goes (.uncorrectableError place) (fun t => t.present c = false ∧ c ∈ t.parlour.silent))
    ∧ (s.present c = true → (s.ctxAt c k).st ≠ .free →
        exec (.uncorrectableError (.register c k)) s = .next (s.killUncorrectable c k { cause := .uncorrectable }))
    ∧ (s.present c = true → goes (.heartbeatTimeout c) (fun t => t.present c = false ∧ t.parlour.silent = s.parlour.silent ++ [c] ∧ same t))
    ∧ (s.parlour.silent.contains c = true → s.parlour.absent.contains c = false → (s.core c).gang = some key → s.gang? key = some g → g.abort = none →
        goes (.memberLoss c) (fun t => c ∈ t.parlour.absent ∧ t.present c = false ∧ (t.core c).gang = none ∧ t.parlour.present = s.parlour.present - 1#20
          ∧ ∃ h, t.gang? key = some h ∧ h.abort = some 1 ∧ h.lostCore = c ∧ ∀ m ∈ h.members, m.core = c → m.lost = true))
    ∧ (s.parlour.suspect.contains c = true → (s.core c).gang = none → s.present c = true → goes (.suspectSelfTest c) (fun t =>
        c ∉ t.parlour.suspect ∧ (c ∈ t.parlour.absent ∨ t.core c = s.core c)))
    ∧ (s.present c = true → goes (.timingReplay c .succeeds) (fun t => same t
        ∧ (t.core c).replays = if (s.core c).replays = 0xFFFFFFFF#32 then (s.core c).replays else (s.core c).replays + 1#32))

/-- Pre-emption, save and restore (R92, R93, R176 to R178, R181, R282, R283). For a starving record the chosen gang, once its blocks are claimed, admits no more tasks and handler 252 gets the budget. When the budget
is over no context of its members issues any longer. A member whose gang is ready leaves its core with its image in its block, and the last one saves the gang, whose record waits again. A restore brings every
member back to a core that serves the gang, with its join counters, and the gang is started.
A context's record in a block gives the context back (R178, R179): from the image of a core, each context of an activation gets its PC, its scalar registers, its tiles, its
masks, its flags and its rounding mode, its mode bit and what its special registers held.
Where the manual leaves a clause open, the model's choice is that of log entries 8, 45, 50, 51, 52, 101 and 105. -/
def Obligations.GangsAreSavedAndRestored : Prop :=
  (∀ (s u : State) (tn : Tenant) (r : LaunchRec) (g : Gang) (m : Member) (l : List Nat), s.tenant tn.id = some tn →
      let goes (i : Instr) (q : State → Prop) : Prop := ∃ t, exec i s = .next t ∧ q t
      let phase (t : State) : Option GangPhase := (t.gang? g.key).map (·.phase)
      let alone : Prop := (g.members.map (·.core)).Nodup
      (tn.queue = [r] → s.place tn r = none → s.victim tn r = some g → s.claimBlocks tn g.members.length = (u, some l) → alone → u.gang? g.key = some g →
          (∀ c, u.core c = s.core c) → goes (.preemptStarvation tn.id) (fun t => phase t = some .preempting ∧ ∀ m ∈ g.members,
            (t.core m.core).noAdmit = true ∧ (t.core m.core).svcq = (s.core m.core).svcq ++ (if ((s.core m.core).entry? 252#8).isSome && !(s.core m.core).dropTasks then
              [{ index := 252#8, g3 := BitVec.ofNat 64 (tn.pbudget.toNat * 3600) }] else [])))
      ∧ (s.gang? g.key = some g → alone →
          (g.phase ≠ .preempting → exec (.preemptBudgetExpiry g.key) s = .next s)
          ∧ (g.phase = .preempting → goes (.preemptBudgetExpiry g.key) (fun t => phase t = some .saving
              ∧ ((∀ m ∈ g.members, ∀ k, (s.ctxAt m.core k).nextCopy = none) → ∀ z, t.byteAt z = s.byteAt z)
              ∧ ∀ m ∈ g.members, m.there = true → (t.core m.core).svcq = (s.core m.core).svcq.filter (fun x => x.index ≠ 254#8)
                ∧ ∀ k, (t.ctxAt m.core k).st = (let x := s.ctxAt m.core k
                    if x.st = .free then .free else if x.owed = false then .saving else if x.st = .waiting ∧ x.op.wait = .lag then .ready else x.st)
                  ∧ (t.ctxAt m.core k).g = (s.ctxAt m.core k).g ∧ (t.ctxAt m.core k).pc = (s.ctxAt m.core k).pc ∧ (t.ctxAt m.core k).t = (s.ctxAt m.core k).t))
          ∧ (g.tenant = tn.id → g.phase = .saving → g.members = [m] → m.saved = false → m.lost = false → (s.core m.core).gang = some g.key →
              s.saveReady g.key m.core = true → (∀ x ∈ (s.core m.core).l1, x.dirty = 0#64) → (s.core m.core).outbox = [] → goes (.memberSave m.core) (fun t =>
                phase t = some .saved ∧ (t.core m.core).gang = none ∧ (∀ k, (t.ctxAt m.core k).st = .free)
                ∧ (∃ v, t.tenant tn.id = some v ∧ v.queue = tn.queue ++ [{ g.rcd with age := 0 }])
                ∧ (∃ h, t.gang? g.key = some h ∧ (∀ x ∈ h.members, x.saved = true) ∧ h.groups = s.groups.filter (fun x => x.gang = g.key))
                ∧ (s.bindings = [] → (∀ k, (s.ctxAt m.core k).op.fault = none ∧ (s.ctxAt m.core k).act.poisoned = false ∧ (s.ctxAt m.core k).deferred = []) → tn.liveVat 0 = none → (∀ i < 1024, regionOf (tn.blockAt m.block + 64 * i) = some .hbm
                    ∧ tn.reaches (tn.blockAt m.block + 64 * i) = true) →
                    ∀ i < 65536, t.byteAt (.hbm (tn.blockAt m.block + i)) = ((s.core m.core).image m none).get i)))
          ∧ (g.tenant = tn.id → g.phase = .restoring → g.members = [m] → g.abort = none → g.bindings = [] → m.lost = false →
              let read := s.readLines tn (tn.blockAt m.block) 1024
              let y (k : CtxId) : Context := contextOf read.2.1 read.2.2 s.tick k ((m.kept.getD {}).ctx k).act.serial
              (∀ i ∈ read.2.2, 0x80 ≤ i) → goes (.gangRestore g.key) (fun t => phase t = some .started ∧ (t.core m.core).gang = some g.key
                ∧ (∀ j < 32, (t.core m.core).counters.toList[j]? = some (counterOf read.2.1 j)) ∧ (t.core m.core).noAdmit = false ∧ (t.core m.core).steer = []
                ∧ (∀ k, (t.ctxAt m.core k).pc = (y k).pc ∧ (t.ctxAt m.core k).g = (y k).g ∧ (t.ctxAt m.core k).t = (y k).t)
                ∧ (∀ gr rank r v, s.groups = [gr] → gr.gang = g.key → gr.arrivals = [(rank, r, v)] → r.core = m.core → (y r.ctx).st = .ready →
                    (y r.ctx).act.serial = r.serial → t.groups = [gr] ∧ (t.ctxAt m.core r.ctx).st = .waiting
                      ∧ (t.ctxAt m.core r.ctx).op = { elapsed := (y r.ctx).op.elapsed, wait := .group (BitVec.ofNat 2 gr.slot), timed := true, phase := 9,
                                                      aux := (groupScope gr.members).toNat })
                ∧ ∃ h, t.gang? g.key = some h ∧ ∀ x ∈ h.members, x.saved = false ∧ x.block = 0))))
  ∧ (∀ (c : Core) (m : Member) (bind : Option (Binding × Bool)) (bad : List Nat) (tick : Nat) (k : CtxId) (serial : Nat),
      let x := c.ctx k
      let y := contextOf (c.image m bind) bad tick k serial
      x.st ≠ .free → (∀ i, x.act.source = .pail i → i < 255) → x.act.sregs < 2 ^ 8 → x.act.tiles < 2 ^ 4 →
      y.pc = x.pc ∧ (∀ r, y.rg r = x.rg r) ∧ (∀ t, y.tile t = x.tile t) ∧ y.m1 = x.m1 ∧ y.m2 = x.m2 ∧ y.m3 = x.m3 ∧ y.fflags = x.fflags ∧ y.frm = x.frm ∧ y.dzt = x.dzt
      ∧ y.sup = x.sup ∧ y.scaleBase = x.scaleBase ∧ y.scaleOrg = x.scaleOrg ∧ y.lgtbase = x.lgtbase ∧ y.faultCause = (c.faultCtx k).faultCause ∧ y.faultAddr = (c.faultCtx k).faultAddr
      ∧ y.faultPc = (c.faultCtx k).faultPc ∧ y.act.sregs = x.act.sregs ∧ y.act.tiles = x.act.tiles
      ∧ y.wroteG = x.wroteG ∧ y.wroteT = x.wroteT ∧ y.act.begun = x.act.begun ∧ y.act.dirtied = x.act.dirtied ∧ y.mflt = x.mflt ∧ y.vflt = x.vflt
      ∧ y.cScope = x.cScope ∧ y.vScope = x.vScope ∧ y.op.elapsed = x.op.elapsed
      ∧ (x.op.aux < 2 ^ 40 → y.op.phase = x.op.containPhase ∧ (y.op.phase ≠ 0 → y.op.aux = x.op.aux))
      ∧ ∀ i, x.act.source = .pail i → y.act.source = .pail i)

/-- The host and the peers (R1, R5, R114, R133, R134, R242 to R246, R248, R252, R382, R383). BAR0 reads zero and takes the tenants' launch doorbells, BAR2 gives the management
registers, and BAR4 the tenants' memories: a read answers its bytes, an Unsupported Request without a window, poison, or 4 with a record where the translation faults and without
one where a table entry is poisoned; a write writes its bytes or, where it faults, nothing. The posted writes before a port's zero-length read are acknowledged when it completes, and the next one
is issued; a completed host read gives the bytes and a failed one poison; a link that goes down acknowledges what it held and discards it. A peer that times out fails its
waits, reads and writes and is counted. An inbound request is served where the grant list holds its pair and the bytes lie in the tenant's ranges, and refused otherwise and while RESET runs; an address wait is
recorded at its home, an acquiring load that meets a stamp asks for its drain, and the withdrawal of one that is not recorded answers 1. A translation that meets a stamp asks for its drain, and does nothing else.
Where the manual leaves a clause open, the model's choice is that of log entries 8, 27, 28, 55, 59, 77, 102 and 103. -/
def Obligations.HostAndPeersAreServed : Prop :=
  ∀ (s u : State) (tn : Tenant) (p : Packet) (r : Req) (off n port src srcTenant pa bus : Nat) (bytes : List Byte) (xl xh : Xl) (e : UnitFault) (op : PeerOp),
    s.tenant tn.id = some tn →
    let goes (i : Instr) (q : State → Prop) : Prop := ∃ t, exec i s = .next t ∧ q t
    let same (t : State) : Prop := ∀ z, t.byteAt z = s.byteAt z
    let va := (tn.hwbase.toNat + off) % 2 ^ 57
    let record (write : Bool) : FaultRec := { cause := e.cause, flags := if write then 0x18#8 else 0x10#8, core := 0#20, w10 := 0#64, w18 := BitVec.ofNat 64 va }
    let x := s.ctxAt r.core r.ctx
    let asks : Prop := r.bg = false ∧ x.st = .waiting ∧ x.act.serial = r.serial
    let at4 := tn.id * 2 ^ 32 + off
    let read := s.unitRead tn.id tn.homeDie false (n / 64 + 2) va n
    let meets (z : State) (sl : CoreId) (st : Stamp) (reach : Scope) : Prop := z.blocked = some (sl, st, reach) ∧ s.blocked = none
    let on (q : Req) (y : Xl) : Prop := s.peerPort q y = some port
    (tn.id < 16 → off < 2 ^ 32 → tn.hwbase = 0#64 → goes (.hostWindowRead 4 at4 n) (fun t => t.parlour.hostReply = some (1, []) ∧ same t)
        ∧ exec (.hostWindowWrite 4 at4 bytes) s = .next s)
    ∧ (tn.id < 16 → tn.hwbase ≠ 0#64 → off < 2 ^ 32 → off + n ≤ 2 ^ 32 →
        (read = (u, .ok bytes) → u.blocked = s.blocked → goes (.hostWindowRead 4 at4 n) (fun t => t.parlour.hostReply = some (0, bytes)))
        ∧ (∀ sl st reach, read = (u, .error e) → meets u sl st reach → exec (.hostWindowRead 4 at4 n) s = .next (s.askDrain sl st reach false))
        ∧ (read = (u, .error e) → u.blocked = s.blocked → e.cause ≠ .uncorrectable → goes (.hostWindowRead 4 at4 n) (fun t => t.parlour.hostReply = some (4, []) ∧ Recorded u t tn.id (record false)))
        ∧ (read = (u, .error e) → u.blocked = s.blocked → e.cause = .uncorrectable → goes (.hostWindowRead 4 at4 n) (fun t =>
            t.parlour.hostReply = some (if e.level = 0#3 then 2 else 4, []) ∧ t.tenants = u.tenants)))
    ∧ (tn.id < 16 → tn.hwbase ≠ 0#64 → bytes ≠ [] → off < 2 ^ 32 → off + bytes.length ≤ 2 ^ 32 →
        (s.unitXl tn.id tn.homeDie va .write false = (u, .error e) → u.blocked = s.blocked → goes (.hostWindowWrite 4 at4 bytes) (fun t => (∀ z, t.byteAt z = u.byteAt z)
            ∧ (e.cause ≠ .uncorrectable → Recorded u t tn.id (record true)) ∧ (e.cause = .uncorrectable → e.level ≠ 0#3 → t.tenants = u.tenants)))
        ∧ (s.unitXl tn.id tn.homeDie va .write false = (s, .ok xl) → va % 64 + bytes.length ≤ 64 →
            s.unitXl tn.id tn.homeDie (va + bytes.length - 1) .write false = (s, .ok xh) → s.bare tn (mkCore tn.homeDie 0 0 0) xl → s.keyed tn xl →
            goes (.hostWindowWrite 4 at4 bytes) (fun t =>
              (∀ j b, bytes[j]? = some b → t.byteAt (.hbm (xl.pa + j)) = b) ∧ ∀ z, (∀ j < bytes.length, z ≠ .hbm (xl.pa + j)) → t.byteAt z = s.byteAt z)))
    ∧ (off + n ≤ 2 ^ 20 → goes (.hostWindowRead 0 off n) (fun t => t.parlour.hostReply = some (0, List.replicate n 0#8) ∧ same t))
    ∧ (off % 2 ^ 16 ≠ 0 → exec (.hostWindowWrite 0 off bytes) s = .next s)
    ∧ (∀ v, tn.id < 16 → exec (.hostWindowWrite 0 (tn.id * 2 ^ 16) (leBytesOf 8 v)) s = exec (.launchDoorbell tn.id (BitVec.ofNat 64 v)) s)
    ∧ (∀ w : Word, (off = 0 ∧ w = BitVec.ofNat 64 (s.parlour.present.toNat * 2 ^ 44 + s.parlour.state % 256 * 2 ^ 32 + 0xB0 * 2 ^ 16 + 0x0A31) ∨ off = 0x140 ∧ w = s.parlour.status
          ∨ (∃ i, off = 0x100 + 8 * i ∧ s.parlour.block.toList[i]? = some w) ∨ (∃ i, off = 0x1000 + 8 * i ∧ s.parlour.diePower.toList[i]? = some w)
          ∨ (∃ i, off = 0x2000 + 8 * i ∧ s.parlour.health.toList[i]? = some w)) →
        goes (.hostWindowRead 2 off 8) (fun t => t.parlour.hostReply = some (0, leBytesOf 8 w.toNat) ∧ same t))
    ∧ (∀ w1 w2 sc, w1.port = port → w1.ack = some (r, sc) → w1.asked = true → w2.port = port →
        (s.parlour.posted = [w1] → goes (.hostWriteFlushComplete port) (fun t => Sends s t [.ack r sc] ∧ t.parlour.posted = [] ∧ same t))
        ∧ (s.parlour.posted = [w1, w2] → w2.asked = false → goes (.hostWriteFlushComplete port) (fun t => Sends s t [.ack r sc] ∧ same t
            ∧ ∃ w, t.parlour.posted = [w] ∧ w.ack = w2.ack ∧ w.asked = true)))
    ∧ (s.picked p → p.body = .hostRead r bus n → asks → s.ownerOf r.core = some tn → s.parlour.linkDown.contains tn.aport = false →
        (∀ q ∈ s.net, q.writesLine r.core (2 ^ 51 + (bus - tn.aperture)) = false) →
        goes (.hostReadCompletion false) (fun t => Answers s t p [] ∧ same t ∧ (t.ctxAt r.core r.ctx).st = .ready
          ∧ (t.ctxAt r.core r.ctx).op.result = some (BitVec.ofNat 64 (leOf ((List.range n).map (fun j => s.byteAt (.host (bus + j))))))))
    ∧ (s.picked p → p.body = .hostRead r bus n → asks → ∀ i ∈ [Instr.hostReadTimeout, .hostReadCompletion true], goes i (fun t => Answers s t p [] ∧ same t
          ∧ (t.ctxAt r.core r.ctx).st = .ready ∧ (t.ctxAt r.core r.ctx).op.fault = some { cause := .uncorrectable }))
    ∧ (port < 2 → s.net = [] → ∀ w sc, s.parlour.posted = [w] → w.port = port → w.ack = some (r, sc) → goes (.hostLinkDown port) (fun t => Sends s t [.ack r sc]
          ∧ t.parlour.posted = [] ∧ port ∈ t.parlour.linkDown ∧ (∀ a, t.byteAt (.host a) = s.hostMem.get a) ∧ ∀ z, (∀ a, z ≠ .host a) → t.byteAt z = s.byteAt z))
    ∧ (goes (.blulinPeerTimeout port) (fun t => t.parlour.health.toList[99]? = (s.parlour.health.toList[99]?).map satInc
          ∧ ∀ w, w ∈ t.peerWaits ↔ w ∈ s.peerWaits ∧ ¬on w.req w.xl))
    ∧ (s.net = [] → s.peerWaits = [] → goes (.blulinPeerTimeout port) (fun t => same t ∧ t.net = []))
    ∧ (∀ w, s.net = [] → s.peerWaits = [w] → w.req = r → on r w.xl → asks → goes (.blulinPeerTimeout port) (fun t => same t ∧ t.peerWaits = []
          ∧ (t.ctxAt r.core r.ctx).st = .ready ∧ (t.ctxAt r.core r.ctx).op.fault = some { cause := .uncorrectable, addr := BitVec.ofNat 64 w.xl.pa }))
    ∧ (∀ a cells bad stamp sc, s.net = [p] → s.peerWaits = [] → on r xl →
        (p.body = .write r xl a cells bad stamp sc → goes (.blulinPeerTimeout port) (fun t => same t ∧ Answers s t p [.ack r sc]))
        ∧ (∀ v aop dw o1 o2 acq, p.body = .atomic r xl v aop dw o1 o2 true stamp acq sc → asks → goes (.blulinPeerTimeout port) (fun t => same t ∧ Answers s t p []
            ∧ (t.ctxAt r.core r.ctx).st = .ready ∧ (t.ctxAt r.core r.ctx).op.fault = some { cause := .uncorrectable, addr := v })))
    ∧ (let granted : Prop := ∃ g ∈ tn.grants, g.2.getLsbD 63 = true ∧ g.2.toNat / 2 ^ 32 % 2 ^ 16 = src ∧ g.2.toNat % 16 = srcTenant
       let at_ := pa % 2 ^ 44
       ((¬granted ∨ s.parlour.resetting tn.id = true ∨ regionOf at_ ≠ some .hbm ∨ tn.reaches at_ = false) → goes (.blulinInboundRequest src srcTenant tn.id op pa) (fun t => t.parlour.peerReply = some (1, []) ∧ same t))
       ∧ (granted → s.parlour.resetting tn.id = false → regionOf at_ = some .hbm → tn.reaches at_ = true → regionOf (at_ + (n - 1)) = some .hbm → tn.reaches (at_ + (n - 1)) = true →
           tn.liveVat 0 = none → (∀ sl, (s.slice sl).waits = []) → at_ % 64 + n ≤ 64 → 0 < n → s.legible tn (physXl at_) →
           (∀ acq : Bool, (acq = true → s.outsideStamp tn (physXl at_) = none) → goes (.blulinInboundRequest src srcTenant tn.id (.read n acq) pa) (fun t => same t
             ∧ t.parlour.peerReply = some (0, (List.range n).map (fun j => s.byteAt (.hbm (at_ + j))))))
           ∧ (∀ sl st, s.outsideStamp tn (physXl at_) = some (sl, st) →
               exec (.blulinInboundRequest src srcTenant tn.id (.read n true) pa) s = .next (s.askDrain sl st 3#2 false))
           ∧ (bytes.length = n → goes (.blulinInboundRequest src srcTenant tn.id (.write bytes) pa) (fun t => t.parlour.peerReply = some (0, [])
               ∧ (∀ j b, bytes[j]? = some b → t.byteAt (.hbm (at_ + j)) = b) ∧ ∀ z, (∀ j < n, z ≠ .hbm (at_ + j)) → t.byteAt z = s.byteAt z))
           ∧ (∀ cmp expected mask, let w : WaitEntry := { req := outsideReq, xl := physXl at_, size := n, cmp := cmp, expected := expected, mask := mask, peer := some (src, srcTenant, tn.id) }
               let home := s.homeOf tn.id (physXl at_) tn.homeDie false
               (w.test ((List.range n).map (fun j => s.byteAt (.hbm (at_ + j)))) = false → goes (.blulinInboundRequest src srcTenant tn.id (.wait n cmp expected mask) pa)
                 (fun t => same t ∧ (t.slice home).waits = [w]))
               ∧ goes (.blulinInboundRequest src srcTenant tn.id (.withdraw n cmp expected mask) pa) (fun t => same t ∧ t.parlour.peerReply = some (1, [])))))

/-- The Ethernet controller (R247, R251). A poll takes the tail as memory holds it, once a stamp on its line is drained (R147), a resolved address is kept, a work request that ends moves the queue pair on, with a completion entry where it is signalled or has failed, and waits for a resolved destination; a send whose local side the tables forbid fails; an inbound request
of an unknown key, outside its region or without its flag is refused and changes nothing, and one that is allowed reads its bytes.
Where the manual leaves a clause open, the model's choice is that of log entries 60 and 102. -/
def Obligations.QueuePairsAdvance : Prop :=
  ∀ (s u : State) (q : QueuePair) (n rkey status : Nat) (w va : Word) (mac : BitVec 48) (op : PeerOp) (r : RegRegion) (tn : Tenant) (bytes : List Byte),
    let goes (i : Instr) (z : State → Prop) : Prop := ∃ t, exec i s = .next t ∧ z t
    let same (t : State) : Prop := ∀ z, t.byteAt z = s.byteAt z
    let refused (t : State) : Prop := t.parlour.peerReply = some (1, []) ∧ same t
    (s.qp? n = some q → q.num = n →
      ((s.ethAcquire q.tenant q.tailVa.toNat).ethRead q.tenant q.tailVa.toNat = (u, some w) → u.parlour.qps = s.parlour.qps →
          (u.blocked = s.blocked → goes (.qpTailPoll n) (fun t => t.qp? n = some { q with tail := w }))
          ∧ (∀ sl st reach, u.blocked = some (sl, st, reach) → s.blocked = none → exec (.qpTailPoll n) s = .next (s.askDrain sl st reach false)))
      ∧ goes (.arpNeighbourDiscovery n mac) (fun t => t.qp? n = some { q with mac := some mac } ∧ same t)
      ∧ ((q.mac = none ∨ 2 < status ∨ q.next = q.tail.toNat % q.sendLen) → exec (.qpWorkCompletion n status) s = .next s)
      ∧ (∀ head x d, q.mac ≠ none → 0 < status → status ≤ 2 → q.next ≠ q.tail.toNat % q.sendLen → s.ethRead q.tenant q.headVa.toNat = (u, some head) →
          (q.comp + 1) % q.compLen ≠ head.toNat % q.compLen → u.tenant q.tenant = some tn → tn.id = q.tenant →
          u.unitDwords q.tenant tn.homeDie false ((q.sendVa.toNat + 64 * q.next) % 2 ^ 57) 8 = (x, .ok d) → x.parlour.qps = s.parlour.qps → x.tenant q.tenant = some tn →
          (x.entryEnds q d status).blocked = s.blocked → goes (.qpWorkCompletion n status) (fun t => ∃ z, t.qp? n = some z ∧ z.next = (q.next + 1) % q.sendLen ∧ z.comp = (q.comp + 1) % q.compLen ∧ z.tail = q.tail))
      ∧ (∀ head x y d, q.mac ≠ none → q.next ≠ q.tail.toNat % q.sendLen → s.ethRead q.tenant q.headVa.toNat = (u, some head) →
          (q.comp + 1) % q.compLen ≠ head.toNat % q.compLen → u.tenant q.tenant = some tn → tn.id = q.tenant →
          u.unitDwords q.tenant tn.homeDie false ((q.sendVa.toNat + 64 * q.next) % 2 ^ 57) 8 = (x, .ok d) → x.tenant q.tenant = some tn → y.parlour.qps = s.parlour.qps →
          let d0 := (d[0]?).getD 0#64
          let len := d0.toNat / 2 ^ 32
          let side := x.unitRead q.tenant tn.homeDie false (len / 64 + 2) (((d[1]?).getD 0#64).toNat % 2 ^ 57) len
          let moves (t : State) (k : Nat) : Prop := ∃ z, t.qp? n = some z ∧ z.next = (q.next + 1) % q.sendLen ∧ z.comp = k ∧ z.tail = q.tail
          d0.toNat % 256 ≤ 3 →
          (side = (y, .ok bytes) → d0.getLsbD 8 = true → (y.entryEnds q d 0).blocked = s.blocked → goes (.qpWorkCompletion n 0) (fun t => moves t ((q.comp + 1) % q.compLen)))
          ∧ (side = (y, .ok bytes) → d0.getLsbD 8 = false → y.blocked = s.blocked → goes (.qpWorkCompletion n 0) (fun t => moves t q.comp ∧ ∀ z, t.byteAt z = y.byteAt z))
          ∧ (∀ e, side = (y, .error e) → (y.entryEnds q d 3).blocked = s.blocked → goes (.qpWorkCompletion n 0) (fun t => moves t ((q.comp + 1) % q.compLen)))))
    ∧ (s.parlour.regions.find? (fun r => r.rkey = rkey) = none → goes (.rdmaInbound rkey op va) refused)
    ∧ (s.parlour.regions.find? (fun r => r.rkey = rkey) = some r → s.tenant r.tenant = some tn → tn.id = r.tenant →
        ((va.toNat < r.va.toNat ∨ r.va.toNat + r.len.toNat < va.toNat + peerSize op) → goes (.rdmaInbound rkey op va) refused)
        ∧ (r.flags.getLsbD 1 = false → goes (.rdmaInbound rkey (.read n false) va) refused)
        ∧ (r.flags.getLsbD 0 = false → goes (.rdmaInbound rkey (.write bytes) va) refused)
        ∧ (r.flags.getLsbD 1 = true → r.va.toNat ≤ va.toNat → va.toNat + n ≤ r.va.toNat + r.len.toNat →
            s.unitRead tn.id tn.homeDie false (n / 64 + 2) (va.toNat % 2 ^ 57) n = (u, .ok bytes) → u.blocked = s.blocked →
            goes (.rdmaInbound rkey (.read n false) va) (fun t => t.parlour.peerReply = some (0, bytes))))

/-- The parlour (R8, R27, R118, R248 to R254). Bring-up with an image enters READY with CYCLE 0 and no absent core; before READY a configuration request is retried. The command block takes writes. The doorbell clears DONE and runs the command
of the block, or ends it with status 4 where no command has the code. A command ends with DONE, its status and the length of its result: a block that breaks its layout, has another parameter length, or gives an address of parameters or of a result that the command does not have, gives 4, a tenant that is not there 1, too
small a result area 6. Its own effect follows: CREATE makes the tenant with vat 0, RESET empties it, DESTROY removes it, and the others do what their entries say.
Where the manual leaves a clause open, the model's choice is that of log entries 5, 56, 61, 62, 63, 64, 65 and 103. -/
def Obligations.CommandsRun : Prop :=
  ∀ (s u : State) (tn : Tenant) (off die : Nat) (value : Word) (meas : BitVec 16) (images : BootImages) (write : PortWrite),
    let p := s.parlour
    let goes (i : Instr) (q : State → Prop) : Prop := ∃ t, exec i s = .next t ∧ q t
    let same (t : State) : Prop := ∀ z, t.byteAt z = s.byteAt z
    let word (t : State) (a : Nat) : Nat := leOf ((List.range 8).map (fun j => t.byteAt (.host (a + j))))
    let param (o : Nat) : Nat := leOf ((List.range 8).map (fun j => p.area.get (p.cmd 1 + o + j)))
    let up : Prop := p.linkDown.contains p.port = false
    let ends (t : State) (st n : Nat) : Prop := t.parlour.status = BitVec.ofNat 64 (2 ^ 63 + n * 2 ^ 16 + st) ∧ t.parlour.busy = none
    let sound : Prop := p.cmd 0 < 2 ^ 12 ∧ p.cmd 1 % 8 = 0 ∧ p.cmd 2 < 2 ^ 32 ∧ p.cmd 3 % 8 = 0 ∧ p.cmd 4 < 2 ^ 32 ∧ p.cmd 5 = 0 ∧ p.cmd 6 = 0 ∧ p.cmd 7 = 0
    let named : Prop := s.tenant p.cmdTenant = some tn ∧ tn.id = p.cmdTenant
    let runs (i : Instr) (code len : Nat) (extra : Prop) (room : Nat) (q : State → Prop) : Prop :=
      p.busy = some code → sound → p.cmd 2 = len → (len = 0 → p.cmd 1 = 0) → (room = 0 → p.cmd 3 = 0) → extra → room ≤ p.cmd 4 → goes i q
    let all : List (Instr × Nat × Nat × Nat) := [(.create, 1, 0xB40, 0), (.reset, 2, 0, 0), (.destroy, 3, 0, 0), (.setWindow, 4, 16, 0), (.preempt, 5, 16, 0),
      (.kill, 6, 16, 0), (.setCap, 7, 8, 0), (.attest, 8, 48, 0x158), (.readLog, 10, 0, 8 * p.logs.length)]
    (∀ j ∈ all, (p.busy ≠ some j.2.1 → exec j.1 s = .next s)
      ∧ (p.busy = some j.2.1 → (¬sound ∨ p.cmd 2 ≠ j.2.2.1 ∨ j.2.2.1 = 0 ∧ p.cmd 1 ≠ 0 ∨ j.2.2.2 = 0 ∧ p.cmd 3 ≠ 0) → goes j.1 (fun t => ends t 4 0 ∧ same t)))
    ∧ (∀ j ∈ [((.reset, 2, 0) : Instr × Nat × Nat), (.destroy, 3, 0), (.attest, 8, 48)], p.busy = some j.2.1 → sound → p.cmd 2 = j.2.2 → (j.2.2 = 0 → p.cmd 1 = 0 ∧ p.cmd 3 = 0) → s.tenant p.cmdTenant = none →
        goes j.1 (fun t => ends t 1 0 ∧ same t))
    ∧ (let good : Prop := ∃ i : FirmwareImage, (images.drive0 = some i ∨ images.drive1 = some i) ∧ i.verifies = true ∧ i.key = p.fusedKey ∧ p.rollback ≤ i.version
       (p.state = 0 → good → ∀ l, goes (.moduleBringUp images l) (fun t => t.parlour.state = 1 ∧ t.parlour.measured = s.tick ∧ same t))
       ∧ (p.state = 1 → images.microcode = true → goes (.moduleBringUp images []) (fun t => t.parlour.state = 2 ∧ t.cycle = 0#64 ∧ t.parlour.present = 663552#20
           ∧ t.parlour.absent = [] ∧ same t))
       ∧ ((p.state = 0 ∧ ¬good ∨ p.state = 1 ∧ images.microcode = false ∨ 2 ≤ p.state) → ∀ l, exec (.moduleBringUp images l) s = .next s))
    ∧ (p.state < 2 → ∀ port, goes (.pcieConfigRequest port) (fun t => t.parlour.configRetries = p.configRetries + 1 ∧ same t))
    ∧ (off < 8 → goes (.registerWrite (0x100 + 8 * off) value) (fun t => t.parlour.block.toList = p.block.toList.set off value ∧ same t))
    ∧ ((off % 8 ≠ 0 ∨ off < 0x100 ∨ 0x140 ≤ off) → exec (.registerWrite off value) s = .next s)
    ∧ (∀ w, p.diePower.toList[die]? = some w → goes (.powerStepAdjust die meas) (fun t => ∃ z, t.parlour.diePower.toList[die]? = some z
        ∧ z.toNat / 2 ^ 48 = w.toNat / 2 ^ 48 ∧ z.toNat / 2 ^ 32 % 2 ^ 16 = meas.toNat ∧ z.toNat % 32 ≤ 31
        ∧ (w.toNat / 2 ^ 48 < meas.toNat → z.toNat % 32 = min 24 (w.toNat % 32 + 1)) ∧ (meas.toNat ≤ w.toNat / 2 ^ 48 → z.toNat % 32 ≤ w.toNat % 32)))
    ∧ (p.busy = none → 2 ≤ p.state → p.linkDown.contains write.port = false → let code := p.block[0].toNat % 256
        (0 < code → code ≤ 10 → goes (.commandDoorbell write) (fun t => t.parlour.busy = some code ∧ t.parlour.running = p.block ∧ t.parlour.port = write.port
            ∧ t.parlour.status = 0#64 ∧ same t
            ∧ ∀ j, j < p.block[2].toNat % 2 ^ 32 → t.parlour.area.get (p.block[1].toNat + j) = s.byteAt (.host (p.block[1].toNat + j))))
        ∧ ((code = 0 ∨ 10 < code) → goes (.commandDoorbell write) (fun t => ends t 4 0 ∧ same t)))
    ∧ (p.busy ≠ none → exec (.commandDoorbell write) s = .next s)
    ∧ (∀ j ∈ ([(.createQp, 9, 0x60, 8, named ∧ s.subOp = 0 ∧ s.qpBad = false ∧ s.paramZero 1 8 = true),
          (.regRegion, 9, 32, 8, named ∧ s.subOp = 2 ∧ s.paramZero 1 8 = true ∧ param 8 % 4096 = 0 ∧ param 16 % 4096 = 0 ∧ param 24 < 8),
          (.attest, 8, 48, 0x158, named), (.readLog, 10, 0, 8 * p.logs.length, True)] : List (Instr × Nat × Nat × Nat × Prop)),
        p.busy = some j.2.1 → sound → p.cmd 2 = j.2.2.1 → (j.2.2.1 = 0 → p.cmd 1 = 0) → j.2.2.2.2 → p.cmd 4 < j.2.2.2.1 → goes j.1 (fun t => ends t 6 0 ∧ same t))
    ∧ (let cl := s.bitmapClusters
       let ranges := s.createRanges
       let id := p.cmdTenant
       (runs .create 1 0xB40 (s.createBad = false ∧ (s.tenant id).isSome = true) 0 (fun t => ends t 1 0 ∧ same t))
       ∧ (runs .create 1 0xB40 (s.createBad = false ∧ s.tenants = []) 0 (fun t => ends t 0 0 ∧ ∃ x, t.tenant id = some x ∧ x.clusters = cl ∧ x.ranges = ranges
           ∧ x.aperture = param 0xA28 ∧ x.aport = param 0xA30 ∧ x.hwbase = BitVec.ofNat 64 (param 0xA38) ∧ x.ptroot = 0#64 ∧ x.pbudget.toNat = 20 ∧ x.queue = []
           ∧ (x.liveVat 0).map (fun v => v.cur.shares) = some (cl.flatMap (fun c => (List.range 8).map (fun b => { slice := c, bank := BitVec.ofNat 3 b, ways := 0xFFFF#16 })))
           ∧ ∀ c ∈ cl, t.byteAt (.hbm (x.vatRoot + 0x10000 + clusterIndex c)) = 1#8)))
    ∧ (runs .reset 2 0 (named ∧ s.gangs = []) 0 (fun t => ends t 0 0 ∧ (∃ x, t.tenant tn.id = some x ∧ x.clusters = tn.clusters ∧ x.ranges = tn.ranges ∧ x.queue = [] ∧ x.ptroot = 0#64)
        ∧ (∀ c ∈ tn.clusters, ∀ l ∈ (t.slice c).lines, False) ∧ ∀ c, tn.clusters.contains (clusterOf c) = true → (t.core c).gang = none))
    ∧ (runs .destroy 3 0 (named ∧ s.gangs = []) 0 (fun t => ends t 0 0 ∧ t.tenant tn.id = none))
    ∧ (runs .setWindow 4 16 (named ∧ s.windowBad = false) 0 (fun t => ends t 0 0 ∧ same t ∧ ∃ x, t.tenant tn.id = some x
        ∧ (param 0 % 2 = 0 → assoc? (param 0 / 2 ^ 8) x.windows = some (BitVec.ofNat 64 (param 8)) ∧ x.grants = tn.grants)
        ∧ (param 0 % 2 = 1 → assoc? (param 0 / 2 ^ 8) x.grants = some (BitVec.ofNat 64 (param 8)) ∧ x.windows = tn.windows)))
    ∧ (runs .preempt 5 16 (named ∧ s.gangParamBad = false ∧ p.begun = false ∧ s.matching = []) 0 (fun t => ends t 5 0 ∧ same t))
    ∧ (runs .preempt 5 16 (named ∧ s.gangParamBad = false ∧ p.begun = true ∧ p.awaits = []) 0 (fun t => ends t 0 0 ∧ same t))
    ∧ (runs .preempt 5 16 (named ∧ s.gangParamBad = false ∧ p.begun = true ∧ p.awaits ≠ []) 0 (fun t => t = s))
    ∧ (let gs := s.matching
       let run := gs.filter Gang.preemptible
       let blocks := (run.map (fun g => g.members.length)).sum
       let ready : Prop := named ∧ s.gangParamBad = false ∧ p.begun = false ∧ gs ≠ [] ∧ ∀ g ∈ gs, g.phase ≠ .placed ∧ g.phase ≠ .restoring
       (runs .preempt 5 16 (named ∧ s.gangParamBad = false ∧ p.begun = false ∧ ∃ g ∈ gs, g.phase = .placed ∨ g.phase = .restoring) 0 (fun t => t = s))
       ∧ (runs .preempt 5 16 (ready ∧ s.claimBlocks tn blocks = (u, none)) 0 (fun t => ends t 3 0 ∧ same t ∧ t.gangs = s.gangs))
       ∧ (∀ l, runs .preempt 5 16 (ready ∧ s.claimBlocks tn blocks = (u, some l) ∧ (gs.map (·.key)).Nodup ∧ ∀ g ∈ gs, u.gang? g.key = some g) 0 (fun t =>
           t.parlour = { u.parlour with begun := true, awaits := (gs.filter (fun g => g.preemptible || g.phase = .preempting || g.phase = .saving)).map (·.key) }
           ∧ (∀ g ∈ run, (∃ h, t.gang? g.key = some h ∧ h.phase = .preempting) ∧ ∀ m ∈ g.members, (t.core m.core).noAdmit = true)
           ∧ (∀ g, gs = [g] → g.preemptible = true → ∃ h, t.gang? g.key = some h ∧ h.members.map (·.core) = g.members.map (·.core)
               ∧ ∀ i < g.members.length, (h.members[i]?).map (·.block) = some (l[i]?.getD 0)))))
    ∧ (runs .kill 6 16 (named ∧ s.gangParamBad = false ∧ s.matching = [] ∧ tn.queue = [] ∧ tn.pending = []) 0 (fun t => ends t 5 0 ∧ same t))
    ∧ (∀ g, runs .kill 6 16 (named ∧ s.gangParamBad = false ∧ s.matching = [g] ∧ tn.queue = [] ∧ tn.pending = [] ∧ s.gang? g.key = some g ∧ g.abort = none) 0 (fun t =>
        ends t 0 0 ∧ ∃ h, t.gang? g.key = some h ∧ h.abort = some 2))
    ∧ (let w := param 0
       let cap := w / 2 ^ 16 % 2 ^ 16
       runs .setCap 7 8 (w < 2 ^ 32 ∧ w / 2 ^ 5 % 2 ^ 11 = 0 ∧ 200 ≤ cap ∧ cap ≤ 1000) 0 (fun t => ends t 0 0 ∧ same t
        ∧ ∃ z, t.parlour.diePower.toList[w % 32]? = some z ∧ z.toNat / 2 ^ 48 = cap))
    ∧ (runs .attest 8 48 (named ∧ up) 0x158 (fun t => ends t 0 0x158 ∧ ∀ j < 48, t.byteAt (.host (p.cmd 3 + j)) = p.area.get (p.cmd 1 + j)))
    ∧ (runs .attest 8 48 (named ∧ ¬up) 0x158 (fun t => ends t 0 0x158 ∧ same t))
    ∧ (let sub : Prop := s.subOp = 0
       runs .createQp 9 0x60 (named ∧ sub ∧ s.qpBad = false ∧ s.paramZero 1 8 = true ∧ p.qps = [] ∧ up) 8 (fun t => ends t 0 8 ∧ word t (p.cmd 3) = 0
         ∧ ∃ q, t.parlour.qps = [q] ∧ q.num = 0 ∧ q.tenant = tn.id ∧ q.sendVa = BitVec.ofNat 64 (param 8) ∧ q.mac = none))
    ∧ (∀ q, runs .destroyQp 9 16 (named ∧ s.subOp = 1 ∧ s.paramZero 1 8 = true ∧ p.qps = [q] ∧ q.num = param 8 ∧ q.num < 4096 ∧ q.tenant = tn.id) 0 (fun t =>
        ends t 0 0 ∧ t.parlour.qps = []))
    ∧ (runs .regRegion 9 32 (named ∧ s.subOp = 2 ∧ s.paramZero 1 8 = true ∧ param 8 % 4096 = 0 ∧ param 16 % 4096 = 0 ∧ param 24 < 8 ∧ p.nextRkey < 2 ^ 32) 8 (fun t =>
        ends t 0 8 ∧ t.parlour.regions = p.regions ++ [{ rkey := p.nextRkey, tenant := tn.id, va := BitVec.ofNat 64 (param 8), len := BitVec.ofNat 64 (param 16)
                                                         flags := BitVec.ofNat 3 (param 24) }]))
    ∧ (∀ r, runs .deregRegion 9 16 (named ∧ s.subOp = 3 ∧ s.paramZero 1 8 = true ∧ p.regions = [r] ∧ r.rkey = param 8 ∧ r.rkey < 2 ^ 32 ∧ r.tenant = tn.id) 0 (fun t =>
        ends t 0 0 ∧ t.parlour.regions = []))
    ∧ (runs .readLog 10 0 up (8 * p.logs.length) (fun t => ends t 0 (8 * p.logs.length) ∧ (∀ j < 100, t.parlour.health.toList[j]? = some 0#64) ∧ t.parlour.skimmer = []
        ∧ word t (p.cmd 3) = (p.health.toList.headD 0#64).toNat))

/-- The module right after reset (R8, R31, R70, R248, R250, R253): the parlour is in RECOVERY with no status and CAP 812 on every die, no tenant, gang or packet exists, no byte of memory is listed,
and every core serves no gang, its contexts free with the start values of an activation: g0 to g31 and the tiles zero, m1 to m3 0xFFFF, FFLAGS, FRM, DZT, SCALEBASE and SCALEORG 0, WAITLIM 2^32.
Where the manual leaves a clause open, the model's choice is that of log entries 7 and 9. -/
def Obligations.ResetValues : Prop :=
  let s := State.reset
  s.parlour.state = 0 ∧ s.parlour.status = 0#64 ∧ (∀ d < 32, s.parlour.diePower.toList[d]? = some (BitVec.ofNat 64 (812 * 2 ^ 48)))
  ∧ s.tenants = [] ∧ s.gangs = [] ∧ s.groups = [] ∧ s.bindings = [] ∧ s.net = [] ∧ s.memoryForm
  ∧ (∀ p, s.byteAt p = 0#8)
  ∧ ∀ c, (s.core c).gang = none ∧ (s.core c).runq = [] ∧ (s.core c).svcq = [] ∧ (s.core c).outbox = [] ∧ (∀ j < 32, (s.core c).counters.toList[j]? = some ({} : Counter))
    ∧ ∀ k, let x := s.ctxAt c k
      x.st = .free ∧ (∀ r, x.rg r = 0#64) ∧ (∀ t r l, r < 8 → l < 16 → x.lane t r l = 0#32) ∧ x.mask 0#2 = 0xFFFF#16 ∧ x.m1 = 0xFFFF#16 ∧ x.m2 = 0xFFFF#16 ∧ x.m3 = 0xFFFF#16
      ∧ x.fflags = 0#5 ∧ x.frm = 0#3 ∧ x.dzt = false ∧ x.scaleBase = 0#64 ∧ x.scaleOrg = 0#64 ∧ x.waitlim.toNat = 2 ^ 32

/-- A step runs the decoded instruction (R29, R262, R263, R267). When the turn is a core's own and a context is next to issue, its activation's start record not being due, the step fetches the word at the PC
modulo 2^57, and of LIW, MAT and CPY the next one too, and is `exec` of the instruction that the decoder reads from their little-endian bytes; a word that is no instruction and a fetch that faults are the events
of R267 and R262. A fetch whose page and line are at hand gives the four bytes of the line, and changes nothing but which page, vat and line were used last.
Where the manual leaves a clause open, the model's choice is that of log entry 8. -/
def Obligations.StepRunsDecodedInstruction : Prop :=
  (∀ (s u : State) (k : CtxId) (w0 w1 : Lane) (i : Instr) (n : Nat) (e : DecodeErr) (f : FetchFault) (a b : State),
    ((∃ c rest, s.agenda = .issue c :: rest ∧ namesCore c = true ∧ u = ({ s.endKilledCopies.runEngines.showLogs.pass with agenda := rest } : State).focus c)
      ∨ (s.agenda = [] ∧ s.tick % 4 ≠ 3 ∧ u = s.endKilledCopies.runEngines.showLogs.pass)) →
    u.me.nextReady = some k → (u.savingAt u.meId = false ∨ (u.me.ctx k).owed = true) → ((u.me.ctx k).act.begun = true ∨ k = 3#2 ∨ u.workerBinding u.meId = none) →
    let v := (u.begin k).onCx (fun x => { x with act := { x.act with begun := true } })
    (∀ y, v.cx.op.fault = some y → y.fetch = false) →
    let pc := v.cx.pc
    let next (a : State) : State := a.onCx (fun x => { x with width := 8 })
    let bytes := leBytes 4 w0.toNat
    (v.fetchWord pc = .word a w0 → hasWord1 w0.toNat = false →
      (decode bytes = .ok (i, n) → step s = exec i a) ∧ (decode bytes = .error e → step s = exec (.illegalEncoding w0) a))
    ∧ (v.fetchWord pc = .word a w0 → hasWord1 w0.toNat = true → (next a).fetchWord (pc + 4#64) = .word b w1 →
      (decode (bytes ++ leBytes 4 w1.toNat) = .ok (i, n) → step s = exec i b)
      ∧ (decode (bytes ++ leBytes 4 w1.toNat) = .error e → step s = exec (.illegalEncoding w0) b))
    ∧ (v.fetchWord pc = .fault a f → step s = exec (.instructionFetchFault f) a)
    ∧ (v.fetchWord pc = .word a w0 → hasWord1 w0.toNat = true → (next a).fetchWord (pc + 4#64) = .fault b f →
      step s = exec (.instructionFetchFault f) b))
  ∧ (∀ (s : State) (t : Tenant) (e : PageEntry) (l : ILine) (va : Nat), va < 2 ^ 57 → va % 4 = 0 → inWindow va = false → s.missOut = false → s.ownerOf s.meId = some t → s.cx.op.leaf = none →
      s.me.steer? t.id va = some e → leafFault t e va .fetch (!s.cx.sup) = none →
      s.me.il1.find? (fun l => l.pa = (e.xl va).pa / 64 * 64) = some l → l.poison = false →
      ∃ a, s.fetchWord (BitVec.ofNat 64 va) = .word a (BitVec.ofNat 32 (leOf ((List.range 4).map (fun j => l.data.get ((e.xl va).pa + j)))))
        ∧ ({ a with me := { a.me with steer := s.me.steer, vatCache := s.me.vatCache, il1 := s.me.il1 } } : State) = s)
  ∧ (∀ (s : State) (pc : Word), (pc.toNat % 4 ≠ 0 → s.fetchWord pc = .fault s { cause := .align, level := 0#3, addr := pc })
      ∧ (pc.toNat % 4 = 0 → inWindow (pc.toNat % 2 ^ 57) = true → s.fetchWord pc = .fault s { cause := .window, level := 0#3, addr := pc }))

/-- Words of every major of R265, written out field by field in the formats of R264, decode to the instructions that they stand for; the all-zero word, a reserved major, an unassigned code, a reserved bit and a
forbidden value decode to none. -/
def Obligations.DecodeWords : Prop :=
  let is (w : Nat) (i : Instr) : Prop := decode (leBytes 4 w) = .ok (i, 4)
  let is2 (w w1 : Nat) (i : Instr) : Prop := decode (leBytes 4 w ++ leBytes 4 w1) = .ok (i, 8)
  let bad (w : Nat) : Prop := ∃ e, decode (leBytes 4 w) = .error e
  is 0b000001_00101_00011_00111_00000_000001 (.sub 5 3 7)
  ∧ is 0b000010_00100_00110_1111111111111110 (.addi 4 6 0xFFFE)
  ∧ is 0b000011_11000_10011_0000001010001010 (.andi 24 19 650)
  ∧ is 0b000100_11110_00111_0000000100100000 (.ori 30 7 288)
  ∧ is 0b000101_01101_10010_0001011000111011 (.xori 13 18 5691)
  ∧ is 0b000110_00111_11110_0000101101110101 (.slti 7 30 2933)
  ∧ is 0b000111_11110_10101_0000010111001100 (.sltiu 30 21 1484)
  ∧ is 0b001000_01001_01010_111111_00000000_10 (.sari 9 10 63)
  ∧ is 0b001001_01101_00000_0000010111000100 (.lih 13 1476)
  ∧ is 0b001011_00001_00010_00011_00000_000101 (.rem 1 2 3)
  ∧ is 0b001100_00001_00010_00000_00010_000011 (.sext 1 2 2)
  ∧ is 0b001101_00001_00010_00011_00111_000011 (.fdiv 1 2 3 7)
  ∧ is 0b001110_00001_00010_00011_00100_000_001 (.ffma 1 2 3 4 1)
  ∧ is 0b010000_10000_10111_0000101110001110 (.beq 16 23 2958)
  ∧ is 0b010001_10111_01110_0000010100100101 (.bne 23 14 1317)
  ∧ is 0b010010_00001_00010_1111111111111100 (.blt 1 2 0xFFFC)
  ∧ is 0b010011_10110_11111_0000000111011000 (.bge 22 31 472)
  ∧ is 0b010100_00101_01010_0001011010110011 (.bltu 5 10 5811)
  ∧ is 0b010101_01111_00110_0000101111111101 (.bgeu 15 6 3069)
  ∧ is 0b010110_00000000000000010100100110 (.jmp 1318)
  ∧ is 0b010111_00000000000000000000000101 (.jal 5)
  ∧ is 0b011000_11110_00111_00000_00000_000001 (.jalr 30 7)
  ∧ is 0b011010_11110_10101_1111101100_10_11_01 (.ld 30 21 1004 2 3 1)
  ∧ is 0b011011_10101_01100_0101001011_10_11_01 (.lds 21 12 331 2 3 1)
  ∧ is 0b011100_00011_01000_0000000100_01_11_01 (.st 3 8 4 1 3 1)
  ∧ is 0b011101_00101_00110_00111_1100_10_11_11_0 (.amocas 5 6 7 2 3 3)
  ∧ is 0b011110_00000_00000_00000_00110_000000 (.fence 1 2)
  ∧ is 0b011111_00001_00010_00011_00100_0_10_101 (.waita 1 2 3 4 2 5)
  ∧ is 0b100000_00000_00010_00011_00010_000001 (.mcast 2 3 2)
  ∧ is 0b100001_00101_00110_00000_10111_000111 (.gred 5 6 5 3)
  ∧ is 0b100010_110_000_00000_00111_0000001000 (.qwait 6 0 7 8)
  ∧ is 0b100011_00000_01001_00000011_00010011 (.wrsr 9 0x13)
  ∧ is 0b100100_00001_00010_00011_00000_000001 (.lgverd 1 2 3)
  ∧ is 0b101000_011_1111_01000_0000000010_0_001 (.tld 3 15 8 2 1)
  ∧ is 0b101001_110_0101_00011_1101011011_0_001 (.tst 6 5 3 859 1)
  ∧ is 0b101010_001_010_011_0101_10_00000_000011 (.vfma 1 2 3 5 2)
  ∧ is 0b101110_000_000_000_0010_00_01010_000000 (.gacc 0 2 10)
  ∧ is 0b101111_00000_00000_00000_00101_000000 (.ewait 5)
  ∧ is2 0b001010_00111_00000_00000_00000_000000 0x80000001 (.liw 7 0x80000001)
  ∧ is2 0b101100_010_00101_00110_0_00_0001_000000 0x80 (.mmas 2 5 6 0 0 0x80)
  ∧ is2 0b101101_00111_00101_00110_010_00000001 0x60000009 (.cpyg 7 5 6 1 6 9)
  ∧ bad 0 ∧ bad (15 * 2 ^ 26) ∧ bad (63 * 2 ^ 26) ∧ bad (1 * 2 ^ 26 + 17) ∧ bad (1 * 2 ^ 26 + 64) ∧ bad 0b011010_00001_00010_0000000000_00_11_11
  ∧ bad 0b001101_00001_00010_00011_00100_000000 ∧ bad 0b100000_11111_00010_00011_00000_000010

/-- Decoding and encoding agree (R262, R264 to R267): the bytes of every well-formed instruction word decode to that instruction and its length, and bytes that decode are those of the instruction that they give. -/
def Obligations.DecodeEncode : Prop :=
  (∀ i : Instr, i.isWord = true → i.wf = true → decode (encodeBytes i) = .ok (i, (encodeBytes i).length) ∧ ((encodeBytes i).length = 4 ∨ (encodeBytes i).length = 8))
  ∧ (∀ (bs : List Byte) (i : Instr) (n : Nat), decode bs = .ok (i, n) → i.isWord = true ∧ i.wf = true ∧ encodeBytes i = bs.take n)

/-- Every step keeps the canonical form of memory (R4; log entry 7): where HBM, host memory and the peers' memory list their bytes once, in rising order and no zero, they do so after every step that has a next state.
Where the manual leaves a clause open, the model's choice is that of log entry 7. -/
def Obligations.StepKeepsMemoryForm : Prop :=
  ∀ s t : State, s.memoryForm → step s = .next t → t.memoryForm

end
end

