-- ==== Sys2Proof/Laws/Copy.lean ====
section
/-! SUPPORT. What a copy command's run answers, whichever way it goes (R310, R312; log entry 6). -/
namespace Sys2Proof.Machine

/-- A run answers what it answers upward, or, where it is whole both ways, what it answers downward. -/
theorem State.runCopy_cases (s : State) (core : CoreId) (k : CtxId) (q : CopyCmd) (lim : Nat) :
    s.runCopy core k q lim = s.runCopyBy core k false q lim
    ∨ ∃ s1 s2, s.runCopyBy core k false q lim = .whole s1 ∧ s.runCopyBy core k true q lim = .whole s2 ∧ s.runCopy core k q lim = .whole s2 := by
  unfold State.runCopy
  cases h : s.runCopyBy core k false q lim with
  | whole s1 =>
    generalize Config.copyBefore s.tick (2 ^ 58) = b
    cases b with
    | true => simp
    | false => cases hd : s.runCopyBy core k true q lim <;> simp
  | poison s1 => simp
  | fault s1 r i => simp

/-- Where both ways give the same, a run answers that. -/
theorem State.runCopy_either (s : State) (core : CoreId) (k : CtxId) (q : CopyCmd) (lim : Nat)
    (h : s.runCopyBy core k true q lim = s.runCopyBy core k false q lim) : s.runCopy core k q lim = s.runCopyBy core k false q lim := by
  rcases s.runCopy_cases core k q lim with e | ⟨s1, s2, e1, e2, e⟩
  · exact e
  · rw [e, ← h, e2]

end Sys2Proof.Machine
end

