-- ==== Sys2Proof/Laws/Memory.lean ====
section
/-! SUPPORT. The laws of memory: what a read gives after a write, and that every operation keeps the canonical form. -/
namespace Sys2Proof.Machine

/-! ## The canonical form -/

/-- Every listed address is above `lo`. -/
def Memory.above (lo : Option Nat) (m : Memory) : Prop := ∀ c ∈ m, ∀ l, lo = some l → l < c.1

theorem Memory.wfFrom_iff (m : Memory) : ∀ lo, Memory.wfFrom lo m = true ↔
    m.above lo ∧ (m.map (·.1)).Pairwise (· < ·) ∧ ∀ c ∈ m, c.2 ≠ 0#8 := by
  induction m with
  | nil => intro lo; simp [Memory.wfFrom, Memory.above]
  | cons c r ih =>
    intro lo
    obtain ⟨k, v⟩ := c
    simp only [Memory.wfFrom, Bool.and_eq_true, ih, List.map_cons, List.pairwise_cons, List.mem_cons, List.mem_map,
      forall_exists_index, and_imp, Memory.above]
    constructor
    · rintro ⟨⟨h1, h2⟩, h3, h4, h5⟩
      refine ⟨?_, ⟨?_, h4⟩, ?_⟩
      · rintro c (rfl | hc) l rfl
        · simpa using h1
        · have := h3 c hc k rfl
          simp at h1; omega
      · rintro a x hx rfl; exact h3 x hx k rfl
      · rintro c (rfl | hc)
        · simpa using h2
        · exact h5 c hc
    · rintro ⟨h1, ⟨h2, h3⟩, h4⟩
      refine ⟨⟨?_, ?_⟩, ?_, h3, fun c hc => h4 c (.inr hc)⟩
      · cases lo with
        | none => rfl
        | some l => simpa using h1 (k, v) (.inl rfl) l rfl
      · simpa using h4 (k, v) (.inl rfl)
      · intro c hc l hl
        cases hl
        exact h2 c.1 c hc rfl

/-- A memory is in its canonical form when its addresses rise and no zero is listed. -/
theorem Memory.wf_iff (m : Memory) : m.wf = true ↔ (m.map (·.1)).Pairwise (· < ·) ∧ ∀ c ∈ m, c.2 ≠ 0#8 := by
  simp [Memory.wf, Memory.wfFrom_iff, Memory.above]

@[simp] theorem Memory.wf_nil : Memory.wf [] = true := rfl

/-- Taking cells out of a memory keeps its form. -/
theorem Memory.wf_filter (m : Memory) (p : Host.Cell → Bool) (h : m.wf = true) : Memory.wf (m.filter p) = true := by
  rw [Memory.wf_iff] at *
  refine ⟨(h.1.sublist ?_), fun c hc => h.2 c (List.mem_filter.1 hc).1⟩
  exact List.Sublist.map _ (List.filter_sublist)

theorem Memory.wf_clear (m : Memory) (a n : Nat) (h : m.wf = true) : (m.clear a n).wf = true := Memory.wf_filter m _ h
theorem Memory.wf_slice (m : Memory) (a n : Nat) (h : m.wf = true) : (m.slice a n).wf = true := Memory.wf_filter m _ h

theorem mem_cellsAt (l : List Byte) : ∀ a c, c ∈ cellsAt a l → a ≤ c.1 ∧ c.1 < a + l.length := by
  induction l with
  | nil => intro a c h; simp [cellsAt] at h
  | cons b r ih =>
    intro a c h
    simp only [cellsAt, List.mem_cons] at h
    rcases h with rfl | h
    · simp
    · have := ih (a + 1) c h
      simp only [List.length_cons]; omega

theorem cellsAt_rising (l : List Byte) : ∀ a, ((cellsAt a l).map (·.1)).Pairwise (· < ·) := by
  induction l with
  | nil => intro a; simp [cellsAt]
  | cons b r ih =>
    intro a
    simp only [cellsAt, List.map_cons, List.pairwise_cons, List.mem_map, forall_exists_index, and_imp]
    refine ⟨?_, ih (a + 1)⟩
    rintro x c hc rfl
    have := mem_cellsAt r (a + 1) c hc
    omega

/-- A write keeps the canonical form. -/
theorem Memory.wf_write (m : Memory) (a : Nat) (l : List Byte) (h : m.wf = true) : (m.write a l).wf = true := by
  rw [Memory.wf_iff] at *
  obtain ⟨h1, h2⟩ := h
  constructor
  · simp only [Memory.write, List.map_append, List.pairwise_append, List.mem_append, List.mem_map, List.mem_filter]
    refine ⟨⟨h1.sublist (List.Sublist.map _ List.filter_sublist), (cellsAt_rising l a).sublist (List.Sublist.map _ List.filter_sublist), ?_⟩,
      h1.sublist (List.Sublist.map _ List.filter_sublist), ?_⟩
    · rintro x ⟨c, ⟨hc, hx⟩, rfl⟩ y ⟨d, ⟨hd, hy⟩, rfl⟩
      have := mem_cellsAt l a d hd
      simp at hx; omega
    · rintro x hx y ⟨d, ⟨hd, hy⟩, rfl⟩
      simp at hy
      rcases hx with ⟨c, ⟨hc, hx⟩, rfl⟩ | ⟨c, ⟨hc, hx⟩, rfl⟩
      · simp at hx; omega
      · have := mem_cellsAt l a c hc; omega
  · intro c hc
    simp only [Memory.write, List.mem_append, List.mem_filter] at hc
    rcases hc with (⟨hc, _⟩ | ⟨_, hc⟩) | ⟨hc, _⟩
    · exact h2 c hc
    · simpa using hc
    · exact h2 c hc

theorem Memory.wf_set (m : Memory) (a : Nat) (b : Byte) (h : m.wf = true) : (m.set a b).wf = true := Memory.wf_write m a [b] h
theorem Memory.wf_store (m : Memory) (a n v : Nat) (h : m.wf = true) : (m.store a n v).wf = true := Memory.wf_write m a _ h
theorem Memory.wf_storeDwords (m : Memory) (a : Nat) (l : List Word) (h : m.wf = true) : (m.storeDwords a l).wf = true :=
  Memory.wf_write m a _ h

theorem Memory.wf_writeCells (cells : List Host.Cell) : ∀ m : Memory, m.wf = true → (m.writeCells cells).wf = true := by
  induction cells with
  | nil => intro m h; exact h
  | cons c r ih => intro m h; exact ih _ (Memory.wf_set m c.1 c.2 h)

/-! ## Reading -/

theorem Memory.get_append (m n : Memory) (a : Nat) : Memory.get (m ++ n) a = if a ∈ m.map (·.1) then m.get a else n.get a := by
  induction m with
  | nil => simp
  | cons c r ih =>
    obtain ⟨k, v⟩ := c
    by_cases h : k = a
    · simp [Memory.get, h]
    · have h' : a ≠ k := fun e => h e.symm
      simp [Memory.get, h, h', ih]

/-- An address that is not listed reads zero. -/
theorem Memory.get_of_not_mem (m : Memory) (a : Nat) (h : a ∉ m.map (·.1)) : m.get a = 0#8 := by
  induction m with
  | nil => rfl
  | cons c r ih =>
    obtain ⟨k, v⟩ := c
    simp only [List.map_cons, List.mem_cons, not_or] at h
    have h' : k ≠ a := fun e => h.1 e.symm
    simp [Memory.get, h', ih h.2]

/-- A part of a memory chosen by address reads as the memory does where it is chosen, and zero elsewhere. -/
theorem Memory.get_filter (m : Memory) (p : Nat → Bool) (a : Nat) :
    Memory.get (m.filter (fun c => p c.1)) a = if p a then m.get a else 0#8 := by
  induction m with
  | nil => simp [Memory.get]
  | cons c r ih =>
    obtain ⟨k, v⟩ := c
    by_cases hk : p k <;> by_cases ha : k = a
    · subst ha; simp [Memory.get, hk]
    · simp [Memory.get, hk, ha, ih]
    · subst ha; simp [hk, ih]
    · simp [Memory.get, hk, ha, ih]

theorem Memory.get_cellsAt (l : List Byte) : ∀ a b, Memory.get (cellsAt a l) b = if a ≤ b then (l[b - a]?).getD 0#8 else 0#8 := by
  induction l with
  | nil => intro a b; simp [cellsAt, Memory.get]
  | cons x r ih =>
    intro a b
    by_cases h : a = b
    · subst h; simp [cellsAt, Memory.get]
    · simp only [cellsAt, Memory.get, h, if_false, ih]
      by_cases h2 : a ≤ b
      · have h3 : a + 1 ≤ b := by omega
        have h4 : b - a = b - (a + 1) + 1 := by omega
        simp [h2, h3, h4]
      · have h3 : ¬a + 1 ≤ b := by omega
        simp [h2, h3]

theorem Memory.get_nonzero (m : Memory) (a : Nat) (h : (m.map (·.1)).Pairwise (· < ·)) :
    Memory.get (m.filter (fun c => c.2 != 0#8)) a = m.get a := by
  induction m with
  | nil => rfl
  | cons c r ih =>
    obtain ⟨k, v⟩ := c
    simp only [List.map_cons, List.pairwise_cons] at h
    by_cases hv : v = 0#8
    · by_cases hk : k = a
      · subst hk
        subst hv
        have : k ∉ r.map (·.1) := fun hm => Nat.lt_irrefl _ (h.1 k hm)
        simp [Memory.get, ih h.2, Memory.get_of_not_mem r k this]
      · simp [Memory.get, hv, hk, ih h.2]
    · by_cases hk : k = a
      · simp [Memory.get, hv, hk]
      · simp [Memory.get, hv, hk, ih h.2]

/-- What a read gives after a write: the written byte, and everywhere else what it gave before. -/
theorem Memory.get_write (m : Memory) (a : Nat) (l : List Byte) (b : Nat) :
    (m.write a l).get b = if a ≤ b ∧ b < a + l.length then (l[b - a]?).getD 0#8 else m.get b := by
  have e1 : Memory.get (m.filter (fun c => c.1 < a)) b = if b < a then m.get b else 0#8 := by
    simpa using Memory.get_filter m (fun k => decide (k < a)) b
  have e3 : Memory.get (m.filter (fun c => a + l.length ≤ c.1)) b = if a + l.length ≤ b then m.get b else 0#8 := by
    simpa using Memory.get_filter m (fun k => decide (a + l.length ≤ k)) b
  have e2 : Memory.get ((cellsAt a l).filter (fun c => c.2 != 0#8)) b = if a ≤ b then (l[b - a]?).getD 0#8 else 0#8 := by
    rw [Memory.get_nonzero _ _ (cellsAt_rising l a), Memory.get_cellsAt]
  have z : ∀ x : Memory, b ∉ x.map (·.1) → x.get b = 0#8 := fun x => Memory.get_of_not_mem x b
  unfold Memory.write
  rw [Memory.get_append, Memory.get_append]
  by_cases h1 : b < a
  · have hn : ¬(a ≤ b ∧ b < a + l.length) := by omega
    have h2 : b ∉ ((cellsAt a l).filter (fun c => c.2 != 0#8)).map (·.1) := by
      intro hm
      obtain ⟨c, hc, rfl⟩ := List.mem_map.1 hm
      have := mem_cellsAt l a c (List.mem_filter.1 hc).1; omega
    have h3 : ¬a + l.length ≤ b := by omega
    simp only [hn, if_false, List.map_append, List.mem_append, h2, or_false, e1, h1, if_true, e2, e3, h3]
    split
    · rfl
    · rename_i h
      rw [← z _ h, e1]; simp [h1]
  · have h1' : b ∉ (m.filter (fun c => c.1 < a)).map (·.1) := by
      intro hm
      obtain ⟨c, hc, rfl⟩ := List.mem_map.1 hm
      have := (List.mem_filter.1 hc).2; simp at this; omega
    simp only [List.map_append, List.mem_append, h1', false_or, if_false, e2, e3]
    by_cases h2 : b < a + l.length
    · have hy : a ≤ b ∧ b < a + l.length := by omega
      have h3 : ¬a + l.length ≤ b := by omega
      simp only [hy, and_self, if_true, h3, if_false]
      split
      · rfl
      · rename_i h
        have := z _ h
        rw [e2] at this
        simpa [hy.1] using this.symm
    · have hn : ¬(a ≤ b ∧ b < a + l.length) := by omega
      have h3 : a + l.length ≤ b := by omega
      have h4 : b ∉ ((cellsAt a l).filter (fun c => c.2 != 0#8)).map (·.1) := by
        intro hm
        obtain ⟨c, hc, rfl⟩ := List.mem_map.1 hm
        have := mem_cellsAt l a c (List.mem_filter.1 hc).1; omega
      simp [hn, h3, h4]

theorem Memory.get_set (m : Memory) (a : Nat) (v : Byte) (b : Nat) : (m.set a v).get b = if b = a then v else m.get b := by
  rw [Memory.set, Memory.get_write]
  by_cases h : b = a
  · simp [h]
  · have : ¬(a ≤ b ∧ b < a + [v].length) := by simp; omega
    rw [if_neg this, if_neg h]

theorem Memory.get_clear (m : Memory) (a n b : Nat) : (m.clear a n).get b = if a ≤ b ∧ b < a + n then 0#8 else m.get b := by
  have := Memory.get_filter m (fun k => k < a || a + n ≤ k) b
  simp only [Memory.clear]
  rw [this]
  by_cases h : a ≤ b ∧ b < a + n
  · have : ¬(b < a ∨ a + n ≤ b) := by omega
    simp [h, this]
  · have : b < a ∨ a + n ≤ b := by omega
    simp [h, this]

theorem Memory.get_slice (m : Memory) (a n b : Nat) : (m.slice a n).get b = if a ≤ b ∧ b < a + n then m.get b else 0#8 := by
  have := Memory.get_filter m (fun k => a ≤ k && k < a + n) b
  simp only [Memory.slice]
  rw [this]
  simp

/-- The bytes that a read gives. -/
theorem Memory.read_eq (m : Memory) (n : Nat) : ∀ a, m.read a n = (List.range n).map (fun j => m.get (a + j)) := by
  induction n with
  | zero => intro a; rfl
  | succ n ih =>
    intro a
    rw [Memory.read, ih, List.range_succ_eq_map]
    simp only [List.map_cons, List.map_map, Nat.add_zero]
    congr 1
    apply List.map_congr_left
    intro j _
    simp only [Function.comp]
    congr 1; omega

theorem Memory.get_writeCells_of_not_mem (cells : List Host.Cell) : ∀ (m : Memory) (b : Nat), (∀ c ∈ cells, c.1 ≠ b) →
    (m.writeCells cells).get b = m.get b := by
  induction cells with
  | nil => intro m b _; rfl
  | cons c r ih =>
    intro m b h
    rw [Memory.writeCells, ih _ _ (fun d hd => h d (.tail _ hd)), Memory.get_set, if_neg (fun e => h c (.head _) e.symm)]

theorem Memory.get_writeCells_cellsAt (l : List Byte) : ∀ (m : Memory) (a b : Nat),
    (m.writeCells (cellsAt a l)).get b = if a ≤ b ∧ b < a + l.length then (l[b - a]?).getD 0#8 else m.get b := by
  induction l with
  | nil =>
    intro m a b
    have h : ¬(a ≤ b ∧ b < a + ([] : List Byte).length) := by rw [List.length_nil]; omega
    rw [if_neg h]; rfl
  | cons x r ih =>
    intro m a b
    rw [cellsAt, Memory.writeCells, ih, Memory.get_set]
    by_cases h : b = a
    · subst h
      have : ¬(b + 1 ≤ b ∧ b < b + 1 + r.length) := by omega
      simp [this]
    · simp only [List.length_cons]
      by_cases h2 : a + 1 ≤ b ∧ b < a + 1 + r.length
      · have h3 : a ≤ b ∧ b < a + (r.length + 1) := by omega
        have h4 : b - a = b - (a + 1) + 1 := by omega
        simp [h2, h3, h4]
      · have h3 : ¬(a ≤ b ∧ b < a + (r.length + 1)) := by omega
        rw [if_neg h2, if_neg h, if_neg h3]

end Sys2Proof.Machine
end

