-- ==== Sys2Proof/Laws/State.lean ====
section
/-! SUPPORT. What each update of the state leaves in each field: one lemma per field per update, so that no proof unfolds a record
update. -/
namespace Sys2Proof.Machine

/-! ## Contexts of a core -/

theorem ctxId_cases (k : CtxId) : k = 0#2 ∨ k = 1#2 ∨ k = 2#2 ∨ k = 3#2 := by revert k; decide

@[simp] theorem Core.ctx_setCtx (c : Core) (k : CtxId) (x : Context) : (c.setCtx k x).ctx k = x := by
  rcases ctxId_cases k with h | h | h | h <;> subst h <;> rfl

theorem Core.ctx_setCtx_of_ne (c : Core) (k j : CtxId) (x : Context) (h : j ≠ k) : (c.setCtx k x).ctx j = c.ctx j := by
  rcases ctxId_cases k with hk | hk | hk | hk <;> rcases ctxId_cases j with hj | hj | hj | hj <;> subst hk hj <;>
    first | exact absurd rfl h | rfl

@[simp] theorem Core.setCtx_ctx (c : Core) (k : CtxId) : c.setCtx k (c.ctx k) = c := by
  rcases ctxId_cases k with h | h | h | h <;> subst h <;> rfl

@[simp] theorem Core.setCtx_setCtx (c : Core) (k : CtxId) (x y : Context) : (c.setCtx k x).setCtx k y = c.setCtx k y := by
  rcases ctxId_cases k with h | h | h | h <;> subst h <;> rfl

@[simp] theorem Core.setCtx_gang (c : Core) (k : CtxId) (x : Context) : (c.setCtx k x).gang = c.gang := by
  rcases ctxId_cases k with h | h | h | h <;> subst h <;> rfl
@[simp] theorem Core.setCtx_sup (c : Core) (k : CtxId) (x : Context) : (c.setCtx k x).sup = c.sup := by
  rcases ctxId_cases k with h | h | h | h <;> subst h <;> rfl
@[simp] theorem Core.setCtx_cur (c : Core) (k : CtxId) (x : Context) : (c.setCtx k x).cur = c.cur := by
  rcases ctxId_cases k with h | h | h | h <;> subst h <;> rfl
@[simp] theorem Core.setCtx_serial (c : Core) (k : CtxId) (x : Context) : (c.setCtx k x).serial = c.serial := by
  rcases ctxId_cases k with h | h | h | h <;> subst h <;> rfl
@[simp] theorem Core.setCtx_htbase (c : Core) (k : CtxId) (x : Context) : (c.setCtx k x).htbase = c.htbase := by
  rcases ctxId_cases k with h | h | h | h <;> subst h <;> rfl
@[simp] theorem Core.setCtx_handlers (c : Core) (k : CtxId) (x : Context) : (c.setCtx k x).handlers = c.handlers := by
  rcases ctxId_cases k with h | h | h | h <;> subst h <;> rfl
@[simp] theorem Core.setCtx_gangReg (c : Core) (k : CtxId) (x : Context) : (c.setCtx k x).gangReg = c.gangReg := by
  rcases ctxId_cases k with h | h | h | h <;> subst h <;> rfl
@[simp] theorem Core.setCtx_grp (c : Core) (k : CtxId) (x : Context) : (c.setCtx k x).grp = c.grp := by
  rcases ctxId_cases k with h | h | h | h <;> subst h <;> rfl
@[simp] theorem Core.setCtx_ringNext (c : Core) (k : CtxId) (x : Context) : (c.setCtx k x).ringNext = c.ringNext := by
  rcases ctxId_cases k with h | h | h | h <;> subst h <;> rfl
@[simp] theorem Core.setCtx_pails (c : Core) (k : CtxId) (x : Context) : (c.setCtx k x).pails = c.pails := by
  rcases ctxId_cases k with h | h | h | h <;> subst h <;> rfl
@[simp] theorem Core.setCtx_counters (c : Core) (k : CtxId) (x : Context) : (c.setCtx k x).counters = c.counters := by
  rcases ctxId_cases k with h | h | h | h <;> subst h <;> rfl
@[simp] theorem Core.setCtx_runq (c : Core) (k : CtxId) (x : Context) : (c.setCtx k x).runq = c.runq := by
  rcases ctxId_cases k with h | h | h | h <;> subst h <;> rfl
@[simp] theorem Core.setCtx_svcq (c : Core) (k : CtxId) (x : Context) : (c.setCtx k x).svcq = c.svcq := by
  rcases ctxId_cases k with h | h | h | h <;> subst h <;> rfl
@[simp] theorem Core.setCtx_outbox (c : Core) (k : CtxId) (x : Context) : (c.setCtx k x).outbox = c.outbox := by
  rcases ctxId_cases k with h | h | h | h <;> subst h <;> rfl
@[simp] theorem Core.setCtx_tag (c : Core) (k : CtxId) (x : Context) : (c.setCtx k x).tag = c.tag := by
  rcases ctxId_cases k with h | h | h | h <;> subst h <;> rfl
@[simp] theorem Core.setCtx_pipes (c : Core) (k : CtxId) (x : Context) : (c.setCtx k x).pipes = c.pipes := by
  rcases ctxId_cases k with h | h | h | h <;> subst h <;> rfl
@[simp] theorem Core.setCtx_background (c : Core) (k : CtxId) (x : Context) : (c.setCtx k x).background = c.background := by
  rcases ctxId_cases k with h | h | h | h <;> subst h <;> rfl
@[simp] theorem Core.setCtx_localMem (c : Core) (k : CtxId) (x : Context) : (c.setCtx k x).localMem = c.localMem := by
  rcases ctxId_cases k with h | h | h | h <;> subst h <;> rfl
@[simp] theorem Core.setCtx_localPoison (c : Core) (k : CtxId) (x : Context) : (c.setCtx k x).localPoison = c.localPoison := by
  rcases ctxId_cases k with h | h | h | h <;> subst h <;> rfl
@[simp] theorem Core.setCtx_pinLU (c : Core) (k : CtxId) (x : Context) : (c.setCtx k x).pinLU = c.pinLU := by
  rcases ctxId_cases k with h | h | h | h <;> subst h <;> rfl
@[simp] theorem Core.setCtx_pinBy (c : Core) (k : CtxId) (x : Context) : (c.setCtx k x).pinBy = c.pinBy := by
  rcases ctxId_cases k with h | h | h | h <;> subst h <;> rfl
@[simp] theorem Core.setCtx_ringOff (c : Core) (k : CtxId) (x : Context) : (c.setCtx k x).ringOff = c.ringOff := by
  rcases ctxId_cases k with h | h | h | h <;> subst h <;> rfl
@[simp] theorem Core.setCtx_ringLen (c : Core) (k : CtxId) (x : Context) : (c.setCtx k x).ringLen = c.ringLen := by
  rcases ctxId_cases k with h | h | h | h <;> subst h <;> rfl
@[simp] theorem Core.setCtx_regionOff (c : Core) (k : CtxId) (x : Context) : (c.setCtx k x).regionOff = c.regionOff := by
  rcases ctxId_cases k with h | h | h | h <;> subst h <;> rfl
@[simp] theorem Core.setCtx_regionEnd (c : Core) (k : CtxId) (x : Context) : (c.setCtx k x).regionEnd = c.regionEnd := by
  rcases ctxId_cases k with h | h | h | h <;> subst h <;> rfl
@[simp] theorem Core.setCtx_stackTop (c : Core) (k : CtxId) (x : Context) : (c.setCtx k x).stackTop = c.stackTop := by
  rcases ctxId_cases k with h | h | h | h <;> subst h <;> rfl
@[simp] theorem Core.setCtx_l1 (c : Core) (k : CtxId) (x : Context) : (c.setCtx k x).l1 = c.l1 := by
  rcases ctxId_cases k with h | h | h | h <;> subst h <;> rfl
@[simp] theorem Core.setCtx_il1 (c : Core) (k : CtxId) (x : Context) : (c.setCtx k x).il1 = c.il1 := by
  rcases ctxId_cases k with h | h | h | h <;> subst h <;> rfl
@[simp] theorem Core.setCtx_steer (c : Core) (k : CtxId) (x : Context) : (c.setCtx k x).steer = c.steer := by
  rcases ctxId_cases k with h | h | h | h <;> subst h <;> rfl
@[simp] theorem Core.setCtx_vatCache (c : Core) (k : CtxId) (x : Context) : (c.setCtx k x).vatCache = c.vatCache := by
  rcases ctxId_cases k with h | h | h | h <;> subst h <;> rfl
@[simp] theorem Core.setCtx_latch0 (c : Core) (k : CtxId) (x : Context) : (c.setCtx k x).latch0 = c.latch0 := by
  rcases ctxId_cases k with h | h | h | h <;> subst h <;> rfl
@[simp] theorem Core.setCtx_latch1 (c : Core) (k : CtxId) (x : Context) : (c.setCtx k x).latch1 = c.latch1 := by
  rcases ctxId_cases k with h | h | h | h <;> subst h <;> rfl
@[simp] theorem Core.setCtx_dtab (c : Core) (k : CtxId) (x : Context) : (c.setCtx k x).dtab = c.dtab := by
  rcases ctxId_cases k with h | h | h | h <;> subst h <;> rfl
@[simp] theorem Core.setCtx_nanCode (c : Core) (k : CtxId) (x : Context) : (c.setCtx k x).nanCode = c.nanCode := by
  rcases ctxId_cases k with h | h | h | h <;> subst h <;> rfl
@[simp] theorem Core.setCtx_sat (c : Core) (k : CtxId) (x : Context) : (c.setCtx k x).sat = c.sat := by
  rcases ctxId_cases k with h | h | h | h <;> subst h <;> rfl
@[simp] theorem Core.setCtx_itab (c : Core) (k : CtxId) (x : Context) : (c.setCtx k x).itab = c.itab := by
  rcases ctxId_cases k with h | h | h | h <;> subst h <;> rfl
@[simp] theorem Core.setCtx_latchPoison (c : Core) (k : CtxId) (x : Context) : (c.setCtx k x).latchPoison = c.latchPoison := by
  rcases ctxId_cases k with h | h | h | h <;> subst h <;> rfl
@[simp] theorem Core.setCtx_mTurn (c : Core) (k : CtxId) (x : Context) : (c.setCtx k x).mTurn = c.mTurn := by
  rcases ctxId_cases k with h | h | h | h <;> subst h <;> rfl
@[simp] theorem Core.setCtx_vTurn (c : Core) (k : CtxId) (x : Context) : (c.setCtx k x).vTurn = c.vTurn := by
  rcases ctxId_cases k with h | h | h | h <;> subst h <;> rfl
@[simp] theorem Core.setCtx_cTurn (c : Core) (k : CtxId) (x : Context) : (c.setCtx k x).cTurn = c.cTurn := by
  rcases ctxId_cases k with h | h | h | h <;> subst h <;> rfl
@[simp] theorem Core.setCtx_replays (c : Core) (k : CtxId) (x : Context) : (c.setCtx k x).replays = c.replays := by
  rcases ctxId_cases k with h | h | h | h <;> subst h <;> rfl
@[simp] theorem Core.setCtx_noAdmit (c : Core) (k : CtxId) (x : Context) : (c.setCtx k x).noAdmit = c.noAdmit := by
  rcases ctxId_cases k with h | h | h | h <;> subst h <;> rfl
@[simp] theorem Core.setCtx_dropTasks (c : Core) (k : CtxId) (x : Context) : (c.setCtx k x).dropTasks = c.dropTasks := by
  rcases ctxId_cases k with h | h | h | h <;> subst h <;> rfl
@[simp] theorem Core.setCtx_scan (c : Core) (k : CtxId) (x : Context) : (c.setCtx k x).scan = c.scan := by
  rcases ctxId_cases k with h | h | h | h <;> subst h <;> rfl

/-! ## The issuing context changed -/

@[simp] theorem State.cx_onCx (s : State) (f : Context → Context) : (s.onCx f).cx = f s.cx := by
  simp [State.onCx, State.cx]

@[simp] theorem State.onCx_onCx (s : State) (f g : Context → Context) : (s.onCx f).onCx g = s.onCx (fun x => g (f x)) := by
  simp [State.onCx]

@[simp] theorem State.onCx_cx (s : State) : s.onCx (fun _ => s.cx) = s := by
  simp [State.onCx, State.cx]

theorem State.onCx_id (s : State) (f : Context → Context) (h : f s.cx = s.cx) : s.onCx f = s := by
  unfold State.cx at h; simp [State.onCx, h]

@[simp] theorem State.onCx_me_gang (s : State) (f : Context → Context) : (s.onCx f).me.gang = s.me.gang := by simp [State.onCx]
@[simp] theorem State.onCx_me_sup (s : State) (f : Context → Context) : (s.onCx f).me.sup = s.me.sup := by simp [State.onCx]
@[simp] theorem State.onCx_me_cur (s : State) (f : Context → Context) : (s.onCx f).me.cur = s.me.cur := by simp [State.onCx]
@[simp] theorem State.onCx_me_serial (s : State) (f : Context → Context) : (s.onCx f).me.serial = s.me.serial := by simp [State.onCx]
@[simp] theorem State.onCx_me_htbase (s : State) (f : Context → Context) : (s.onCx f).me.htbase = s.me.htbase := by simp [State.onCx]
@[simp] theorem State.onCx_me_handlers (s : State) (f : Context → Context) : (s.onCx f).me.handlers = s.me.handlers := by simp [State.onCx]
@[simp] theorem State.onCx_me_gangReg (s : State) (f : Context → Context) : (s.onCx f).me.gangReg = s.me.gangReg := by simp [State.onCx]
@[simp] theorem State.onCx_me_grp (s : State) (f : Context → Context) : (s.onCx f).me.grp = s.me.grp := by simp [State.onCx]
@[simp] theorem State.onCx_me_ringNext (s : State) (f : Context → Context) : (s.onCx f).me.ringNext = s.me.ringNext := by simp [State.onCx]
@[simp] theorem State.onCx_me_pails (s : State) (f : Context → Context) : (s.onCx f).me.pails = s.me.pails := by simp [State.onCx]
@[simp] theorem State.onCx_me_counters (s : State) (f : Context → Context) : (s.onCx f).me.counters = s.me.counters := by simp [State.onCx]
@[simp] theorem State.onCx_me_runq (s : State) (f : Context → Context) : (s.onCx f).me.runq = s.me.runq := by simp [State.onCx]
@[simp] theorem State.onCx_me_svcq (s : State) (f : Context → Context) : (s.onCx f).me.svcq = s.me.svcq := by simp [State.onCx]
@[simp] theorem State.onCx_me_outbox (s : State) (f : Context → Context) : (s.onCx f).me.outbox = s.me.outbox := by simp [State.onCx]
@[simp] theorem State.onCx_me_tag (s : State) (f : Context → Context) : (s.onCx f).me.tag = s.me.tag := by simp [State.onCx]
@[simp] theorem State.onCx_me_pipes (s : State) (f : Context → Context) : (s.onCx f).me.pipes = s.me.pipes := by simp [State.onCx]
@[simp] theorem State.onCx_me_background (s : State) (f : Context → Context) : (s.onCx f).me.background = s.me.background := by simp [State.onCx]
@[simp] theorem State.onCx_me_localMem (s : State) (f : Context → Context) : (s.onCx f).me.localMem = s.me.localMem := by simp [State.onCx]
@[simp] theorem State.onCx_me_localPoison (s : State) (f : Context → Context) : (s.onCx f).me.localPoison = s.me.localPoison := by simp [State.onCx]
@[simp] theorem State.onCx_me_pinLU (s : State) (f : Context → Context) : (s.onCx f).me.pinLU = s.me.pinLU := by simp [State.onCx]
@[simp] theorem State.onCx_me_pinBy (s : State) (f : Context → Context) : (s.onCx f).me.pinBy = s.me.pinBy := by simp [State.onCx]
@[simp] theorem State.onCx_me_ringOff (s : State) (f : Context → Context) : (s.onCx f).me.ringOff = s.me.ringOff := by simp [State.onCx]
@[simp] theorem State.onCx_me_ringLen (s : State) (f : Context → Context) : (s.onCx f).me.ringLen = s.me.ringLen := by simp [State.onCx]
@[simp] theorem State.onCx_me_regionOff (s : State) (f : Context → Context) : (s.onCx f).me.regionOff = s.me.regionOff := by simp [State.onCx]
@[simp] theorem State.onCx_me_regionEnd (s : State) (f : Context → Context) : (s.onCx f).me.regionEnd = s.me.regionEnd := by simp [State.onCx]
@[simp] theorem State.onCx_me_stackTop (s : State) (f : Context → Context) : (s.onCx f).me.stackTop = s.me.stackTop := by simp [State.onCx]
@[simp] theorem State.onCx_me_l1 (s : State) (f : Context → Context) : (s.onCx f).me.l1 = s.me.l1 := by simp [State.onCx]
@[simp] theorem State.onCx_me_il1 (s : State) (f : Context → Context) : (s.onCx f).me.il1 = s.me.il1 := by simp [State.onCx]
@[simp] theorem State.onCx_me_steer (s : State) (f : Context → Context) : (s.onCx f).me.steer = s.me.steer := by simp [State.onCx]
@[simp] theorem State.onCx_me_vatCache (s : State) (f : Context → Context) : (s.onCx f).me.vatCache = s.me.vatCache := by simp [State.onCx]
@[simp] theorem State.onCx_me_latch0 (s : State) (f : Context → Context) : (s.onCx f).me.latch0 = s.me.latch0 := by simp [State.onCx]
@[simp] theorem State.onCx_me_latch1 (s : State) (f : Context → Context) : (s.onCx f).me.latch1 = s.me.latch1 := by simp [State.onCx]
@[simp] theorem State.onCx_me_dtab (s : State) (f : Context → Context) : (s.onCx f).me.dtab = s.me.dtab := by simp [State.onCx]
@[simp] theorem State.onCx_me_nanCode (s : State) (f : Context → Context) : (s.onCx f).me.nanCode = s.me.nanCode := by simp [State.onCx]
@[simp] theorem State.onCx_me_sat (s : State) (f : Context → Context) : (s.onCx f).me.sat = s.me.sat := by simp [State.onCx]
@[simp] theorem State.onCx_me_itab (s : State) (f : Context → Context) : (s.onCx f).me.itab = s.me.itab := by simp [State.onCx]
@[simp] theorem State.onCx_me_latchPoison (s : State) (f : Context → Context) : (s.onCx f).me.latchPoison = s.me.latchPoison := by simp [State.onCx]
@[simp] theorem State.onCx_me_mTurn (s : State) (f : Context → Context) : (s.onCx f).me.mTurn = s.me.mTurn := by simp [State.onCx]
@[simp] theorem State.onCx_me_vTurn (s : State) (f : Context → Context) : (s.onCx f).me.vTurn = s.me.vTurn := by simp [State.onCx]
@[simp] theorem State.onCx_me_cTurn (s : State) (f : Context → Context) : (s.onCx f).me.cTurn = s.me.cTurn := by simp [State.onCx]
@[simp] theorem State.onCx_me_replays (s : State) (f : Context → Context) : (s.onCx f).me.replays = s.me.replays := by simp [State.onCx]
@[simp] theorem State.onCx_me_noAdmit (s : State) (f : Context → Context) : (s.onCx f).me.noAdmit = s.me.noAdmit := by simp [State.onCx]
@[simp] theorem State.onCx_me_dropTasks (s : State) (f : Context → Context) : (s.onCx f).me.dropTasks = s.me.dropTasks := by simp [State.onCx]
@[simp] theorem State.onCx_me_scan (s : State) (f : Context → Context) : (s.onCx f).me.scan = s.me.scan := by simp [State.onCx]
@[simp] theorem State.onCx_meId (s : State) (f : Context → Context) : (s.onCx f).meId = s.meId := rfl
@[simp] theorem State.onCx_others (s : State) (f : Context → Context) : (s.onCx f).others = s.others := rfl
@[simp] theorem State.onCx_agenda (s : State) (f : Context → Context) : (s.onCx f).agenda = s.agenda := rfl
@[simp] theorem State.onCx_pick (s : State) (f : Context → Context) : (s.onCx f).pick = s.pick := rfl
@[simp] theorem State.onCx_tick (s : State) (f : Context → Context) : (s.onCx f).tick = s.tick := rfl
@[simp] theorem State.onCx_cycle (s : State) (f : Context → Context) : (s.onCx f).cycle = s.cycle := rfl
@[simp] theorem State.onCx_hbm (s : State) (f : Context → Context) : (s.onCx f).hbm = s.hbm := rfl
@[simp] theorem State.onCx_hbmPoison (s : State) (f : Context → Context) : (s.onCx f).hbmPoison = s.hbmPoison := rfl
@[simp] theorem State.onCx_hbmKey (s : State) (f : Context → Context) : (s.onCx f).hbmKey = s.hbmKey := rfl
@[simp] theorem State.onCx_hostMem (s : State) (f : Context → Context) : (s.onCx f).hostMem = s.hostMem := rfl
@[simp] theorem State.onCx_peerMem (s : State) (f : Context → Context) : (s.onCx f).peerMem = s.peerMem := rfl
@[simp] theorem State.onCx_slices (s : State) (f : Context → Context) : (s.onCx f).slices = s.slices := rfl
@[simp] theorem State.onCx_thomes (s : State) (f : Context → Context) : (s.onCx f).thomes = s.thomes := rfl
@[simp] theorem State.onCx_tenants (s : State) (f : Context → Context) : (s.onCx f).tenants = s.tenants := rfl
@[simp] theorem State.onCx_gangs (s : State) (f : Context → Context) : (s.onCx f).gangs = s.gangs := rfl
@[simp] theorem State.onCx_groups (s : State) (f : Context → Context) : (s.onCx f).groups = s.groups := rfl
@[simp] theorem State.onCx_bindings (s : State) (f : Context → Context) : (s.onCx f).bindings = s.bindings := rfl
@[simp] theorem State.onCx_net (s : State) (f : Context → Context) : (s.onCx f).net = s.net := rfl
@[simp] theorem State.onCx_nextPkt (s : State) (f : Context → Context) : (s.onCx f).nextPkt = s.nextPkt := rfl
@[simp] theorem State.onCx_nextKey (s : State) (f : Context → Context) : (s.onCx f).nextKey = s.nextKey := rfl
@[simp] theorem State.onCx_peerWaits (s : State) (f : Context → Context) : (s.onCx f).peerWaits = s.peerWaits := rfl
@[simp] theorem State.onCx_blocked (s : State) (f : Context → Context) : (s.onCx f).blocked = s.blocked := rfl
@[simp] theorem State.onCx_parlour (s : State) (f : Context → Context) : (s.onCx f).parlour = s.parlour := rfl

/-! ## The core in focus changed -/

@[simp] theorem State.onMe_me (s : State) (f : Core → Core) : (s.onMe f).me = f s.me := rfl
@[simp] theorem State.onMe_meId (s : State) (f : Core → Core) : (s.onMe f).meId = s.meId := rfl
@[simp] theorem State.onMe_others (s : State) (f : Core → Core) : (s.onMe f).others = s.others := rfl
@[simp] theorem State.onMe_agenda (s : State) (f : Core → Core) : (s.onMe f).agenda = s.agenda := rfl
@[simp] theorem State.onMe_pick (s : State) (f : Core → Core) : (s.onMe f).pick = s.pick := rfl
@[simp] theorem State.onMe_tick (s : State) (f : Core → Core) : (s.onMe f).tick = s.tick := rfl
@[simp] theorem State.onMe_cycle (s : State) (f : Core → Core) : (s.onMe f).cycle = s.cycle := rfl
@[simp] theorem State.onMe_hbm (s : State) (f : Core → Core) : (s.onMe f).hbm = s.hbm := rfl
@[simp] theorem State.onMe_hbmPoison (s : State) (f : Core → Core) : (s.onMe f).hbmPoison = s.hbmPoison := rfl
@[simp] theorem State.onMe_hbmKey (s : State) (f : Core → Core) : (s.onMe f).hbmKey = s.hbmKey := rfl
@[simp] theorem State.onMe_hostMem (s : State) (f : Core → Core) : (s.onMe f).hostMem = s.hostMem := rfl
@[simp] theorem State.onMe_peerMem (s : State) (f : Core → Core) : (s.onMe f).peerMem = s.peerMem := rfl
@[simp] theorem State.onMe_slices (s : State) (f : Core → Core) : (s.onMe f).slices = s.slices := rfl
@[simp] theorem State.onMe_thomes (s : State) (f : Core → Core) : (s.onMe f).thomes = s.thomes := rfl
@[simp] theorem State.onMe_tenants (s : State) (f : Core → Core) : (s.onMe f).tenants = s.tenants := rfl
@[simp] theorem State.onMe_gangs (s : State) (f : Core → Core) : (s.onMe f).gangs = s.gangs := rfl
@[simp] theorem State.onMe_groups (s : State) (f : Core → Core) : (s.onMe f).groups = s.groups := rfl
@[simp] theorem State.onMe_bindings (s : State) (f : Core → Core) : (s.onMe f).bindings = s.bindings := rfl
@[simp] theorem State.onMe_net (s : State) (f : Core → Core) : (s.onMe f).net = s.net := rfl
@[simp] theorem State.onMe_nextPkt (s : State) (f : Core → Core) : (s.onMe f).nextPkt = s.nextPkt := rfl
@[simp] theorem State.onMe_nextKey (s : State) (f : Core → Core) : (s.onMe f).nextKey = s.nextKey := rfl
@[simp] theorem State.onMe_peerWaits (s : State) (f : Core → Core) : (s.onMe f).peerWaits = s.peerWaits := rfl
@[simp] theorem State.onMe_blocked (s : State) (f : Core → Core) : (s.onMe f).blocked = s.blocked := rfl
@[simp] theorem State.onMe_parlour (s : State) (f : Core → Core) : (s.onMe f).parlour = s.parlour := rfl

/-! ## A packet sent -/

@[simp] theorem State.sendPacket_cx (s : State) (v p : BitVec 2) (b : Body) : (s.sendPacket v p b).cx = s.cx := rfl
@[simp] theorem State.sendPacket_net (s : State) (v p : BitVec 2) (b : Body) :
    (s.sendPacket v p b).net = s.net ++ [{ id := s.nextPkt, vnet := v, pri := p, body := b }] := rfl
@[simp] theorem State.sendPacket_nextPkt (s : State) (v p : BitVec 2) (b : Body) : (s.sendPacket v p b).nextPkt = s.nextPkt + 1 := rfl
@[simp] theorem State.sendPacket_meId (s : State) (v p : BitVec 2) (b : Body) : (s.sendPacket v p b).meId = s.meId := rfl
@[simp] theorem State.sendPacket_me (s : State) (v p : BitVec 2) (b : Body) : (s.sendPacket v p b).me = s.me := rfl
@[simp] theorem State.sendPacket_others (s : State) (v p : BitVec 2) (b : Body) : (s.sendPacket v p b).others = s.others := rfl
@[simp] theorem State.sendPacket_agenda (s : State) (v p : BitVec 2) (b : Body) : (s.sendPacket v p b).agenda = s.agenda := rfl
@[simp] theorem State.sendPacket_pick (s : State) (v p : BitVec 2) (b : Body) : (s.sendPacket v p b).pick = s.pick := rfl
@[simp] theorem State.sendPacket_tick (s : State) (v p : BitVec 2) (b : Body) : (s.sendPacket v p b).tick = s.tick := rfl
@[simp] theorem State.sendPacket_cycle (s : State) (v p : BitVec 2) (b : Body) : (s.sendPacket v p b).cycle = s.cycle := rfl
@[simp] theorem State.sendPacket_hbm (s : State) (v p : BitVec 2) (b : Body) : (s.sendPacket v p b).hbm = s.hbm := rfl
@[simp] theorem State.sendPacket_hbmPoison (s : State) (v p : BitVec 2) (b : Body) : (s.sendPacket v p b).hbmPoison = s.hbmPoison := rfl
@[simp] theorem State.sendPacket_hbmKey (s : State) (v p : BitVec 2) (b : Body) : (s.sendPacket v p b).hbmKey = s.hbmKey := rfl
@[simp] theorem State.sendPacket_hostMem (s : State) (v p : BitVec 2) (b : Body) : (s.sendPacket v p b).hostMem = s.hostMem := rfl
@[simp] theorem State.sendPacket_peerMem (s : State) (v p : BitVec 2) (b : Body) : (s.sendPacket v p b).peerMem = s.peerMem := rfl
@[simp] theorem State.sendPacket_slices (s : State) (v p : BitVec 2) (b : Body) : (s.sendPacket v p b).slices = s.slices := rfl
@[simp] theorem State.sendPacket_thomes (s : State) (v p : BitVec 2) (b : Body) : (s.sendPacket v p b).thomes = s.thomes := rfl
@[simp] theorem State.sendPacket_tenants (s : State) (v p : BitVec 2) (b : Body) : (s.sendPacket v p b).tenants = s.tenants := rfl
@[simp] theorem State.sendPacket_gangs (s : State) (v p : BitVec 2) (b : Body) : (s.sendPacket v p b).gangs = s.gangs := rfl
@[simp] theorem State.sendPacket_groups (s : State) (v p : BitVec 2) (b : Body) : (s.sendPacket v p b).groups = s.groups := rfl
@[simp] theorem State.sendPacket_bindings (s : State) (v p : BitVec 2) (b : Body) : (s.sendPacket v p b).bindings = s.bindings := rfl
@[simp] theorem State.sendPacket_nextKey (s : State) (v p : BitVec 2) (b : Body) : (s.sendPacket v p b).nextKey = s.nextKey := rfl
@[simp] theorem State.sendPacket_peerWaits (s : State) (v p : BitVec 2) (b : Body) : (s.sendPacket v p b).peerWaits = s.peerWaits := rfl
@[simp] theorem State.sendPacket_blocked (s : State) (v p : BitVec 2) (b : Body) : (s.sendPacket v p b).blocked = s.blocked := rfl
@[simp] theorem State.sendPacket_parlour (s : State) (v p : BitVec 2) (b : Body) : (s.sendPacket v p b).parlour = s.parlour := rfl

/-! ## A packet sent in the place of another -/

@[simp] theorem State.sendOn_cx (s : State) (p : Packet) (v : BitVec 2) (b : Body) : (s.sendOn p v b).cx = s.cx := rfl
@[simp] theorem State.sendOn_net (s : State) (p : Packet) (v : BitVec 2) (b : Body) :
    (s.sendOn p v b).net = s.net ++ [{ id := s.nextPkt, vnet := v, pri := p.pri, acquired := p.acquired, body := b }] := rfl
@[simp] theorem State.sendOn_nextPkt (s : State) (p : Packet) (v : BitVec 2) (b : Body) : (s.sendOn p v b).nextPkt = s.nextPkt + 1 := rfl
@[simp] theorem State.sendOn_meId (s : State) (p : Packet) (v : BitVec 2) (b : Body) : (s.sendOn p v b).meId = s.meId := rfl
@[simp] theorem State.sendOn_me (s : State) (p : Packet) (v : BitVec 2) (b : Body) : (s.sendOn p v b).me = s.me := rfl
@[simp] theorem State.sendOn_others (s : State) (p : Packet) (v : BitVec 2) (b : Body) : (s.sendOn p v b).others = s.others := rfl
@[simp] theorem State.sendOn_agenda (s : State) (p : Packet) (v : BitVec 2) (b : Body) : (s.sendOn p v b).agenda = s.agenda := rfl
@[simp] theorem State.sendOn_pick (s : State) (p : Packet) (v : BitVec 2) (b : Body) : (s.sendOn p v b).pick = s.pick := rfl
@[simp] theorem State.sendOn_tick (s : State) (p : Packet) (v : BitVec 2) (b : Body) : (s.sendOn p v b).tick = s.tick := rfl
@[simp] theorem State.sendOn_cycle (s : State) (p : Packet) (v : BitVec 2) (b : Body) : (s.sendOn p v b).cycle = s.cycle := rfl
@[simp] theorem State.sendOn_hbm (s : State) (p : Packet) (v : BitVec 2) (b : Body) : (s.sendOn p v b).hbm = s.hbm := rfl
@[simp] theorem State.sendOn_hbmPoison (s : State) (p : Packet) (v : BitVec 2) (b : Body) : (s.sendOn p v b).hbmPoison = s.hbmPoison := rfl
@[simp] theorem State.sendOn_hbmKey (s : State) (p : Packet) (v : BitVec 2) (b : Body) : (s.sendOn p v b).hbmKey = s.hbmKey := rfl
@[simp] theorem State.sendOn_hostMem (s : State) (p : Packet) (v : BitVec 2) (b : Body) : (s.sendOn p v b).hostMem = s.hostMem := rfl
@[simp] theorem State.sendOn_peerMem (s : State) (p : Packet) (v : BitVec 2) (b : Body) : (s.sendOn p v b).peerMem = s.peerMem := rfl
@[simp] theorem State.sendOn_slices (s : State) (p : Packet) (v : BitVec 2) (b : Body) : (s.sendOn p v b).slices = s.slices := rfl
@[simp] theorem State.sendOn_thomes (s : State) (p : Packet) (v : BitVec 2) (b : Body) : (s.sendOn p v b).thomes = s.thomes := rfl
@[simp] theorem State.sendOn_tenants (s : State) (p : Packet) (v : BitVec 2) (b : Body) : (s.sendOn p v b).tenants = s.tenants := rfl
@[simp] theorem State.sendOn_gangs (s : State) (p : Packet) (v : BitVec 2) (b : Body) : (s.sendOn p v b).gangs = s.gangs := rfl
@[simp] theorem State.sendOn_groups (s : State) (p : Packet) (v : BitVec 2) (b : Body) : (s.sendOn p v b).groups = s.groups := rfl
@[simp] theorem State.sendOn_bindings (s : State) (p : Packet) (v : BitVec 2) (b : Body) : (s.sendOn p v b).bindings = s.bindings := rfl
@[simp] theorem State.sendOn_nextKey (s : State) (p : Packet) (v : BitVec 2) (b : Body) : (s.sendOn p v b).nextKey = s.nextKey := rfl
@[simp] theorem State.sendOn_peerWaits (s : State) (p : Packet) (v : BitVec 2) (b : Body) : (s.sendOn p v b).peerWaits = s.peerWaits := rfl
@[simp] theorem State.sendOn_blocked (s : State) (p : Packet) (v : BitVec 2) (b : Body) : (s.sendOn p v b).blocked = s.blocked := rfl
@[simp] theorem State.sendOn_parlour (s : State) (p : Packet) (v : BitVec 2) (b : Body) : (s.sendOn p v b).parlour = s.parlour := rfl

/-! ## Registers of a context -/

@[simp] theorem Context.rg_zero (c : Context) : c.rg 0#5 = 0#64 := by simp [Context.rg]
@[simp] theorem Context.setG_zero (c : Context) (v : Word) : c.setG 0#5 v = c := by simp [Context.setG]

theorem Context.rg_setG (c : Context) (d n : BitVec 5) (v : Word) :
    (c.setG d v).rg n = if n = d then (if d = 0#5 then 0#64 else v) else c.rg n := by
  by_cases hd : d = 0#5
  · subst hd; by_cases hn : n = 0#5 <;> simp [hn]
  · by_cases hn : n = d
    · subst hn; simp [Context.setG, Context.rg, hd]
    · have h : ¬ d.toNat = n.toNat := fun e => hn (BitVec.eq_of_toNat_eq e.symm)
      simp [Context.setG, Context.rg, hd, hn, h]

theorem Context.wroteG_setG (c : Context) (d : BitVec 5) (v : Word) :
    (c.setG d v).wroteG = if d = 0#5 then c.wroteG else c.wroteG ||| (1#32 <<< d.toNat) := by
  by_cases hd : d = 0#5 <;> simp [Context.setG, hd]

@[simp] theorem Context.setG_st (c : Context) (d : BitVec 5) (v : Word) : (c.setG d v).st = c.st := by
  unfold Context.setG; split <;> rfl
@[simp] theorem Context.setG_pc (c : Context) (d : BitVec 5) (v : Word) : (c.setG d v).pc = c.pc := by
  unfold Context.setG; split <;> rfl
@[simp] theorem Context.setG_t (c : Context) (d : BitVec 5) (v : Word) : (c.setG d v).t = c.t := by
  unfold Context.setG; split <;> rfl
@[simp] theorem Context.setG_m1 (c : Context) (d : BitVec 5) (v : Word) : (c.setG d v).m1 = c.m1 := by
  unfold Context.setG; split <;> rfl
@[simp] theorem Context.setG_tPoison (c : Context) (d : BitVec 5) (v : Word) : (c.setG d v).tPoison = c.tPoison := by
  unfold Context.setG; split <;> rfl
@[simp] theorem Context.setG_m2 (c : Context) (d : BitVec 5) (v : Word) : (c.setG d v).m2 = c.m2 := by
  unfold Context.setG; split <;> rfl
@[simp] theorem Context.setG_m3 (c : Context) (d : BitVec 5) (v : Word) : (c.setG d v).m3 = c.m3 := by
  unfold Context.setG; split <;> rfl
@[simp] theorem Context.setG_fflags (c : Context) (d : BitVec 5) (v : Word) : (c.setG d v).fflags = c.fflags := by
  unfold Context.setG; split <;> rfl
@[simp] theorem Context.setG_frm (c : Context) (d : BitVec 5) (v : Word) : (c.setG d v).frm = c.frm := by
  unfold Context.setG; split <;> rfl
@[simp] theorem Context.setG_dzt (c : Context) (d : BitVec 5) (v : Word) : (c.setG d v).dzt = c.dzt := by
  unfold Context.setG; split <;> rfl
@[simp] theorem Context.setG_scaleBase (c : Context) (d : BitVec 5) (v : Word) : (c.setG d v).scaleBase = c.scaleBase := by
  unfold Context.setG; split <;> rfl
@[simp] theorem Context.setG_scaleOrg (c : Context) (d : BitVec 5) (v : Word) : (c.setG d v).scaleOrg = c.scaleOrg := by
  unfold Context.setG; split <;> rfl
@[simp] theorem Context.setG_waitlim (c : Context) (d : BitVec 5) (v : Word) : (c.setG d v).waitlim = c.waitlim := by
  unfold Context.setG; split <;> rfl
@[simp] theorem Context.setG_lgtbase (c : Context) (d : BitVec 5) (v : Word) : (c.setG d v).lgtbase = c.lgtbase := by
  unfold Context.setG; split <;> rfl
@[simp] theorem Context.setG_faultCause (c : Context) (d : BitVec 5) (v : Word) : (c.setG d v).faultCause = c.faultCause := by
  unfold Context.setG; split <;> rfl
@[simp] theorem Context.setG_faultAddr (c : Context) (d : BitVec 5) (v : Word) : (c.setG d v).faultAddr = c.faultAddr := by
  unfold Context.setG; split <;> rfl
@[simp] theorem Context.setG_faultPc (c : Context) (d : BitVec 5) (v : Word) : (c.setG d v).faultPc = c.faultPc := by
  unfold Context.setG; split <;> rfl
@[simp] theorem Context.setG_sup (c : Context) (d : BitVec 5) (v : Word) : (c.setG d v).sup = c.sup := by
  unfold Context.setG; split <;> rfl
@[simp] theorem Context.setG_qbound (c : Context) (d : BitVec 5) (v : Word) : (c.setG d v).qbound = c.qbound := by
  unfold Context.setG; split <;> rfl
@[simp] theorem Context.setG_unack (c : Context) (d : BitVec 5) (v : Word) : (c.setG d v).unack = c.unack := by
  unfold Context.setG; split <;> rfl
@[simp] theorem Context.setG_act (c : Context) (d : BitVec 5) (v : Word) : (c.setG d v).act = c.act := by
  unfold Context.setG; split <;> rfl
@[simp] theorem Context.setG_wroteT (c : Context) (d : BitVec 5) (v : Word) : (c.setG d v).wroteT = c.wroteT := by
  unfold Context.setG; split <;> rfl
@[simp] theorem Context.setG_orphans (c : Context) (d : BitVec 5) (v : Word) : (c.setG d v).orphans = c.orphans := by
  unfold Context.setG; split <;> rfl
@[simp] theorem Context.setG_mflt (c : Context) (d : BitVec 5) (v : Word) : (c.setG d v).mflt = c.mflt := by
  unfold Context.setG; split <;> rfl
@[simp] theorem Context.setG_vflt (c : Context) (d : BitVec 5) (v : Word) : (c.setG d v).vflt = c.vflt := by
  unfold Context.setG; split <;> rfl
@[simp] theorem Context.setG_vScope (c : Context) (d : BitVec 5) (v : Word) : (c.setG d v).vScope = c.vScope := by
  unfold Context.setG; split <;> rfl
@[simp] theorem Context.setG_cScope (c : Context) (d : BitVec 5) (v : Word) : (c.setG d v).cScope = c.cScope := by
  unfold Context.setG; split <;> rfl
@[simp] theorem Context.setG_deferred (c : Context) (d : BitVec 5) (v : Word) : (c.setG d v).deferred = c.deferred := by
  unfold Context.setG; split <;> rfl
@[simp] theorem Context.setG_op (c : Context) (d : BitVec 5) (v : Word) : (c.setG d v).op = c.op := by
  unfold Context.setG; split <;> rfl
@[simp] theorem Context.setG_yieldOn (c : Context) (d : BitVec 5) (v : Word) : (c.setG d v).yieldOn = c.yieldOn := by
  unfold Context.setG; split <;> rfl
@[simp] theorem Context.setG_width (c : Context) (d : BitVec 5) (v : Word) : (c.setG d v).width = c.width := by
  unfold Context.setG; split <;> rfl
@[simp] theorem Context.setG_mq (c : Context) (d : BitVec 5) (v : Word) : (c.setG d v).mq = c.mq := by
  unfold Context.setG; split <;> rfl
@[simp] theorem Context.setG_vq (c : Context) (d : BitVec 5) (v : Word) : (c.setG d v).vq = c.vq := by
  unfold Context.setG; split <;> rfl
@[simp] theorem Context.setG_cq (c : Context) (d : BitVec 5) (v : Word) : (c.setG d v).cq = c.cq := by
  unfold Context.setG; split <;> rfl
@[simp] theorem Context.setG_rel (c : Context) (d : BitVec 5) (v : Word) : (c.setG d v).rel = c.rel := by
  unfold Context.setG; split <;> rfl

end Sys2Proof.Machine
end

