-- ==== Sys2Proof/Laws/Update.lean ====
section
/-! SUPPORT. What each update of the parts of the module leaves in each field of the state, and what it gives in the part that it
changes. -/
namespace Sys2Proof.Machine

/-! ## A core replaced -/

@[simp] theorem State.setCore_meId (s : State) (id : CoreId) (c : Core) : (s.setCore id c).meId = s.meId := by unfold State.setCore; split <;> rfl
@[simp] theorem State.setCore_agenda (s : State) (id : CoreId) (c : Core) : (s.setCore id c).agenda = s.agenda := by unfold State.setCore; split <;> rfl
@[simp] theorem State.setCore_pick (s : State) (id : CoreId) (c : Core) : (s.setCore id c).pick = s.pick := by unfold State.setCore; split <;> rfl
@[simp] theorem State.setCore_tick (s : State) (id : CoreId) (c : Core) : (s.setCore id c).tick = s.tick := by unfold State.setCore; split <;> rfl
@[simp] theorem State.setCore_cycle (s : State) (id : CoreId) (c : Core) : (s.setCore id c).cycle = s.cycle := by unfold State.setCore; split <;> rfl
@[simp] theorem State.setCore_hbm (s : State) (id : CoreId) (c : Core) : (s.setCore id c).hbm = s.hbm := by unfold State.setCore; split <;> rfl
@[simp] theorem State.setCore_hbmPoison (s : State) (id : CoreId) (c : Core) : (s.setCore id c).hbmPoison = s.hbmPoison := by unfold State.setCore; split <;> rfl
@[simp] theorem State.setCore_hbmKey (s : State) (id : CoreId) (c : Core) : (s.setCore id c).hbmKey = s.hbmKey := by unfold State.setCore; split <;> rfl
@[simp] theorem State.setCore_hostMem (s : State) (id : CoreId) (c : Core) : (s.setCore id c).hostMem = s.hostMem := by unfold State.setCore; split <;> rfl
@[simp] theorem State.setCore_peerMem (s : State) (id : CoreId) (c : Core) : (s.setCore id c).peerMem = s.peerMem := by unfold State.setCore; split <;> rfl
@[simp] theorem State.setCore_slices (s : State) (id : CoreId) (c : Core) : (s.setCore id c).slices = s.slices := by unfold State.setCore; split <;> rfl
@[simp] theorem State.setCore_thomes (s : State) (id : CoreId) (c : Core) : (s.setCore id c).thomes = s.thomes := by unfold State.setCore; split <;> rfl
@[simp] theorem State.setCore_tenants (s : State) (id : CoreId) (c : Core) : (s.setCore id c).tenants = s.tenants := by unfold State.setCore; split <;> rfl
@[simp] theorem State.setCore_gangs (s : State) (id : CoreId) (c : Core) : (s.setCore id c).gangs = s.gangs := by unfold State.setCore; split <;> rfl
@[simp] theorem State.setCore_groups (s : State) (id : CoreId) (c : Core) : (s.setCore id c).groups = s.groups := by unfold State.setCore; split <;> rfl
@[simp] theorem State.setCore_bindings (s : State) (id : CoreId) (c : Core) : (s.setCore id c).bindings = s.bindings := by unfold State.setCore; split <;> rfl
@[simp] theorem State.setCore_net (s : State) (id : CoreId) (c : Core) : (s.setCore id c).net = s.net := by unfold State.setCore; split <;> rfl
@[simp] theorem State.setCore_nextPkt (s : State) (id : CoreId) (c : Core) : (s.setCore id c).nextPkt = s.nextPkt := by unfold State.setCore; split <;> rfl
@[simp] theorem State.setCore_nextKey (s : State) (id : CoreId) (c : Core) : (s.setCore id c).nextKey = s.nextKey := by unfold State.setCore; split <;> rfl
@[simp] theorem State.setCore_peerWaits (s : State) (id : CoreId) (c : Core) : (s.setCore id c).peerWaits = s.peerWaits := by unfold State.setCore; split <;> rfl
@[simp] theorem State.setCore_blocked (s : State) (id : CoreId) (c : Core) : (s.setCore id c).blocked = s.blocked := by unfold State.setCore; split <;> rfl
@[simp] theorem State.setCore_parlour (s : State) (id : CoreId) (c : Core) : (s.setCore id c).parlour = s.parlour := by unfold State.setCore; split <;> rfl

/-! ## A core changed -/

@[simp] theorem State.onCore_meId (s : State) (id : CoreId) (f : Core → Core) : (s.onCore id f).meId = s.meId := by simp [State.onCore]
@[simp] theorem State.onCore_agenda (s : State) (id : CoreId) (f : Core → Core) : (s.onCore id f).agenda = s.agenda := by simp [State.onCore]
@[simp] theorem State.onCore_pick (s : State) (id : CoreId) (f : Core → Core) : (s.onCore id f).pick = s.pick := by simp [State.onCore]
@[simp] theorem State.onCore_tick (s : State) (id : CoreId) (f : Core → Core) : (s.onCore id f).tick = s.tick := by simp [State.onCore]
@[simp] theorem State.onCore_cycle (s : State) (id : CoreId) (f : Core → Core) : (s.onCore id f).cycle = s.cycle := by simp [State.onCore]
@[simp] theorem State.onCore_hbm (s : State) (id : CoreId) (f : Core → Core) : (s.onCore id f).hbm = s.hbm := by simp [State.onCore]
@[simp] theorem State.onCore_hbmPoison (s : State) (id : CoreId) (f : Core → Core) : (s.onCore id f).hbmPoison = s.hbmPoison := by simp [State.onCore]
@[simp] theorem State.onCore_hbmKey (s : State) (id : CoreId) (f : Core → Core) : (s.onCore id f).hbmKey = s.hbmKey := by simp [State.onCore]
@[simp] theorem State.onCore_hostMem (s : State) (id : CoreId) (f : Core → Core) : (s.onCore id f).hostMem = s.hostMem := by simp [State.onCore]
@[simp] theorem State.onCore_peerMem (s : State) (id : CoreId) (f : Core → Core) : (s.onCore id f).peerMem = s.peerMem := by simp [State.onCore]
@[simp] theorem State.onCore_slices (s : State) (id : CoreId) (f : Core → Core) : (s.onCore id f).slices = s.slices := by simp [State.onCore]
@[simp] theorem State.onCore_thomes (s : State) (id : CoreId) (f : Core → Core) : (s.onCore id f).thomes = s.thomes := by simp [State.onCore]
@[simp] theorem State.onCore_tenants (s : State) (id : CoreId) (f : Core → Core) : (s.onCore id f).tenants = s.tenants := by simp [State.onCore]
@[simp] theorem State.onCore_gangs (s : State) (id : CoreId) (f : Core → Core) : (s.onCore id f).gangs = s.gangs := by simp [State.onCore]
@[simp] theorem State.onCore_groups (s : State) (id : CoreId) (f : Core → Core) : (s.onCore id f).groups = s.groups := by simp [State.onCore]
@[simp] theorem State.onCore_bindings (s : State) (id : CoreId) (f : Core → Core) : (s.onCore id f).bindings = s.bindings := by simp [State.onCore]
@[simp] theorem State.onCore_net (s : State) (id : CoreId) (f : Core → Core) : (s.onCore id f).net = s.net := by simp [State.onCore]
@[simp] theorem State.onCore_nextPkt (s : State) (id : CoreId) (f : Core → Core) : (s.onCore id f).nextPkt = s.nextPkt := by simp [State.onCore]
@[simp] theorem State.onCore_nextKey (s : State) (id : CoreId) (f : Core → Core) : (s.onCore id f).nextKey = s.nextKey := by simp [State.onCore]
@[simp] theorem State.onCore_peerWaits (s : State) (id : CoreId) (f : Core → Core) : (s.onCore id f).peerWaits = s.peerWaits := by simp [State.onCore]
@[simp] theorem State.onCore_blocked (s : State) (id : CoreId) (f : Core → Core) : (s.onCore id f).blocked = s.blocked := by simp [State.onCore]
@[simp] theorem State.onCore_parlour (s : State) (id : CoreId) (f : Core → Core) : (s.onCore id f).parlour = s.parlour := by simp [State.onCore]

/-! ## A context of a core changed -/

@[simp] theorem State.onCtx_meId (s : State) (id : CoreId) (k : CtxId) (f : Context → Context) : (s.onCtx id k f).meId = s.meId := by simp [State.onCtx]
@[simp] theorem State.onCtx_agenda (s : State) (id : CoreId) (k : CtxId) (f : Context → Context) : (s.onCtx id k f).agenda = s.agenda := by simp [State.onCtx]
@[simp] theorem State.onCtx_pick (s : State) (id : CoreId) (k : CtxId) (f : Context → Context) : (s.onCtx id k f).pick = s.pick := by simp [State.onCtx]
@[simp] theorem State.onCtx_tick (s : State) (id : CoreId) (k : CtxId) (f : Context → Context) : (s.onCtx id k f).tick = s.tick := by simp [State.onCtx]
@[simp] theorem State.onCtx_cycle (s : State) (id : CoreId) (k : CtxId) (f : Context → Context) : (s.onCtx id k f).cycle = s.cycle := by simp [State.onCtx]
@[simp] theorem State.onCtx_hbm (s : State) (id : CoreId) (k : CtxId) (f : Context → Context) : (s.onCtx id k f).hbm = s.hbm := by simp [State.onCtx]
@[simp] theorem State.onCtx_hbmPoison (s : State) (id : CoreId) (k : CtxId) (f : Context → Context) : (s.onCtx id k f).hbmPoison = s.hbmPoison := by simp [State.onCtx]
@[simp] theorem State.onCtx_hbmKey (s : State) (id : CoreId) (k : CtxId) (f : Context → Context) : (s.onCtx id k f).hbmKey = s.hbmKey := by simp [State.onCtx]
@[simp] theorem State.onCtx_hostMem (s : State) (id : CoreId) (k : CtxId) (f : Context → Context) : (s.onCtx id k f).hostMem = s.hostMem := by simp [State.onCtx]
@[simp] theorem State.onCtx_peerMem (s : State) (id : CoreId) (k : CtxId) (f : Context → Context) : (s.onCtx id k f).peerMem = s.peerMem := by simp [State.onCtx]
@[simp] theorem State.onCtx_slices (s : State) (id : CoreId) (k : CtxId) (f : Context → Context) : (s.onCtx id k f).slices = s.slices := by simp [State.onCtx]
@[simp] theorem State.onCtx_thomes (s : State) (id : CoreId) (k : CtxId) (f : Context → Context) : (s.onCtx id k f).thomes = s.thomes := by simp [State.onCtx]
@[simp] theorem State.onCtx_tenants (s : State) (id : CoreId) (k : CtxId) (f : Context → Context) : (s.onCtx id k f).tenants = s.tenants := by simp [State.onCtx]
@[simp] theorem State.onCtx_gangs (s : State) (id : CoreId) (k : CtxId) (f : Context → Context) : (s.onCtx id k f).gangs = s.gangs := by simp [State.onCtx]
@[simp] theorem State.onCtx_groups (s : State) (id : CoreId) (k : CtxId) (f : Context → Context) : (s.onCtx id k f).groups = s.groups := by simp [State.onCtx]
@[simp] theorem State.onCtx_bindings (s : State) (id : CoreId) (k : CtxId) (f : Context → Context) : (s.onCtx id k f).bindings = s.bindings := by simp [State.onCtx]
@[simp] theorem State.onCtx_net (s : State) (id : CoreId) (k : CtxId) (f : Context → Context) : (s.onCtx id k f).net = s.net := by simp [State.onCtx]
@[simp] theorem State.onCtx_nextPkt (s : State) (id : CoreId) (k : CtxId) (f : Context → Context) : (s.onCtx id k f).nextPkt = s.nextPkt := by simp [State.onCtx]
@[simp] theorem State.onCtx_nextKey (s : State) (id : CoreId) (k : CtxId) (f : Context → Context) : (s.onCtx id k f).nextKey = s.nextKey := by simp [State.onCtx]
@[simp] theorem State.onCtx_peerWaits (s : State) (id : CoreId) (k : CtxId) (f : Context → Context) : (s.onCtx id k f).peerWaits = s.peerWaits := by simp [State.onCtx]
@[simp] theorem State.onCtx_blocked (s : State) (id : CoreId) (k : CtxId) (f : Context → Context) : (s.onCtx id k f).blocked = s.blocked := by simp [State.onCtx]
@[simp] theorem State.onCtx_parlour (s : State) (id : CoreId) (k : CtxId) (f : Context → Context) : (s.onCtx id k f).parlour = s.parlour := by simp [State.onCtx]

/-! ## Contexts of a core woken -/

@[simp] theorem State.wake_meId (s : State) (id : CoreId) (p : WaitKind → Bool) : (s.wake id p).meId = s.meId := by simp [State.wake]
@[simp] theorem State.wake_agenda (s : State) (id : CoreId) (p : WaitKind → Bool) : (s.wake id p).agenda = s.agenda := by simp [State.wake]
@[simp] theorem State.wake_pick (s : State) (id : CoreId) (p : WaitKind → Bool) : (s.wake id p).pick = s.pick := by simp [State.wake]
@[simp] theorem State.wake_tick (s : State) (id : CoreId) (p : WaitKind → Bool) : (s.wake id p).tick = s.tick := by simp [State.wake]
@[simp] theorem State.wake_cycle (s : State) (id : CoreId) (p : WaitKind → Bool) : (s.wake id p).cycle = s.cycle := by simp [State.wake]
@[simp] theorem State.wake_hbm (s : State) (id : CoreId) (p : WaitKind → Bool) : (s.wake id p).hbm = s.hbm := by simp [State.wake]
@[simp] theorem State.wake_hbmPoison (s : State) (id : CoreId) (p : WaitKind → Bool) : (s.wake id p).hbmPoison = s.hbmPoison := by simp [State.wake]
@[simp] theorem State.wake_hbmKey (s : State) (id : CoreId) (p : WaitKind → Bool) : (s.wake id p).hbmKey = s.hbmKey := by simp [State.wake]
@[simp] theorem State.wake_hostMem (s : State) (id : CoreId) (p : WaitKind → Bool) : (s.wake id p).hostMem = s.hostMem := by simp [State.wake]
@[simp] theorem State.wake_peerMem (s : State) (id : CoreId) (p : WaitKind → Bool) : (s.wake id p).peerMem = s.peerMem := by simp [State.wake]
@[simp] theorem State.wake_slices (s : State) (id : CoreId) (p : WaitKind → Bool) : (s.wake id p).slices = s.slices := by simp [State.wake]
@[simp] theorem State.wake_thomes (s : State) (id : CoreId) (p : WaitKind → Bool) : (s.wake id p).thomes = s.thomes := by simp [State.wake]
@[simp] theorem State.wake_tenants (s : State) (id : CoreId) (p : WaitKind → Bool) : (s.wake id p).tenants = s.tenants := by simp [State.wake]
@[simp] theorem State.wake_gangs (s : State) (id : CoreId) (p : WaitKind → Bool) : (s.wake id p).gangs = s.gangs := by simp [State.wake]
@[simp] theorem State.wake_groups (s : State) (id : CoreId) (p : WaitKind → Bool) : (s.wake id p).groups = s.groups := by simp [State.wake]
@[simp] theorem State.wake_bindings (s : State) (id : CoreId) (p : WaitKind → Bool) : (s.wake id p).bindings = s.bindings := by simp [State.wake]
@[simp] theorem State.wake_net (s : State) (id : CoreId) (p : WaitKind → Bool) : (s.wake id p).net = s.net := by simp [State.wake]
@[simp] theorem State.wake_nextPkt (s : State) (id : CoreId) (p : WaitKind → Bool) : (s.wake id p).nextPkt = s.nextPkt := by simp [State.wake]
@[simp] theorem State.wake_nextKey (s : State) (id : CoreId) (p : WaitKind → Bool) : (s.wake id p).nextKey = s.nextKey := by simp [State.wake]
@[simp] theorem State.wake_peerWaits (s : State) (id : CoreId) (p : WaitKind → Bool) : (s.wake id p).peerWaits = s.peerWaits := by simp [State.wake]
@[simp] theorem State.wake_blocked (s : State) (id : CoreId) (p : WaitKind → Bool) : (s.wake id p).blocked = s.blocked := by simp [State.wake]
@[simp] theorem State.wake_parlour (s : State) (id : CoreId) (p : WaitKind → Bool) : (s.wake id p).parlour = s.parlour := by simp [State.wake]

/-! ## A slice replaced -/

@[simp] theorem State.setSlice_meId (s : State) (id : CoreId) (x : Slice) : (s.setSlice id x).meId = s.meId := rfl
@[simp] theorem State.setSlice_me (s : State) (id : CoreId) (x : Slice) : (s.setSlice id x).me = s.me := rfl
@[simp] theorem State.setSlice_others (s : State) (id : CoreId) (x : Slice) : (s.setSlice id x).others = s.others := rfl
@[simp] theorem State.setSlice_agenda (s : State) (id : CoreId) (x : Slice) : (s.setSlice id x).agenda = s.agenda := rfl
@[simp] theorem State.setSlice_pick (s : State) (id : CoreId) (x : Slice) : (s.setSlice id x).pick = s.pick := rfl
@[simp] theorem State.setSlice_tick (s : State) (id : CoreId) (x : Slice) : (s.setSlice id x).tick = s.tick := rfl
@[simp] theorem State.setSlice_cycle (s : State) (id : CoreId) (x : Slice) : (s.setSlice id x).cycle = s.cycle := rfl
@[simp] theorem State.setSlice_hbm (s : State) (id : CoreId) (x : Slice) : (s.setSlice id x).hbm = s.hbm := rfl
@[simp] theorem State.setSlice_hbmPoison (s : State) (id : CoreId) (x : Slice) : (s.setSlice id x).hbmPoison = s.hbmPoison := rfl
@[simp] theorem State.setSlice_hbmKey (s : State) (id : CoreId) (x : Slice) : (s.setSlice id x).hbmKey = s.hbmKey := rfl
@[simp] theorem State.setSlice_hostMem (s : State) (id : CoreId) (x : Slice) : (s.setSlice id x).hostMem = s.hostMem := rfl
@[simp] theorem State.setSlice_peerMem (s : State) (id : CoreId) (x : Slice) : (s.setSlice id x).peerMem = s.peerMem := rfl
@[simp] theorem State.setSlice_thomes (s : State) (id : CoreId) (x : Slice) : (s.setSlice id x).thomes = s.thomes := rfl
@[simp] theorem State.setSlice_tenants (s : State) (id : CoreId) (x : Slice) : (s.setSlice id x).tenants = s.tenants := rfl
@[simp] theorem State.setSlice_gangs (s : State) (id : CoreId) (x : Slice) : (s.setSlice id x).gangs = s.gangs := rfl
@[simp] theorem State.setSlice_groups (s : State) (id : CoreId) (x : Slice) : (s.setSlice id x).groups = s.groups := rfl
@[simp] theorem State.setSlice_bindings (s : State) (id : CoreId) (x : Slice) : (s.setSlice id x).bindings = s.bindings := rfl
@[simp] theorem State.setSlice_net (s : State) (id : CoreId) (x : Slice) : (s.setSlice id x).net = s.net := rfl
@[simp] theorem State.setSlice_nextPkt (s : State) (id : CoreId) (x : Slice) : (s.setSlice id x).nextPkt = s.nextPkt := rfl
@[simp] theorem State.setSlice_nextKey (s : State) (id : CoreId) (x : Slice) : (s.setSlice id x).nextKey = s.nextKey := rfl
@[simp] theorem State.setSlice_peerWaits (s : State) (id : CoreId) (x : Slice) : (s.setSlice id x).peerWaits = s.peerWaits := rfl
@[simp] theorem State.setSlice_blocked (s : State) (id : CoreId) (x : Slice) : (s.setSlice id x).blocked = s.blocked := rfl
@[simp] theorem State.setSlice_parlour (s : State) (id : CoreId) (x : Slice) : (s.setSlice id x).parlour = s.parlour := rfl

/-! ## A slice changed -/

@[simp] theorem State.onSlice_meId (s : State) (id : CoreId) (f : Slice → Slice) : (s.onSlice id f).meId = s.meId := rfl
@[simp] theorem State.onSlice_me (s : State) (id : CoreId) (f : Slice → Slice) : (s.onSlice id f).me = s.me := rfl
@[simp] theorem State.onSlice_others (s : State) (id : CoreId) (f : Slice → Slice) : (s.onSlice id f).others = s.others := rfl
@[simp] theorem State.onSlice_agenda (s : State) (id : CoreId) (f : Slice → Slice) : (s.onSlice id f).agenda = s.agenda := rfl
@[simp] theorem State.onSlice_pick (s : State) (id : CoreId) (f : Slice → Slice) : (s.onSlice id f).pick = s.pick := rfl
@[simp] theorem State.onSlice_tick (s : State) (id : CoreId) (f : Slice → Slice) : (s.onSlice id f).tick = s.tick := rfl
@[simp] theorem State.onSlice_cycle (s : State) (id : CoreId) (f : Slice → Slice) : (s.onSlice id f).cycle = s.cycle := rfl
@[simp] theorem State.onSlice_hbm (s : State) (id : CoreId) (f : Slice → Slice) : (s.onSlice id f).hbm = s.hbm := rfl
@[simp] theorem State.onSlice_hbmPoison (s : State) (id : CoreId) (f : Slice → Slice) : (s.onSlice id f).hbmPoison = s.hbmPoison := rfl
@[simp] theorem State.onSlice_hbmKey (s : State) (id : CoreId) (f : Slice → Slice) : (s.onSlice id f).hbmKey = s.hbmKey := rfl
@[simp] theorem State.onSlice_hostMem (s : State) (id : CoreId) (f : Slice → Slice) : (s.onSlice id f).hostMem = s.hostMem := rfl
@[simp] theorem State.onSlice_peerMem (s : State) (id : CoreId) (f : Slice → Slice) : (s.onSlice id f).peerMem = s.peerMem := rfl
@[simp] theorem State.onSlice_thomes (s : State) (id : CoreId) (f : Slice → Slice) : (s.onSlice id f).thomes = s.thomes := rfl
@[simp] theorem State.onSlice_tenants (s : State) (id : CoreId) (f : Slice → Slice) : (s.onSlice id f).tenants = s.tenants := rfl
@[simp] theorem State.onSlice_gangs (s : State) (id : CoreId) (f : Slice → Slice) : (s.onSlice id f).gangs = s.gangs := rfl
@[simp] theorem State.onSlice_groups (s : State) (id : CoreId) (f : Slice → Slice) : (s.onSlice id f).groups = s.groups := rfl
@[simp] theorem State.onSlice_bindings (s : State) (id : CoreId) (f : Slice → Slice) : (s.onSlice id f).bindings = s.bindings := rfl
@[simp] theorem State.onSlice_net (s : State) (id : CoreId) (f : Slice → Slice) : (s.onSlice id f).net = s.net := rfl
@[simp] theorem State.onSlice_nextPkt (s : State) (id : CoreId) (f : Slice → Slice) : (s.onSlice id f).nextPkt = s.nextPkt := rfl
@[simp] theorem State.onSlice_nextKey (s : State) (id : CoreId) (f : Slice → Slice) : (s.onSlice id f).nextKey = s.nextKey := rfl
@[simp] theorem State.onSlice_peerWaits (s : State) (id : CoreId) (f : Slice → Slice) : (s.onSlice id f).peerWaits = s.peerWaits := rfl
@[simp] theorem State.onSlice_blocked (s : State) (id : CoreId) (f : Slice → Slice) : (s.onSlice id f).blocked = s.blocked := rfl
@[simp] theorem State.onSlice_parlour (s : State) (id : CoreId) (f : Slice → Slice) : (s.onSlice id f).parlour = s.parlour := rfl

/-! ## A translation home changed -/

@[simp] theorem State.onTHome_meId (s : State) (id : CoreId) (f : THome → THome) : (s.onTHome id f).meId = s.meId := rfl
@[simp] theorem State.onTHome_me (s : State) (id : CoreId) (f : THome → THome) : (s.onTHome id f).me = s.me := rfl
@[simp] theorem State.onTHome_others (s : State) (id : CoreId) (f : THome → THome) : (s.onTHome id f).others = s.others := rfl
@[simp] theorem State.onTHome_agenda (s : State) (id : CoreId) (f : THome → THome) : (s.onTHome id f).agenda = s.agenda := rfl
@[simp] theorem State.onTHome_pick (s : State) (id : CoreId) (f : THome → THome) : (s.onTHome id f).pick = s.pick := rfl
@[simp] theorem State.onTHome_tick (s : State) (id : CoreId) (f : THome → THome) : (s.onTHome id f).tick = s.tick := rfl
@[simp] theorem State.onTHome_cycle (s : State) (id : CoreId) (f : THome → THome) : (s.onTHome id f).cycle = s.cycle := rfl
@[simp] theorem State.onTHome_hbm (s : State) (id : CoreId) (f : THome → THome) : (s.onTHome id f).hbm = s.hbm := rfl
@[simp] theorem State.onTHome_hbmPoison (s : State) (id : CoreId) (f : THome → THome) : (s.onTHome id f).hbmPoison = s.hbmPoison := rfl
@[simp] theorem State.onTHome_hbmKey (s : State) (id : CoreId) (f : THome → THome) : (s.onTHome id f).hbmKey = s.hbmKey := rfl
@[simp] theorem State.onTHome_hostMem (s : State) (id : CoreId) (f : THome → THome) : (s.onTHome id f).hostMem = s.hostMem := rfl
@[simp] theorem State.onTHome_peerMem (s : State) (id : CoreId) (f : THome → THome) : (s.onTHome id f).peerMem = s.peerMem := rfl
@[simp] theorem State.onTHome_slices (s : State) (id : CoreId) (f : THome → THome) : (s.onTHome id f).slices = s.slices := rfl
@[simp] theorem State.onTHome_tenants (s : State) (id : CoreId) (f : THome → THome) : (s.onTHome id f).tenants = s.tenants := rfl
@[simp] theorem State.onTHome_gangs (s : State) (id : CoreId) (f : THome → THome) : (s.onTHome id f).gangs = s.gangs := rfl
@[simp] theorem State.onTHome_groups (s : State) (id : CoreId) (f : THome → THome) : (s.onTHome id f).groups = s.groups := rfl
@[simp] theorem State.onTHome_bindings (s : State) (id : CoreId) (f : THome → THome) : (s.onTHome id f).bindings = s.bindings := rfl
@[simp] theorem State.onTHome_net (s : State) (id : CoreId) (f : THome → THome) : (s.onTHome id f).net = s.net := rfl
@[simp] theorem State.onTHome_nextPkt (s : State) (id : CoreId) (f : THome → THome) : (s.onTHome id f).nextPkt = s.nextPkt := rfl
@[simp] theorem State.onTHome_nextKey (s : State) (id : CoreId) (f : THome → THome) : (s.onTHome id f).nextKey = s.nextKey := rfl
@[simp] theorem State.onTHome_peerWaits (s : State) (id : CoreId) (f : THome → THome) : (s.onTHome id f).peerWaits = s.peerWaits := rfl
@[simp] theorem State.onTHome_blocked (s : State) (id : CoreId) (f : THome → THome) : (s.onTHome id f).blocked = s.blocked := rfl
@[simp] theorem State.onTHome_parlour (s : State) (id : CoreId) (f : THome → THome) : (s.onTHome id f).parlour = s.parlour := rfl

/-! ## A tenant changed -/

@[simp] theorem State.onTenant_meId (s : State) (n : Nat) (f : Tenant → Tenant) : (s.onTenant n f).meId = s.meId := rfl
@[simp] theorem State.onTenant_me (s : State) (n : Nat) (f : Tenant → Tenant) : (s.onTenant n f).me = s.me := rfl
@[simp] theorem State.onTenant_others (s : State) (n : Nat) (f : Tenant → Tenant) : (s.onTenant n f).others = s.others := rfl
@[simp] theorem State.onTenant_agenda (s : State) (n : Nat) (f : Tenant → Tenant) : (s.onTenant n f).agenda = s.agenda := rfl
@[simp] theorem State.onTenant_pick (s : State) (n : Nat) (f : Tenant → Tenant) : (s.onTenant n f).pick = s.pick := rfl
@[simp] theorem State.onTenant_tick (s : State) (n : Nat) (f : Tenant → Tenant) : (s.onTenant n f).tick = s.tick := rfl
@[simp] theorem State.onTenant_cycle (s : State) (n : Nat) (f : Tenant → Tenant) : (s.onTenant n f).cycle = s.cycle := rfl
@[simp] theorem State.onTenant_hbm (s : State) (n : Nat) (f : Tenant → Tenant) : (s.onTenant n f).hbm = s.hbm := rfl
@[simp] theorem State.onTenant_hbmPoison (s : State) (n : Nat) (f : Tenant → Tenant) : (s.onTenant n f).hbmPoison = s.hbmPoison := rfl
@[simp] theorem State.onTenant_hbmKey (s : State) (n : Nat) (f : Tenant → Tenant) : (s.onTenant n f).hbmKey = s.hbmKey := rfl
@[simp] theorem State.onTenant_hostMem (s : State) (n : Nat) (f : Tenant → Tenant) : (s.onTenant n f).hostMem = s.hostMem := rfl
@[simp] theorem State.onTenant_peerMem (s : State) (n : Nat) (f : Tenant → Tenant) : (s.onTenant n f).peerMem = s.peerMem := rfl
@[simp] theorem State.onTenant_slices (s : State) (n : Nat) (f : Tenant → Tenant) : (s.onTenant n f).slices = s.slices := rfl
@[simp] theorem State.onTenant_thomes (s : State) (n : Nat) (f : Tenant → Tenant) : (s.onTenant n f).thomes = s.thomes := rfl
@[simp] theorem State.onTenant_gangs (s : State) (n : Nat) (f : Tenant → Tenant) : (s.onTenant n f).gangs = s.gangs := rfl
@[simp] theorem State.onTenant_groups (s : State) (n : Nat) (f : Tenant → Tenant) : (s.onTenant n f).groups = s.groups := rfl
@[simp] theorem State.onTenant_bindings (s : State) (n : Nat) (f : Tenant → Tenant) : (s.onTenant n f).bindings = s.bindings := rfl
@[simp] theorem State.onTenant_net (s : State) (n : Nat) (f : Tenant → Tenant) : (s.onTenant n f).net = s.net := rfl
@[simp] theorem State.onTenant_nextPkt (s : State) (n : Nat) (f : Tenant → Tenant) : (s.onTenant n f).nextPkt = s.nextPkt := rfl
@[simp] theorem State.onTenant_nextKey (s : State) (n : Nat) (f : Tenant → Tenant) : (s.onTenant n f).nextKey = s.nextKey := rfl
@[simp] theorem State.onTenant_peerWaits (s : State) (n : Nat) (f : Tenant → Tenant) : (s.onTenant n f).peerWaits = s.peerWaits := rfl
@[simp] theorem State.onTenant_blocked (s : State) (n : Nat) (f : Tenant → Tenant) : (s.onTenant n f).blocked = s.blocked := rfl
@[simp] theorem State.onTenant_parlour (s : State) (n : Nat) (f : Tenant → Tenant) : (s.onTenant n f).parlour = s.parlour := rfl

/-! ## A gang changed -/

@[simp] theorem State.onGang_meId (s : State) (k : Nat) (f : Gang → Gang) : (s.onGang k f).meId = s.meId := rfl
@[simp] theorem State.onGang_me (s : State) (k : Nat) (f : Gang → Gang) : (s.onGang k f).me = s.me := rfl
@[simp] theorem State.onGang_others (s : State) (k : Nat) (f : Gang → Gang) : (s.onGang k f).others = s.others := rfl
@[simp] theorem State.onGang_agenda (s : State) (k : Nat) (f : Gang → Gang) : (s.onGang k f).agenda = s.agenda := rfl
@[simp] theorem State.onGang_pick (s : State) (k : Nat) (f : Gang → Gang) : (s.onGang k f).pick = s.pick := rfl
@[simp] theorem State.onGang_tick (s : State) (k : Nat) (f : Gang → Gang) : (s.onGang k f).tick = s.tick := rfl
@[simp] theorem State.onGang_cycle (s : State) (k : Nat) (f : Gang → Gang) : (s.onGang k f).cycle = s.cycle := rfl
@[simp] theorem State.onGang_hbm (s : State) (k : Nat) (f : Gang → Gang) : (s.onGang k f).hbm = s.hbm := rfl
@[simp] theorem State.onGang_hbmPoison (s : State) (k : Nat) (f : Gang → Gang) : (s.onGang k f).hbmPoison = s.hbmPoison := rfl
@[simp] theorem State.onGang_hbmKey (s : State) (k : Nat) (f : Gang → Gang) : (s.onGang k f).hbmKey = s.hbmKey := rfl
@[simp] theorem State.onGang_hostMem (s : State) (k : Nat) (f : Gang → Gang) : (s.onGang k f).hostMem = s.hostMem := rfl
@[simp] theorem State.onGang_peerMem (s : State) (k : Nat) (f : Gang → Gang) : (s.onGang k f).peerMem = s.peerMem := rfl
@[simp] theorem State.onGang_slices (s : State) (k : Nat) (f : Gang → Gang) : (s.onGang k f).slices = s.slices := rfl
@[simp] theorem State.onGang_thomes (s : State) (k : Nat) (f : Gang → Gang) : (s.onGang k f).thomes = s.thomes := rfl
@[simp] theorem State.onGang_tenants (s : State) (k : Nat) (f : Gang → Gang) : (s.onGang k f).tenants = s.tenants := rfl
@[simp] theorem State.onGang_groups (s : State) (k : Nat) (f : Gang → Gang) : (s.onGang k f).groups = s.groups := rfl
@[simp] theorem State.onGang_bindings (s : State) (k : Nat) (f : Gang → Gang) : (s.onGang k f).bindings = s.bindings := rfl
@[simp] theorem State.onGang_net (s : State) (k : Nat) (f : Gang → Gang) : (s.onGang k f).net = s.net := rfl
@[simp] theorem State.onGang_nextPkt (s : State) (k : Nat) (f : Gang → Gang) : (s.onGang k f).nextPkt = s.nextPkt := rfl
@[simp] theorem State.onGang_nextKey (s : State) (k : Nat) (f : Gang → Gang) : (s.onGang k f).nextKey = s.nextKey := rfl
@[simp] theorem State.onGang_peerWaits (s : State) (k : Nat) (f : Gang → Gang) : (s.onGang k f).peerWaits = s.peerWaits := rfl
@[simp] theorem State.onGang_blocked (s : State) (k : Nat) (f : Gang → Gang) : (s.onGang k f).blocked = s.blocked := rfl
@[simp] theorem State.onGang_parlour (s : State) (k : Nat) (f : Gang → Gang) : (s.onGang k f).parlour = s.parlour := rfl

/-! ## A binding changed -/

@[simp] theorem State.onBinding_meId (s : State) (w : CoreId) (f : Binding → Binding) : (s.onBinding w f).meId = s.meId := rfl
@[simp] theorem State.onBinding_me (s : State) (w : CoreId) (f : Binding → Binding) : (s.onBinding w f).me = s.me := rfl
@[simp] theorem State.onBinding_others (s : State) (w : CoreId) (f : Binding → Binding) : (s.onBinding w f).others = s.others := rfl
@[simp] theorem State.onBinding_agenda (s : State) (w : CoreId) (f : Binding → Binding) : (s.onBinding w f).agenda = s.agenda := rfl
@[simp] theorem State.onBinding_pick (s : State) (w : CoreId) (f : Binding → Binding) : (s.onBinding w f).pick = s.pick := rfl
@[simp] theorem State.onBinding_tick (s : State) (w : CoreId) (f : Binding → Binding) : (s.onBinding w f).tick = s.tick := rfl
@[simp] theorem State.onBinding_cycle (s : State) (w : CoreId) (f : Binding → Binding) : (s.onBinding w f).cycle = s.cycle := rfl
@[simp] theorem State.onBinding_hbm (s : State) (w : CoreId) (f : Binding → Binding) : (s.onBinding w f).hbm = s.hbm := rfl
@[simp] theorem State.onBinding_hbmPoison (s : State) (w : CoreId) (f : Binding → Binding) : (s.onBinding w f).hbmPoison = s.hbmPoison := rfl
@[simp] theorem State.onBinding_hbmKey (s : State) (w : CoreId) (f : Binding → Binding) : (s.onBinding w f).hbmKey = s.hbmKey := rfl
@[simp] theorem State.onBinding_hostMem (s : State) (w : CoreId) (f : Binding → Binding) : (s.onBinding w f).hostMem = s.hostMem := rfl
@[simp] theorem State.onBinding_peerMem (s : State) (w : CoreId) (f : Binding → Binding) : (s.onBinding w f).peerMem = s.peerMem := rfl
@[simp] theorem State.onBinding_slices (s : State) (w : CoreId) (f : Binding → Binding) : (s.onBinding w f).slices = s.slices := rfl
@[simp] theorem State.onBinding_thomes (s : State) (w : CoreId) (f : Binding → Binding) : (s.onBinding w f).thomes = s.thomes := rfl
@[simp] theorem State.onBinding_tenants (s : State) (w : CoreId) (f : Binding → Binding) : (s.onBinding w f).tenants = s.tenants := rfl
@[simp] theorem State.onBinding_gangs (s : State) (w : CoreId) (f : Binding → Binding) : (s.onBinding w f).gangs = s.gangs := rfl
@[simp] theorem State.onBinding_groups (s : State) (w : CoreId) (f : Binding → Binding) : (s.onBinding w f).groups = s.groups := rfl
@[simp] theorem State.onBinding_net (s : State) (w : CoreId) (f : Binding → Binding) : (s.onBinding w f).net = s.net := rfl
@[simp] theorem State.onBinding_nextPkt (s : State) (w : CoreId) (f : Binding → Binding) : (s.onBinding w f).nextPkt = s.nextPkt := rfl
@[simp] theorem State.onBinding_nextKey (s : State) (w : CoreId) (f : Binding → Binding) : (s.onBinding w f).nextKey = s.nextKey := rfl
@[simp] theorem State.onBinding_peerWaits (s : State) (w : CoreId) (f : Binding → Binding) : (s.onBinding w f).peerWaits = s.peerWaits := rfl
@[simp] theorem State.onBinding_blocked (s : State) (w : CoreId) (f : Binding → Binding) : (s.onBinding w f).blocked = s.blocked := rfl
@[simp] theorem State.onBinding_parlour (s : State) (w : CoreId) (f : Binding → Binding) : (s.onBinding w f).parlour = s.parlour := rfl

/-! ## A packet taken -/

@[simp] theorem State.dropPacket_meId (s : State) (id : Nat) : (s.dropPacket id).meId = s.meId := rfl
@[simp] theorem State.dropPacket_me (s : State) (id : Nat) : (s.dropPacket id).me = s.me := rfl
@[simp] theorem State.dropPacket_others (s : State) (id : Nat) : (s.dropPacket id).others = s.others := rfl
@[simp] theorem State.dropPacket_agenda (s : State) (id : Nat) : (s.dropPacket id).agenda = s.agenda := rfl
@[simp] theorem State.dropPacket_pick (s : State) (id : Nat) : (s.dropPacket id).pick = s.pick := rfl
@[simp] theorem State.dropPacket_tick (s : State) (id : Nat) : (s.dropPacket id).tick = s.tick := rfl
@[simp] theorem State.dropPacket_cycle (s : State) (id : Nat) : (s.dropPacket id).cycle = s.cycle := rfl
@[simp] theorem State.dropPacket_hbm (s : State) (id : Nat) : (s.dropPacket id).hbm = s.hbm := rfl
@[simp] theorem State.dropPacket_hbmPoison (s : State) (id : Nat) : (s.dropPacket id).hbmPoison = s.hbmPoison := rfl
@[simp] theorem State.dropPacket_hbmKey (s : State) (id : Nat) : (s.dropPacket id).hbmKey = s.hbmKey := rfl
@[simp] theorem State.dropPacket_hostMem (s : State) (id : Nat) : (s.dropPacket id).hostMem = s.hostMem := rfl
@[simp] theorem State.dropPacket_peerMem (s : State) (id : Nat) : (s.dropPacket id).peerMem = s.peerMem := rfl
@[simp] theorem State.dropPacket_slices (s : State) (id : Nat) : (s.dropPacket id).slices = s.slices := rfl
@[simp] theorem State.dropPacket_thomes (s : State) (id : Nat) : (s.dropPacket id).thomes = s.thomes := rfl
@[simp] theorem State.dropPacket_tenants (s : State) (id : Nat) : (s.dropPacket id).tenants = s.tenants := rfl
@[simp] theorem State.dropPacket_gangs (s : State) (id : Nat) : (s.dropPacket id).gangs = s.gangs := rfl
@[simp] theorem State.dropPacket_groups (s : State) (id : Nat) : (s.dropPacket id).groups = s.groups := rfl
@[simp] theorem State.dropPacket_bindings (s : State) (id : Nat) : (s.dropPacket id).bindings = s.bindings := rfl
@[simp] theorem State.dropPacket_nextPkt (s : State) (id : Nat) : (s.dropPacket id).nextPkt = s.nextPkt := rfl
@[simp] theorem State.dropPacket_nextKey (s : State) (id : Nat) : (s.dropPacket id).nextKey = s.nextKey := rfl
@[simp] theorem State.dropPacket_peerWaits (s : State) (id : Nat) : (s.dropPacket id).peerWaits = s.peerWaits := rfl
@[simp] theorem State.dropPacket_blocked (s : State) (id : Nat) : (s.dropPacket id).blocked = s.blocked := rfl
@[simp] theorem State.dropPacket_parlour (s : State) (id : Nat) : (s.dropPacket id).parlour = s.parlour := rfl

/-! ## A health counter advanced -/

@[simp] theorem State.health_meId (s : State) (i : Nat) : (s.health i).meId = s.meId := rfl
@[simp] theorem State.health_me (s : State) (i : Nat) : (s.health i).me = s.me := rfl
@[simp] theorem State.health_others (s : State) (i : Nat) : (s.health i).others = s.others := rfl
@[simp] theorem State.health_agenda (s : State) (i : Nat) : (s.health i).agenda = s.agenda := rfl
@[simp] theorem State.health_pick (s : State) (i : Nat) : (s.health i).pick = s.pick := rfl
@[simp] theorem State.health_tick (s : State) (i : Nat) : (s.health i).tick = s.tick := rfl
@[simp] theorem State.health_cycle (s : State) (i : Nat) : (s.health i).cycle = s.cycle := rfl
@[simp] theorem State.health_hbm (s : State) (i : Nat) : (s.health i).hbm = s.hbm := rfl
@[simp] theorem State.health_hbmPoison (s : State) (i : Nat) : (s.health i).hbmPoison = s.hbmPoison := rfl
@[simp] theorem State.health_hbmKey (s : State) (i : Nat) : (s.health i).hbmKey = s.hbmKey := rfl
@[simp] theorem State.health_hostMem (s : State) (i : Nat) : (s.health i).hostMem = s.hostMem := rfl
@[simp] theorem State.health_peerMem (s : State) (i : Nat) : (s.health i).peerMem = s.peerMem := rfl
@[simp] theorem State.health_slices (s : State) (i : Nat) : (s.health i).slices = s.slices := rfl
@[simp] theorem State.health_thomes (s : State) (i : Nat) : (s.health i).thomes = s.thomes := rfl
@[simp] theorem State.health_tenants (s : State) (i : Nat) : (s.health i).tenants = s.tenants := rfl
@[simp] theorem State.health_gangs (s : State) (i : Nat) : (s.health i).gangs = s.gangs := rfl
@[simp] theorem State.health_groups (s : State) (i : Nat) : (s.health i).groups = s.groups := rfl
@[simp] theorem State.health_bindings (s : State) (i : Nat) : (s.health i).bindings = s.bindings := rfl
@[simp] theorem State.health_net (s : State) (i : Nat) : (s.health i).net = s.net := rfl
@[simp] theorem State.health_nextPkt (s : State) (i : Nat) : (s.health i).nextPkt = s.nextPkt := rfl
@[simp] theorem State.health_nextKey (s : State) (i : Nat) : (s.health i).nextKey = s.nextKey := rfl
@[simp] theorem State.health_peerWaits (s : State) (i : Nat) : (s.health i).peerWaits = s.peerWaits := rfl
@[simp] theorem State.health_blocked (s : State) (i : Nat) : (s.health i).blocked = s.blocked := rfl

/-! ## What the changed part gives -/

theorem assoc?_assocSet {κ α : Type} [DecidableEq κ] (k j : κ) (v : α) (l : List (κ × α)) :
    assoc? j (assocSet k v l) = if j = k then some v else assoc? j l := by
  induction l with
  | nil =>
    by_cases h : j = k
    · simp [assocSet, assoc?, h]
    · have h' : ¬k = j := fun e => h e.symm
      simp [assocSet, assoc?, h, h']
  | cons c r ih =>
    obtain ⟨i, w⟩ := c
    by_cases h : i = k
    · subst h
      by_cases h2 : j = i
      · subst h2; simp [assocSet, assoc?]
      · have h3 : ¬i = j := fun e => h2 e.symm
        simp [assocSet, assoc?, h2, h3]
    · by_cases h2 : i = j
      · subst h2; simp [assocSet, assoc?, h]
      · simp [assocSet, assoc?, h, h2, ih]

theorem State.core_setCore (s : State) (id j : CoreId) (c : Core) : (s.setCore id c).core j = if j = id then c else s.core j := by
  unfold State.setCore State.core
  by_cases h1 : id = s.meId <;> by_cases h2 : j = s.meId <;> by_cases h3 : j = id <;> simp_all [assoc?_assocSet]

theorem State.core_onCore (s : State) (id j : CoreId) (f : Core → Core) :
    (s.onCore id f).core j = if j = id then f (s.core id) else s.core j := by simp [State.onCore, State.core_setCore]

theorem State.ctxAt_onCtx (s : State) (id j : CoreId) (k i : CtxId) (f : Context → Context) :
    (s.onCtx id k f).ctxAt j i = if j = id ∧ i = k then f (s.ctxAt id k) else s.ctxAt j i := by
  simp only [State.ctxAt, State.onCtx, State.core_onCore]
  by_cases h1 : j = id
  · subst h1
    by_cases h2 : i = k
    · subst h2; simp
    · simp [h2, Core.ctx_setCtx_of_ne _ _ _ _ h2]
  · simp [h1]

theorem State.slice_setSlice (s : State) (id j : CoreId) (x : Slice) : (s.setSlice id x).slice j = if j = id then x else s.slice j := by
  by_cases h : j = id <;> simp [State.setSlice, State.slice, assoc?_assocSet, h]

theorem State.slice_onSlice (s : State) (id j : CoreId) (f : Slice → Slice) :
    (s.onSlice id f).slice j = if j = id then f (s.slice id) else s.slice j := by simp [State.onSlice, State.slice_setSlice]

theorem State.thome_onTHome (s : State) (id j : CoreId) (f : THome → THome) :
    (s.onTHome id f).thome j = if j = id then f (s.thome id) else s.thome j := by
  by_cases h : j = id <;> simp [State.onTHome, State.thome, assoc?_assocSet, h]

theorem find?_map_keep {α : Type} (p : α → Bool) (f : α → α) (h : ∀ x, p (f x) = p x) (l : List α) :
    (l.map f).find? p = (l.find? p).map f := by
  induction l with
  | nil => rfl
  | cons x r ih => by_cases hx : p x = true <;> simp [h, hx, ih]

/-- A change that keeps the tenant's number changes exactly that tenant. -/
theorem State.tenant_onTenant (s : State) (n m : Nat) (f : Tenant → Tenant) (h : ∀ t, (f t).id = t.id) :
    (s.onTenant n f).tenant m = (s.tenant m).map (fun t => if t.id = n then f t else t) := by
  unfold State.tenant State.onTenant
  exact find?_map_keep _ _ (fun t => by by_cases e : t.id = n <;> simp [e, h]) _

/-- A change that keeps the gang's key changes exactly that gang. -/
theorem State.gang?_onGang (s : State) (k j : Nat) (f : Gang → Gang) (h : ∀ g, (f g).key = g.key) :
    (s.onGang k f).gang? j = (s.gang? j).map (fun g => if g.key = k then f g else g) := by
  unfold State.gang? State.onGang
  exact find?_map_keep _ _ (fun t => by by_cases e : t.key = k <;> simp [e, h]) _

/-! ## Little-endian values -/

@[simp] theorem leBytesOf_length (n : Nat) : ∀ v, (leBytesOf n v).length = n := by
  induction n with
  | zero => intro v; rfl
  | succ n ih => intro v; simp [leBytesOf, ih]

theorem leOf_leBytesOf (n : Nat) : ∀ v, leOf (leBytesOf n v) = v % 256 ^ n := by
  induction n with
  | zero => intro v; simp [leBytesOf, leOf, Nat.mod_one]
  | succ n ih =>
    intro v
    have h : v % 256 ^ (n + 1) = v % 256 + 256 * (v / 256 % 256 ^ n) := by rw [Nat.pow_succ', Nat.mod_mul]
    rw [h, leBytesOf, leOf, ih, BitVec.toNat_ofNat]

theorem leOf_lt (l : List Byte) : leOf l < 256 ^ l.length := by
  induction l with
  | nil => simp [leOf]
  | cons b r ih =>
    have := b.isLt
    simp only [leOf, List.length_cons, Nat.pow_succ']
    omega

end Sys2Proof.Machine
end

