-- ==== Sys2Proof/Laws/Home.lean ====
section
/-! SUPPORT. What the operations on memory at its homes leave: every one keeps the canonical form of the three memories, and a
write to a frame that no vat caches changes exactly its bytes. -/
namespace Sys2Proof.Machine

/-- A state with the same memories has them in the same form. -/
theorem State.memoryForm_of_eq {s t : State} (h1 : t.hbm = s.hbm) (h2 : t.hostMem = s.hostMem) (h3 : t.peerMem = s.peerMem)
    (h : s.memoryForm) : t.memoryForm := by unfold State.memoryForm; rw [h1, h2, h3]; exact h

theorem foldl_keeps {α β : Type} (P : α → Prop) (f : α → β → α) (h : ∀ a b, P a → P (f a b)) (l : List β) :
    ∀ a, P a → P (l.foldl f a) := by
  induction l with
  | nil => intro a ha; exact ha
  | cons b r ih => intro a ha; exact ih _ (h a b ha)

theorem foldl_same {α β γ : Type} (g : α → γ) (f : α → β → α) (h : ∀ a b, g (f a b) = g a) (l : List β) :
    ∀ a, g (l.foldl f a) = g a := by
  induction l with
  | nil => intro a; rfl
  | cons b r ih => intro a; rw [List.foldl_cons, ih, h]

/-! ## HBM -/

/-- A write under the key that a line holds leaves its other bytes alone (R116). -/
theorem State.mixedCells_same (s : State) (key : Nat) (cells : List Host.Cell) (line : Nat)
    (h : ∀ k, assoc? line s.hbmKey = some k → k = key) : s.mixedCells key cells line = [] := by
  have hk : (assoc? line s.hbmKey).all (· = key) = true := by
    cases e : assoc? line s.hbmKey with
    | none => rfl
    | some k => simp [h k e]
  simp [State.mixedCells, hk]

theorem State.hbmWrite_form (s : State) (key : Nat) (cells : List Host.Cell) (h : s.memoryForm) : (s.hbmWrite key cells).memoryForm :=
  ⟨Memory.wf_writeCells cells _ (Memory.wf_writeCells _ _ h.1), h.2.1, h.2.2⟩

@[simp] theorem State.poisonLines_hbm (s : State) (l : List Nat) : (s.poisonLines l).hbm = s.hbm := by
  simp only [State.poisonLines]; exact foldl_same (·.hbm) (fun s _ => s.health 98) (fun a b => rfl) _ s
@[simp] theorem State.poisonLines_hostMem (s : State) (l : List Nat) : (s.poisonLines l).hostMem = s.hostMem := by
  simp only [State.poisonLines]; exact foldl_same (·.hostMem) (fun s _ => s.health 98) (fun a b => rfl) _ s
@[simp] theorem State.poisonLines_peerMem (s : State) (l : List Nat) : (s.poisonLines l).peerMem = s.peerMem := by
  simp only [State.poisonLines]; exact foldl_same (·.peerMem) (fun s _ => s.health 98) (fun a b => rfl) _ s

theorem State.poisonLines_form (s : State) (l : List Nat) (h : s.memoryForm) : (s.poisonLines l).memoryForm :=
  State.memoryForm_of_eq (by simp) (by simp) (by simp) h

theorem State.memWrite_form (s : State) (t : Tenant) (e : Bool) (cells : List Host.Cell) (p : Bool) (h : s.memoryForm) :
    (s.memWrite t e cells p).memoryForm := by
  unfold State.memWrite
  cases p
  · exact State.hbmWrite_form _ _ _ h
  · exact State.poisonLines_form _ _ (State.hbmWrite_form _ _ _ h)

/-! ## Slices -/

theorem State.setSlice_form (s : State) (id : CoreId) (x : Slice) (h : s.memoryForm) : (s.setSlice id x).memoryForm := h
theorem State.onSlice_form (s : State) (id : CoreId) (f : Slice → Slice) (h : s.memoryForm) : (s.onSlice id f).memoryForm := h

theorem State.writeBackLine_form (s : State) (l : SLine) (h : s.memoryForm) : (s.writeBackLine l).memoryForm := by
  unfold State.writeBackLine
  split
  · exact h
  · split
    · exact h
    · exact State.poisonLines_form _ _ (State.hbmWrite_form _ _ _ h)

theorem State.giveUpLine_form (s : State) (l : SLine) (h : s.memoryForm) : (s.giveUpLine l).memoryForm := by
  unfold State.giveUpLine
  split
  · exact h
  · exact State.poisonLines_form _ _ (State.writeBackLine_form _ _ h)

theorem State.makeRoom_form (s : State) (x : Home) (h : s.memoryForm) : (s.makeRoom x).1.memoryForm := by
  simp only [State.makeRoom]
  split
  · exact h
  · exact State.onSlice_form _ _ _ (State.writeBackLine_form _ _ h)
  · exact h

theorem State.install_form (s : State) (v : Vat) (x : Home) (l : SLine) (st : Bool) (h : s.memoryForm) : (s.install v x l st).memoryForm :=
  State.onSlice_form _ _ _ (State.makeRoom_form _ _ h)

theorem State.moveLine_form (s : State) (tn : Nat) (v : Vat) (base : Nat) (src : CoreId) (x : Home) (h : s.memoryForm) :
    (s.moveLine tn v base src x).memoryForm := by
  simp only [State.moveLine]
  have hs (f g : Slice → Slice) : ((s.onSlice src f).onSlice x.slice g).memoryForm := State.onSlice_form _ _ _ (State.onSlice_form _ _ _ h)
  split
  · exact h
  · split
    · exact State.giveUpLine_form _ _ (hs _ _)
    · split
      · exact State.writeBackLine_form _ _ (hs _ _)
      · split
        · exact State.install_form _ _ _ _ _ (hs _ _)
        · exact State.install_form _ _ _ _ _ (State.writeBackLine_form _ _ (hs _ _))

theorem State.probe_form (s : State) (tn : Nat) (v : Vat) (pl : BitVec 2) (die pa : Nat) (x : Home) (h : s.memoryForm) :
    (s.probe tn v pl die pa x).memoryForm := by
  simp only [State.probe]
  split
  · exact h
  · split
    · exact State.moveLine_form _ _ _ _ _ _ h
    · exact h

theorem State.probed_form (s : State) (t : Tenant) (xl : Xl) (die : Nat) (ld : Bool) (h : s.memoryForm) : (s.probed t xl die ld).memoryForm := by
  unfold State.probed
  cases t.homeFor xl die ld with
  | none => exact h
  | some p => exact State.probe_form _ _ _ _ _ _ _ h

theorem State.bring_form (s : State) (t : Tenant) (v : Vat) (xl : Xl) (x : Home) (h : s.memoryForm) : (s.bring t v xl x).memoryForm := by
  simp only [State.bring]
  split
  · split
    · exact h
    · exact State.onSlice_form _ _ _ h
  · exact State.install_form _ _ _ _ _ h

theorem State.writeHeld_form (s : State) (t : Tenant) (v : Vat) (xl : Xl) (sl : CoreId) (cells : List Host.Cell) (p : Bool)
    (h : s.memoryForm) : (s.writeHeld t v xl sl cells p).memoryForm := by
  simp only [State.writeHeld]
  split
  · exact State.memWrite_form _ _ _ _ _ (State.onSlice_form _ _ _ h)
  · exact State.onSlice_form _ _ _ h

theorem State.writeAtSlice_form (s : State) (t : Tenant) (v : Vat) (xl : Xl) (x : Home) (cells : List Host.Cell) (p : Bool)
    (h : s.memoryForm) : (s.writeAtSlice t v xl x cells p).memoryForm := by
  refine State.writeHeld_form _ _ _ _ _ _ _ ?_
  split
  · exact h
  · exact State.bring_form _ _ _ _ _ h

theorem State.writeServed_form (s : State) (t : Tenant) (xl : Xl) (cells : List Host.Cell) (p : Bool) (w : Served) (h : s.memoryForm) :
    (s.writeServed t xl cells p w).memoryForm := by
  cases w with
  | slice v x => exact State.writeAtSlice_form _ _ _ _ _ _ _ h
  | stays v src => exact State.writeHeld_form _ _ _ _ _ _ _ h
  | memory => exact State.memWrite_form _ _ _ _ _ h

/-! ## Homes -/

theorem State.hostView_wf (s : State) (h : s.hostMem.wf = true) : s.hostView.wf = true := by
  unfold State.hostView
  generalize s.parlour.posted = l
  generalize s.hostMem = m at h
  induction l generalizing m with
  | nil => exact h
  | cons p r ih => exact ih _ (Memory.wf_writeCells _ _ h)

/-- Posted writes that reach host memory keep the canonical form. -/
theorem State.pushHost_form (s : State) (h : s.memoryForm) : s.pushHost.memoryForm := ⟨h.1, State.hostView_wf s h.2.1, h.2.2⟩

/-- A read at a home keeps the canonical form. -/
theorem State.readHome_form (s : State) (t : Tenant) (die : Nat) (xl : Xl) (n : Nat) (ld : Bool) (h : s.memoryForm) :
    (s.readHome t die xl n ld).1.memoryForm := by
  have hp := State.probed_form s t xl die ld h
  simp only [State.readHome]
  split
  · exact State.pushHost_form s h
  · exact h
  · split
    · exact h
    · split
      · split <;> exact State.bring_form _ _ _ _ _ hp
      · split <;> exact hp
      · exact hp

/-- A write at a home keeps the canonical form. -/
theorem State.writeHome_form (s : State) (t : Tenant) (die : Nat) (xl : Xl) (cells : List Host.Cell) (p : Bool) (h : s.memoryForm) :
    (s.writeHome t die xl cells p).memoryForm := by
  simp only [State.writeHome]
  split
  · split
    · exact h
    · exact h
  · exact ⟨h.1, h.2.1, Memory.wf_writeCells _ _ h.2.2⟩
  · split
    · exact h
    · exact State.writeServed_form _ _ _ _ _ _ (State.probed_form _ _ _ _ _ h)

theorem State.writeReplica_form (s : State) (t : Tenant) (xl : Xl) (sl : CoreId) (cells : List Host.Cell) (p : Bool) (h : s.memoryForm) :
    (s.writeReplica t xl sl cells p).memoryForm := by
  simp only [State.writeReplica]
  split
  · exact h
  · split
    · exact State.writeServed_form _ _ _ _ _ _ (State.probe_form _ _ _ _ _ _ _ h)
    · exact h

theorem State.readUnit_form (s : State) (t : Tenant) (pa n : Nat) (h : s.memoryForm) : (s.readUnit t pa n).1.memoryForm := by
  unfold State.readUnit; split
  · exact State.readHome_form _ _ _ _ _ _ h
  · exact h

theorem State.readPhys_form (s : State) (t : Tenant) (pa : Nat) (h : s.memoryForm) : (s.readPhys t pa).1.memoryForm :=
  State.readUnit_form _ _ _ _ h

theorem State.readPhysN_form (n : Nat) : ∀ (s : State) (t : Tenant) (pa : Nat), s.memoryForm → (s.readPhysN t pa n).1.memoryForm := by
  induction n with
  | zero => intro s t pa h; exact h
  | succ n ih => intro s t pa h; exact ih _ _ _ (State.readPhys_form s t pa h)

/-! ## Performing writes -/

theorem State.answer_mem (s : State) (r : Req) (f : OpState → OpState) :
    (s.answer r f).hbm = s.hbm ∧ (s.answer r f).hostMem = s.hostMem ∧ (s.answer r f).peerMem = s.peerMem := by
  unfold State.answer; split <;> simp

theorem State.answer_form (s : State) (r : Req) (f : OpState → OpState) (h : s.memoryForm) : (s.answer r f).memoryForm :=
  State.memoryForm_of_eq (s.answer_mem r f).1 (s.answer_mem r f).2.1 (s.answer_mem r f).2.2 h

theorem State.sendPacket_form (s : State) (v q : BitVec 2) (b : Body) (h : s.memoryForm) : (s.sendPacket v q b).memoryForm := h

theorem State.endWait_form (s : State) (w : WaitEntry) (k : Nat) (f : OpState → OpState) (h : s.memoryForm) : (s.endWait w k f).memoryForm := by
  unfold State.endWait; split
  · exact State.answer_form _ _ _ h
  · exact h

theorem State.answerHits_form (s : State) (sl : CoreId) (h : s.memoryForm) : (s.answerHits sl).memoryForm := by
  simp only [State.answerHits]
  exact foldl_keeps State.memoryForm _ (fun a b ha => State.endWait_form _ _ _ _ ha) _ _ h

theorem State.sendDrain_form (s : State) (sl : CoreId) (st : Stamp) (sc : Scope) (d : Bool) (h : s.memoryForm) :
    (s.sendDrain sl st sc d).memoryForm := by
  unfold State.sendDrain; split
  · exact h
  · exact State.sendPacket_form _ _ _ _ h

theorem State.retireStamp_form (s : State) (sl : CoreId) (h : s.memoryForm) : (s.retireStamp sl).memoryForm := by
  unfold State.retireStamp; split
  · exact h
  · exact State.sendDrain_form _ _ _ _ _ h

theorem State.askDrain_form (s : State) (sl : CoreId) (st : Stamp) (sc : Scope) (d : Bool) (h : s.memoryForm) :
    (s.askDrain sl st sc d).memoryForm := by
  unfold State.askDrain; split
  · exact State.retireStamp_form _ _ h
  · exact State.sendDrain_form _ _ _ _ _ h

/-- An event whose unit meets no stamp takes place (R147, R159). -/
theorem State.attempt_clear (s : State) (f : State → State) (h : (f s).blocked = s.blocked) : s.attempt f = f s := if_pos h

/-- An event whose unit meets a stamp asks for its drain and changes nothing else (R147, R159). -/
theorem State.attempt_blocked (s : State) (f : State → State) (sl : CoreId) (st : Stamp) (sc : Scope) (h : (f s).blocked = some (sl, st, sc)) (hs : s.blocked = none) :
    s.attempt f = s.askDrain sl st sc false := by
  simp [State.attempt, h, hs]

/-- An attempt keeps the canonical form where its event does. -/
theorem State.attempt_form (s : State) (f : State → State) (h : s.memoryForm) (hf : (f s).memoryForm) : (s.attempt f).memoryForm := by
  unfold State.attempt; split
  · exact hf
  · split
    · exact hf
    · exact State.askDrain_form _ _ _ _ _ h

theorem State.testWaits_form (s : State) (tn : Nat) (sl : CoreId) (lo n : Nat) (h : s.memoryForm) : (s.testWaits tn sl lo n).memoryForm := by
  simp only [State.testWaits]
  refine State.answerHits_form _ _ (foldl_keeps State.memoryForm _ (fun a w ha => ?_) _ _ h)
  split
  · exact ha
  · split
    · exact State.endWait_form _ _ _ _ (State.onSlice_form _ _ _ (State.readHome_form _ _ _ _ _ _ ha))
    · split
      · split
        · exact State.askDrain_form _ _ _ _ _ (State.onSlice_form _ _ _ (State.readHome_form _ _ _ _ _ _ ha))
        · exact State.onSlice_form _ _ _ (State.readHome_form _ _ _ _ _ _ ha)
      · exact State.readHome_form _ _ _ _ _ _ ha

theorem State.testPeerWaits_form (s : State) (tn lo n : Nat) (h : s.memoryForm) : (s.testPeerWaits tn lo n).memoryForm := by
  simp only [State.testPeerWaits]
  split
  · exact h
  · exact foldl_keeps State.memoryForm _ (fun a b ha => State.answer_form _ _ _ ha) _ _ h

/-- Performing a write keeps the canonical form. -/
theorem State.perform_form (s : State) (t : Tenant) (die : Nat) (xl : Xl) (cells : List Host.Cell) (p : Bool) (h : s.memoryForm) :
    (s.perform t die xl cells p).memoryForm := by
  have h1 := State.writeHome_form s t die xl cells p h
  simp only [State.perform]
  split
  · split
    · exact State.testWaits_form _ _ _ _ _ h1
    · exact State.testPeerWaits_form _ _ _ _ h1
    · exact h1
  · exact h1

theorem State.dropPacket_form (s : State) (id : Nat) (h : s.memoryForm) : (s.dropPacket id).memoryForm := h

theorem State.forwardNow_form (s : State) (p : Packet) (h : s.memoryForm) : (s.forwardNow p).memoryForm := by
  simp only [State.forwardNow]
  split
  · refine State.sendPacket_form _ _ _ _ ?_
    cases (s.dropPacket p.id).ownerOf _ with
    | none => exact h
    | some t => exact foldl_keeps State.memoryForm _ (fun a b ha => State.writeReplica_form _ _ _ _ _ _ ha) _ _ h
  · exact h

theorem State.toReplicas_form (s : State) (t : Tenant) (xl : Xl) (cells : List Host.Cell) (p : Bool) (h : s.memoryForm) :
    (s.toReplicas t xl cells p).memoryForm := by
  simp only [State.toReplicas]
  split
  · exact h
  · exact foldl_keeps State.memoryForm _ (fun a b ha => State.writeReplica_form _ _ _ _ _ _ ha) _ _
      (foldl_keeps State.memoryForm _ (fun a b ha => State.forwardNow_form _ _ ha) _ _ h)

/-- Performing a write at its home and every replica keeps the canonical form. -/
theorem State.performAll_form (s : State) (t : Tenant) (die : Nat) (xl : Xl) (cells : List Host.Cell) (p : Bool) (h : s.memoryForm) :
    (s.performAll t die xl cells p).memoryForm := State.toReplicas_form _ _ _ _ _ (State.perform_form _ _ _ _ _ _ h)

theorem State.performUnit_form (s : State) (t : Tenant) (pa : Nat) (bs : List Byte) (p : Bool) (h : s.memoryForm) :
    (s.performUnit t pa bs p).memoryForm := by
  unfold State.performUnit; split
  · exact State.perform_form _ _ _ _ _ _ h
  · exact h

theorem State.performPhys_form (l : List Word) : ∀ (s : State) (t : Tenant) (pa : Nat), s.memoryForm → (s.performPhys t pa l).memoryForm := by
  induction l with
  | nil => intro s t pa h; exact h
  | cons w r ih => intro s t pa h; exact ih _ _ _ (State.performUnit_form _ _ _ _ _ h)

theorem State.publishVat_form (s : State) (tn i : Nat) (h : s.memoryForm) : (s.publishVat tn i).memoryForm := by
  simp only [State.publishVat]; split
  · exact State.performPhys_form _ _ _ _ h
  · exact h

/-! ## A write to a frame that no vat caches -/

/-- Where no vat caches an address and it is no other tenant's memory, a write at its home changes the bytes of HBM that it names. -/
theorem State.writeHome_bare (s : State) (t : Tenant) (die : Nat) (xl : Xl) (cells : List Host.Cell)
    (h1 : xl.region = .hbm) (h2 : t.liveVat xl.vat = none) (h3 : s.foreign t xl.pa = false) :
    s.writeHome t die xl cells false = s.hbmWrite (keyFor t xl.e) cells := by
  simp [State.writeHome, State.probed, State.servedAt, Tenant.homeFor, State.writeServed, h1, h2, h3, State.memWrite]

/-- A write to another tenant's memory does nothing (R5). -/
theorem State.writeHome_foreign (s : State) (t : Tenant) (die : Nat) (xl : Xl) (cells : List Host.Cell) (p : Bool)
    (h1 : xl.region = .hbm) (h2 : s.foreign t xl.pa = true) : s.writeHome t die xl cells p = s := by
  simp [State.writeHome, h1, h2]

/-- A read of another tenant's memory changes nothing and gives free bytes (R5; log entry 89). -/
theorem State.readHome_foreign (s : State) (t : Tenant) (die : Nat) (xl : Xl) (n : Nat) (ld : Bool)
    (h1 : xl.region = .hbm) (h2 : s.foreign t xl.pa = true) : s.readHome t die xl n ld = (s, s.freeBytes xl.pa n, false) := by
  simp [State.readHome, h1, h2]

/-- A write of a line under its own key gives its bytes at HBM, and leaves every other byte. -/
theorem State.byteAt_hbmWrite (s : State) (key : Nat) (a : Nat) (l : List Byte) (p : Spot)
    (h : ∀ n k, assoc? n s.hbmKey = some k → n ∈ distinct ((cellsAt a l).map (fun c => c.1 / 64)) → k = key) :
    (s.hbmWrite key (cellsAt a l)).byteAt p = match p with
      | .hbm b => if a ≤ b ∧ b < a + l.length then (l[b - a]?).getD 0#8 else s.hbm.get b
      | q => s.byteAt q := by
  have hm : (distinct ((cellsAt a l).map (fun c => c.1 / 64))).flatMap (s.mixedCells key (cellsAt a l)) = [] :=
    List.flatMap_eq_nil_iff.2 (fun n hn => State.mixedCells_same _ _ _ _ (fun k hk => h n k hk hn))
  cases p with
  | hbm b => simp [State.byteAt, State.hbmWrite, hm, Memory.writeCells, Memory.get_writeCells_cellsAt]
  | host _ => rfl
  | peer _ => rfl
  | localMem _ _ => rfl
  | l1 _ _ => rfl
  | slice _ _ _ _ _ => rfl

end Sys2Proof.Machine
end

