-- ==== Sys2Proof/Laws/PerInstr.lean ====
section
/-! SUPPORT. The encoder's words and the decoder's fields agree, instruction by instruction: the words of an instruction have 32
bits each, a second one exactly where word 0 says so, and the decoder reads from their fields the instruction that they encode. -/
namespace Sys2Proof

/-- The words of an instruction are read field by field as that instruction. -/
def Laws.FieldsRead.Statement (i : Instr) : Prop :=
  i.isWord = true → ∃ w w1, encode i = (if hasWord1 w then [w, w1] else [w]) ∧ w < 2 ^ 32 ∧ w1 < 2 ^ 32 ∧ decodeRaw w w1 = .ok i

theorem bv_of {n w lo : Nat} {x : BitVec n} (h : w / 2 ^ lo % 2 ^ n = x.toNat) : bv n w lo = x :=
  BitVec.eq_of_toNat_eq (by rw [bv, BitVec.toNat_ofNat, h])

theorem fieldsRead_one {i : Instr} (w : Nat) (he : encode i = [w]) (hw : w < 2 ^ 32) (h : hasWord1 w = false) (hd : decodeRaw w 0 = .ok i) :
    Laws.FieldsRead.Statement i := fun _ => ⟨w, 0, by simp [he, h], hw, by decide, hd⟩

theorem fieldsRead_two {i : Instr} (w w1 : Nat) (he : encode i = [w, w1]) (hw : w < 2 ^ 32) (hw1 : w1 < 2 ^ 32) (h : hasWord1 w = true)
    (hd : decodeRaw w w1 = .ok i) : Laws.FieldsRead.Statement i := fun _ => ⟨w, w1, by simp [he, h], hw, hw1, hd⟩

/-- The fields of format `encR`. -/
theorem encR_fields {maj d a b aux fn : Nat} (h0 : maj < 2 ^ 6) (h1 : d < 2 ^ 5) (h2 : a < 2 ^ 5) (h3 : b < 2 ^ 5) (h4 : aux < 2 ^ 5) (h5 : fn < 2 ^ 6) :
    encR maj d a b aux fn < 2 ^ 32 ∧ fld (encR maj d a b aux fn) 26 6 = maj ∧ fld (encR maj d a b aux fn) 21 5 = d ∧ fld (encR maj d a b aux fn) 16 5 = a ∧ fld (encR maj d a b aux fn) 11 5 = b ∧ fld (encR maj d a b aux fn) 6 5 = aux ∧ fld (encR maj d a b aux fn) 0 6 = fn :=
  ⟨by simp only [encR]; omega, by simp only [encR, fld]; omega, by simp only [encR, fld]; omega, by simp only [encR, fld]; omega, by simp only [encR, fld]; omega, by simp only [encR, fld]; omega, by simp only [encR, fld]; omega⟩

/-- The fields of format `encI`. -/
theorem encI_fields {maj d a imm : Nat} (h0 : maj < 2 ^ 6) (h1 : d < 2 ^ 5) (h2 : a < 2 ^ 5) (h3 : imm < 2 ^ 16) :
    encI maj d a imm < 2 ^ 32 ∧ fld (encI maj d a imm) 26 6 = maj ∧ fld (encI maj d a imm) 21 5 = d ∧ fld (encI maj d a imm) 16 5 = a ∧ fld (encI maj d a imm) 0 16 = imm :=
  ⟨by simp only [encI]; omega, by simp only [encI, fld]; omega, by simp only [encI, fld]; omega, by simp only [encI, fld]; omega, by simp only [encI, fld]; omega⟩

/-- The fields of format `encJ`. -/
theorem encJ_fields {maj off : Nat} (h0 : maj < 2 ^ 6) (h1 : off < 2 ^ 26) :
    encJ maj off < 2 ^ 32 ∧ fld (encJ maj off) 26 6 = maj ∧ fld (encJ maj off) 0 26 = off :=
  ⟨by simp only [encJ]; omega, by simp only [encJ, fld]; omega, by simp only [encJ, fld]; omega⟩

/-- The fields of format `encM`. -/
theorem encM_fields {maj d a imm sc z o : Nat} (h0 : maj < 2 ^ 6) (h1 : d < 2 ^ 5) (h2 : a < 2 ^ 5) (h3 : imm < 2 ^ 10) (h4 : sc < 2 ^ 2) (h5 : z < 2 ^ 2) (h6 : o < 2 ^ 2) :
    encM maj d a imm sc z o < 2 ^ 32 ∧ fld (encM maj d a imm sc z o) 26 6 = maj ∧ fld (encM maj d a imm sc z o) 21 5 = d ∧ fld (encM maj d a imm sc z o) 16 5 = a ∧ fld (encM maj d a imm sc z o) 6 10 = imm ∧ fld (encM maj d a imm sc z o) 4 2 = sc ∧ fld (encM maj d a imm sc z o) 2 2 = z ∧ fld (encM maj d a imm sc z o) 0 2 = o :=
  ⟨by simp only [encM]; omega, by simp only [encM, fld]; omega, by simp only [encM, fld]; omega, by simp only [encM, fld]; omega, by simp only [encM, fld]; omega, by simp only [encM, fld]; omega, by simp only [encM, fld]; omega, by simp only [encM, fld]; omega⟩

/-- The fields of format `encA`. -/
theorem encA_fields {d a b aop sc z o : Nat} (h0 : d < 2 ^ 5) (h1 : a < 2 ^ 5) (h2 : b < 2 ^ 5) (h3 : aop < 2 ^ 4) (h4 : sc < 2 ^ 2) (h5 : z < 2 ^ 2) (h6 : o < 2 ^ 2) :
    encA d a b aop sc z o < 2 ^ 32 ∧ fld (encA d a b aop sc z o) 26 6 = 29 ∧ fld (encA d a b aop sc z o) 21 5 = d ∧ fld (encA d a b aop sc z o) 16 5 = a ∧ fld (encA d a b aop sc z o) 11 5 = b ∧ fld (encA d a b aop sc z o) 7 4 = aop ∧ fld (encA d a b aop sc z o) 5 2 = sc ∧ fld (encA d a b aop sc z o) 3 2 = z ∧ fld (encA d a b aop sc z o) 1 2 = o :=
  ⟨by simp only [encA]; omega, by simp only [encA, fld]; omega, by simp only [encA, fld]; omega, by simp only [encA, fld]; omega, by simp only [encA, fld]; omega, by simp only [encA, fld]; omega, by simp only [encA, fld]; omega, by simp only [encA, fld]; omega, by simp only [encA, fld]; omega⟩

/-- The fields of format `encT`. -/
theorem encT_fields {maj td ta tb row mask aux fn : Nat} (h0 : maj < 2 ^ 6) (h1 : td < 2 ^ 3) (h2 : ta < 2 ^ 3) (h3 : tb < 2 ^ 3) (h4 : row < 2 ^ 4) (h5 : mask < 2 ^ 2) (h6 : aux < 2 ^ 5) (h7 : fn < 2 ^ 6) :
    encT maj td ta tb row mask aux fn < 2 ^ 32 ∧ fld (encT maj td ta tb row mask aux fn) 26 6 = maj ∧ fld (encT maj td ta tb row mask aux fn) 23 3 = td ∧ fld (encT maj td ta tb row mask aux fn) 20 3 = ta ∧ fld (encT maj td ta tb row mask aux fn) 17 3 = tb ∧ fld (encT maj td ta tb row mask aux fn) 13 4 = row ∧ fld (encT maj td ta tb row mask aux fn) 11 2 = mask ∧ fld (encT maj td ta tb row mask aux fn) 6 5 = aux ∧ fld (encT maj td ta tb row mask aux fn) 0 6 = fn :=
  ⟨by simp only [encT]; omega, by simp only [encT, fld]; omega, by simp only [encT, fld]; omega, by simp only [encT, fld]; omega, by simp only [encT, fld]; omega, by simp only [encT, fld]; omega, by simp only [encT, fld]; omega, by simp only [encT, fld]; omega, by simp only [encT, fld]; omega⟩

/-- The fields of format `encTM`. -/
theorem encTM_fields {maj t row a imm pipe conv : Nat} (h0 : maj < 2 ^ 6) (h1 : t < 2 ^ 3) (h2 : row < 2 ^ 4) (h3 : a < 2 ^ 5) (h4 : imm < 2 ^ 10) (h5 : pipe < 2 ^ 1) (h6 : conv < 2 ^ 3) :
    encTM maj t row a imm pipe conv < 2 ^ 32 ∧ fld (encTM maj t row a imm pipe conv) 26 6 = maj ∧ fld (encTM maj t row a imm pipe conv) 23 3 = t ∧ fld (encTM maj t row a imm pipe conv) 19 4 = row ∧ fld (encTM maj t row a imm pipe conv) 14 5 = a ∧ fld (encTM maj t row a imm pipe conv) 4 10 = imm ∧ fld (encTM maj t row a imm pipe conv) 3 1 = pipe ∧ fld (encTM maj t row a imm pipe conv) 0 3 = conv :=
  ⟨by simp only [encTM]; omega, by simp only [encTM, fld]; omega, by simp only [encTM, fld]; omega, by simp only [encTM, fld]; omega, by simp only [encTM, fld]; omega, by simp only [encTM, fld]; omega, by simp only [encTM, fld]; omega, by simp only [encTM, fld]; omega⟩

/-- The fields of format `encQ`. -/
theorem encQ_fields {q fn a d imm : Nat} (h0 : q < 2 ^ 3) (h1 : fn < 2 ^ 3) (h2 : a < 2 ^ 5) (h3 : d < 2 ^ 5) (h4 : imm < 2 ^ 10) :
    encQ q fn a d imm < 2 ^ 32 ∧ fld (encQ q fn a d imm) 26 6 = 34 ∧ fld (encQ q fn a d imm) 23 3 = q ∧ fld (encQ q fn a d imm) 20 3 = fn ∧ fld (encQ q fn a d imm) 15 5 = a ∧ fld (encQ q fn a d imm) 10 5 = d ∧ fld (encQ q fn a d imm) 0 10 = imm :=
  ⟨by simp only [encQ]; omega, by simp only [encQ, fld]; omega, by simp only [encQ, fld]; omega, by simp only [encQ, fld]; omega, by simp only [encQ, fld]; omega, by simp only [encQ, fld]; omega, by simp only [encQ, fld]; omega⟩

/-- The fields of format `encX`. -/
theorem encX_fields {d a sysfn imm : Nat} (h0 : d < 2 ^ 5) (h1 : a < 2 ^ 5) (h2 : sysfn < 2 ^ 8) (h3 : imm < 2 ^ 8) :
    encX d a sysfn imm < 2 ^ 32 ∧ fld (encX d a sysfn imm) 26 6 = 35 ∧ fld (encX d a sysfn imm) 21 5 = d ∧ fld (encX d a sysfn imm) 16 5 = a ∧ fld (encX d a sysfn imm) 8 8 = sysfn ∧ fld (encX d a sysfn imm) 0 8 = imm :=
  ⟨by simp only [encX]; omega, by simp only [encX, fld]; omega, by simp only [encX, fld]; omega, by simp only [encX, fld]; omega, by simp only [encX, fld]; omega, by simp only [encX, fld]; omega⟩

/-- The fields of format `encMat`. -/
theorem encMat_fields {td a b l fn flags : Nat} (h0 : td < 2 ^ 3) (h1 : a < 2 ^ 5) (h2 : b < 2 ^ 5) (h3 : l < 2 ^ 1) (h4 : fn < 2 ^ 4) (h5 : flags < 2 ^ 6) :
    encMat td a b l fn flags < 2 ^ 32 ∧ fld (encMat td a b l fn flags) 26 6 = 44 ∧ fld (encMat td a b l fn flags) 23 3 = td ∧ fld (encMat td a b l fn flags) 18 5 = a ∧ fld (encMat td a b l fn flags) 13 5 = b ∧ fld (encMat td a b l fn flags) 12 1 = l ∧ fld (encMat td a b l fn flags) 6 4 = fn ∧ fld (encMat td a b l fn flags) 0 6 = flags :=
  ⟨by simp only [encMat]; omega, by simp only [encMat, fld]; omega, by simp only [encMat, fld]; omega, by simp only [encMat, fld]; omega, by simp only [encMat, fld]; omega, by simp only [encMat, fld]; omega, by simp only [encMat, fld]; omega, by simp only [encMat, fld]; omega⟩

/-- The fields of format `encCpy`. -/
theorem encCpy_fields {n a b fn flags : Nat} (h0 : n < 2 ^ 5) (h1 : a < 2 ^ 5) (h2 : b < 2 ^ 5) (h3 : fn < 2 ^ 3) (h4 : flags < 2 ^ 8) :
    encCpy n a b fn flags < 2 ^ 32 ∧ fld (encCpy n a b fn flags) 26 6 = 45 ∧ fld (encCpy n a b fn flags) 21 5 = n ∧ fld (encCpy n a b fn flags) 16 5 = a ∧ fld (encCpy n a b fn flags) 11 5 = b ∧ fld (encCpy n a b fn flags) 8 3 = fn ∧ fld (encCpy n a b fn flags) 0 8 = flags :=
  ⟨by simp only [encCpy]; omega, by simp only [encCpy, fld]; omega, by simp only [encCpy, fld]; omega, by simp only [encCpy, fld]; omega, by simp only [encCpy, fld]; omega, by simp only [encCpy, fld]; omega, by simp only [encCpy, fld]; omega⟩

theorem Laws.FieldsRead.add (x0 : BitVec 5) (x1 : BitVec 5) (x2 : BitVec 5) : Laws.FieldsRead.Statement (.add x0 x1 x2) := by
  have h0 := x0.isLt
  have h1 := x1.isLt
  have h2 := x2.isLt
  obtain ⟨hw, m, f21, f16, f11, f6, f0⟩ := @encR_fields 1 x0.toNat x1.toNat x2.toNat 0 0 (by decide) (by omega) (by omega) (by omega) (by decide) (by decide)
  exact fieldsRead_one _ rfl hw (by delta hasWord1; rw [m]; rfl) (by delta decodeRaw; simp only [m]; delta decAlu; simp only [f0]; rw [bv_of f21, bv_of f16, bv_of f11])

theorem Laws.FieldsRead.sub (x0 : BitVec 5) (x1 : BitVec 5) (x2 : BitVec 5) : Laws.FieldsRead.Statement (.sub x0 x1 x2) := by
  have h0 := x0.isLt
  have h1 := x1.isLt
  have h2 := x2.isLt
  obtain ⟨hw, m, f21, f16, f11, f6, f0⟩ := @encR_fields 1 x0.toNat x1.toNat x2.toNat 0 1 (by decide) (by omega) (by omega) (by omega) (by decide) (by decide)
  exact fieldsRead_one _ rfl hw (by delta hasWord1; rw [m]; rfl) (by delta decodeRaw; simp only [m]; delta decAlu; simp only [f0]; rw [bv_of f21, bv_of f16, bv_of f11])

theorem Laws.FieldsRead.and (x0 : BitVec 5) (x1 : BitVec 5) (x2 : BitVec 5) : Laws.FieldsRead.Statement (.and x0 x1 x2) := by
  have h0 := x0.isLt
  have h1 := x1.isLt
  have h2 := x2.isLt
  obtain ⟨hw, m, f21, f16, f11, f6, f0⟩ := @encR_fields 1 x0.toNat x1.toNat x2.toNat 0 2 (by decide) (by omega) (by omega) (by omega) (by decide) (by decide)
  exact fieldsRead_one _ rfl hw (by delta hasWord1; rw [m]; rfl) (by delta decodeRaw; simp only [m]; delta decAlu; simp only [f0]; rw [bv_of f21, bv_of f16, bv_of f11])

theorem Laws.FieldsRead.or (x0 : BitVec 5) (x1 : BitVec 5) (x2 : BitVec 5) : Laws.FieldsRead.Statement (.or x0 x1 x2) := by
  have h0 := x0.isLt
  have h1 := x1.isLt
  have h2 := x2.isLt
  obtain ⟨hw, m, f21, f16, f11, f6, f0⟩ := @encR_fields 1 x0.toNat x1.toNat x2.toNat 0 3 (by decide) (by omega) (by omega) (by omega) (by decide) (by decide)
  exact fieldsRead_one _ rfl hw (by delta hasWord1; rw [m]; rfl) (by delta decodeRaw; simp only [m]; delta decAlu; simp only [f0]; rw [bv_of f21, bv_of f16, bv_of f11])

theorem Laws.FieldsRead.xor (x0 : BitVec 5) (x1 : BitVec 5) (x2 : BitVec 5) : Laws.FieldsRead.Statement (.xor x0 x1 x2) := by
  have h0 := x0.isLt
  have h1 := x1.isLt
  have h2 := x2.isLt
  obtain ⟨hw, m, f21, f16, f11, f6, f0⟩ := @encR_fields 1 x0.toNat x1.toNat x2.toNat 0 4 (by decide) (by omega) (by omega) (by omega) (by decide) (by decide)
  exact fieldsRead_one _ rfl hw (by delta hasWord1; rw [m]; rfl) (by delta decodeRaw; simp only [m]; delta decAlu; simp only [f0]; rw [bv_of f21, bv_of f16, bv_of f11])

theorem Laws.FieldsRead.shl (x0 : BitVec 5) (x1 : BitVec 5) (x2 : BitVec 5) : Laws.FieldsRead.Statement (.shl x0 x1 x2) := by
  have h0 := x0.isLt
  have h1 := x1.isLt
  have h2 := x2.isLt
  obtain ⟨hw, m, f21, f16, f11, f6, f0⟩ := @encR_fields 1 x0.toNat x1.toNat x2.toNat 0 5 (by decide) (by omega) (by omega) (by omega) (by decide) (by decide)
  exact fieldsRead_one _ rfl hw (by delta hasWord1; rw [m]; rfl) (by delta decodeRaw; simp only [m]; delta decAlu; simp only [f0]; rw [bv_of f21, bv_of f16, bv_of f11])

theorem Laws.FieldsRead.shr (x0 : BitVec 5) (x1 : BitVec 5) (x2 : BitVec 5) : Laws.FieldsRead.Statement (.shr x0 x1 x2) := by
  have h0 := x0.isLt
  have h1 := x1.isLt
  have h2 := x2.isLt
  obtain ⟨hw, m, f21, f16, f11, f6, f0⟩ := @encR_fields 1 x0.toNat x1.toNat x2.toNat 0 6 (by decide) (by omega) (by omega) (by omega) (by decide) (by decide)
  exact fieldsRead_one _ rfl hw (by delta hasWord1; rw [m]; rfl) (by delta decodeRaw; simp only [m]; delta decAlu; simp only [f0]; rw [bv_of f21, bv_of f16, bv_of f11])

theorem Laws.FieldsRead.sar (x0 : BitVec 5) (x1 : BitVec 5) (x2 : BitVec 5) : Laws.FieldsRead.Statement (.sar x0 x1 x2) := by
  have h0 := x0.isLt
  have h1 := x1.isLt
  have h2 := x2.isLt
  obtain ⟨hw, m, f21, f16, f11, f6, f0⟩ := @encR_fields 1 x0.toNat x1.toNat x2.toNat 0 7 (by decide) (by omega) (by omega) (by omega) (by decide) (by decide)
  exact fieldsRead_one _ rfl hw (by delta hasWord1; rw [m]; rfl) (by delta decodeRaw; simp only [m]; delta decAlu; simp only [f0]; rw [bv_of f21, bv_of f16, bv_of f11])

theorem Laws.FieldsRead.rotr (x0 : BitVec 5) (x1 : BitVec 5) (x2 : BitVec 5) : Laws.FieldsRead.Statement (.rotr x0 x1 x2) := by
  have h0 := x0.isLt
  have h1 := x1.isLt
  have h2 := x2.isLt
  obtain ⟨hw, m, f21, f16, f11, f6, f0⟩ := @encR_fields 1 x0.toNat x1.toNat x2.toNat 0 8 (by decide) (by omega) (by omega) (by omega) (by decide) (by decide)
  exact fieldsRead_one _ rfl hw (by delta hasWord1; rw [m]; rfl) (by delta decodeRaw; simp only [m]; delta decAlu; simp only [f0]; rw [bv_of f21, bv_of f16, bv_of f11])

theorem Laws.FieldsRead.slt (x0 : BitVec 5) (x1 : BitVec 5) (x2 : BitVec 5) : Laws.FieldsRead.Statement (.slt x0 x1 x2) := by
  have h0 := x0.isLt
  have h1 := x1.isLt
  have h2 := x2.isLt
  obtain ⟨hw, m, f21, f16, f11, f6, f0⟩ := @encR_fields 1 x0.toNat x1.toNat x2.toNat 0 9 (by decide) (by omega) (by omega) (by omega) (by decide) (by decide)
  exact fieldsRead_one _ rfl hw (by delta hasWord1; rw [m]; rfl) (by delta decodeRaw; simp only [m]; delta decAlu; simp only [f0]; rw [bv_of f21, bv_of f16, bv_of f11])

theorem Laws.FieldsRead.sltu (x0 : BitVec 5) (x1 : BitVec 5) (x2 : BitVec 5) : Laws.FieldsRead.Statement (.sltu x0 x1 x2) := by
  have h0 := x0.isLt
  have h1 := x1.isLt
  have h2 := x2.isLt
  obtain ⟨hw, m, f21, f16, f11, f6, f0⟩ := @encR_fields 1 x0.toNat x1.toNat x2.toNat 0 10 (by decide) (by omega) (by omega) (by omega) (by decide) (by decide)
  exact fieldsRead_one _ rfl hw (by delta hasWord1; rw [m]; rfl) (by delta decodeRaw; simp only [m]; delta decAlu; simp only [f0]; rw [bv_of f21, bv_of f16, bv_of f11])

theorem Laws.FieldsRead.min (x0 : BitVec 5) (x1 : BitVec 5) (x2 : BitVec 5) : Laws.FieldsRead.Statement (.min x0 x1 x2) := by
  have h0 := x0.isLt
  have h1 := x1.isLt
  have h2 := x2.isLt
  obtain ⟨hw, m, f21, f16, f11, f6, f0⟩ := @encR_fields 1 x0.toNat x1.toNat x2.toNat 0 11 (by decide) (by omega) (by omega) (by omega) (by decide) (by decide)
  exact fieldsRead_one _ rfl hw (by delta hasWord1; rw [m]; rfl) (by delta decodeRaw; simp only [m]; delta decAlu; simp only [f0]; rw [bv_of f21, bv_of f16, bv_of f11])

theorem Laws.FieldsRead.max (x0 : BitVec 5) (x1 : BitVec 5) (x2 : BitVec 5) : Laws.FieldsRead.Statement (.max x0 x1 x2) := by
  have h0 := x0.isLt
  have h1 := x1.isLt
  have h2 := x2.isLt
  obtain ⟨hw, m, f21, f16, f11, f6, f0⟩ := @encR_fields 1 x0.toNat x1.toNat x2.toNat 0 12 (by decide) (by omega) (by omega) (by omega) (by decide) (by decide)
  exact fieldsRead_one _ rfl hw (by delta hasWord1; rw [m]; rfl) (by delta decodeRaw; simp only [m]; delta decAlu; simp only [f0]; rw [bv_of f21, bv_of f16, bv_of f11])

theorem Laws.FieldsRead.minu (x0 : BitVec 5) (x1 : BitVec 5) (x2 : BitVec 5) : Laws.FieldsRead.Statement (.minu x0 x1 x2) := by
  have h0 := x0.isLt
  have h1 := x1.isLt
  have h2 := x2.isLt
  obtain ⟨hw, m, f21, f16, f11, f6, f0⟩ := @encR_fields 1 x0.toNat x1.toNat x2.toNat 0 13 (by decide) (by omega) (by omega) (by omega) (by decide) (by decide)
  exact fieldsRead_one _ rfl hw (by delta hasWord1; rw [m]; rfl) (by delta decodeRaw; simp only [m]; delta decAlu; simp only [f0]; rw [bv_of f21, bv_of f16, bv_of f11])

theorem Laws.FieldsRead.maxu (x0 : BitVec 5) (x1 : BitVec 5) (x2 : BitVec 5) : Laws.FieldsRead.Statement (.maxu x0 x1 x2) := by
  have h0 := x0.isLt
  have h1 := x1.isLt
  have h2 := x2.isLt
  obtain ⟨hw, m, f21, f16, f11, f6, f0⟩ := @encR_fields 1 x0.toNat x1.toNat x2.toNat 0 14 (by decide) (by omega) (by omega) (by omega) (by decide) (by decide)
  exact fieldsRead_one _ rfl hw (by delta hasWord1; rw [m]; rfl) (by delta decodeRaw; simp only [m]; delta decAlu; simp only [f0]; rw [bv_of f21, bv_of f16, bv_of f11])

theorem Laws.FieldsRead.addw (x0 : BitVec 5) (x1 : BitVec 5) (x2 : BitVec 5) : Laws.FieldsRead.Statement (.addw x0 x1 x2) := by
  have h0 := x0.isLt
  have h1 := x1.isLt
  have h2 := x2.isLt
  obtain ⟨hw, m, f21, f16, f11, f6, f0⟩ := @encR_fields 1 x0.toNat x1.toNat x2.toNat 0 15 (by decide) (by omega) (by omega) (by omega) (by decide) (by decide)
  exact fieldsRead_one _ rfl hw (by delta hasWord1; rw [m]; rfl) (by delta decodeRaw; simp only [m]; delta decAlu; simp only [f0]; rw [bv_of f21, bv_of f16, bv_of f11])

theorem Laws.FieldsRead.subw (x0 : BitVec 5) (x1 : BitVec 5) (x2 : BitVec 5) : Laws.FieldsRead.Statement (.subw x0 x1 x2) := by
  have h0 := x0.isLt
  have h1 := x1.isLt
  have h2 := x2.isLt
  obtain ⟨hw, m, f21, f16, f11, f6, f0⟩ := @encR_fields 1 x0.toNat x1.toNat x2.toNat 0 16 (by decide) (by omega) (by omega) (by omega) (by decide) (by decide)
  exact fieldsRead_one _ rfl hw (by delta hasWord1; rw [m]; rfl) (by delta decodeRaw; simp only [m]; delta decAlu; simp only [f0]; rw [bv_of f21, bv_of f16, bv_of f11])

theorem Laws.FieldsRead.addi (x0 : BitVec 5) (x1 : BitVec 5) (x2 : BitVec 16) : Laws.FieldsRead.Statement (.addi x0 x1 x2) := by
  have h0 := x0.isLt
  have h1 := x1.isLt
  have h2 := x2.isLt
  obtain ⟨hw, m, f21, f16, f0⟩ := @encI_fields 2 x0.toNat x1.toNat x2.toNat (by decide) (by omega) (by omega) (by omega)
  exact fieldsRead_one _ rfl hw (by delta hasWord1; rw [m]; rfl) (by delta decodeRaw; simp only [m]; rw [bv_of f21, bv_of f16, bv_of f0])

theorem Laws.FieldsRead.andi (x0 : BitVec 5) (x1 : BitVec 5) (x2 : BitVec 16) : Laws.FieldsRead.Statement (.andi x0 x1 x2) := by
  have h0 := x0.isLt
  have h1 := x1.isLt
  have h2 := x2.isLt
  obtain ⟨hw, m, f21, f16, f0⟩ := @encI_fields 3 x0.toNat x1.toNat x2.toNat (by decide) (by omega) (by omega) (by omega)
  exact fieldsRead_one _ rfl hw (by delta hasWord1; rw [m]; rfl) (by delta decodeRaw; simp only [m]; rw [bv_of f21, bv_of f16, bv_of f0])

theorem Laws.FieldsRead.ori (x0 : BitVec 5) (x1 : BitVec 5) (x2 : BitVec 16) : Laws.FieldsRead.Statement (.ori x0 x1 x2) := by
  have h0 := x0.isLt
  have h1 := x1.isLt
  have h2 := x2.isLt
  obtain ⟨hw, m, f21, f16, f0⟩ := @encI_fields 4 x0.toNat x1.toNat x2.toNat (by decide) (by omega) (by omega) (by omega)
  exact fieldsRead_one _ rfl hw (by delta hasWord1; rw [m]; rfl) (by delta decodeRaw; simp only [m]; rw [bv_of f21, bv_of f16, bv_of f0])

theorem Laws.FieldsRead.xori (x0 : BitVec 5) (x1 : BitVec 5) (x2 : BitVec 16) : Laws.FieldsRead.Statement (.xori x0 x1 x2) := by
  have h0 := x0.isLt
  have h1 := x1.isLt
  have h2 := x2.isLt
  obtain ⟨hw, m, f21, f16, f0⟩ := @encI_fields 5 x0.toNat x1.toNat x2.toNat (by decide) (by omega) (by omega) (by omega)
  exact fieldsRead_one _ rfl hw (by delta hasWord1; rw [m]; rfl) (by delta decodeRaw; simp only [m]; rw [bv_of f21, bv_of f16, bv_of f0])

theorem Laws.FieldsRead.slti (x0 : BitVec 5) (x1 : BitVec 5) (x2 : BitVec 16) : Laws.FieldsRead.Statement (.slti x0 x1 x2) := by
  have h0 := x0.isLt
  have h1 := x1.isLt
  have h2 := x2.isLt
  obtain ⟨hw, m, f21, f16, f0⟩ := @encI_fields 6 x0.toNat x1.toNat x2.toNat (by decide) (by omega) (by omega) (by omega)
  exact fieldsRead_one _ rfl hw (by delta hasWord1; rw [m]; rfl) (by delta decodeRaw; simp only [m]; rw [bv_of f21, bv_of f16, bv_of f0])

theorem Laws.FieldsRead.sltiu (x0 : BitVec 5) (x1 : BitVec 5) (x2 : BitVec 16) : Laws.FieldsRead.Statement (.sltiu x0 x1 x2) := by
  have h0 := x0.isLt
  have h1 := x1.isLt
  have h2 := x2.isLt
  obtain ⟨hw, m, f21, f16, f0⟩ := @encI_fields 7 x0.toNat x1.toNat x2.toNat (by decide) (by omega) (by omega) (by omega)
  exact fieldsRead_one _ rfl hw (by delta hasWord1; rw [m]; rfl) (by delta decodeRaw; simp only [m]; rw [bv_of f21, bv_of f16, bv_of f0])

theorem Laws.FieldsRead.shli (x0 : BitVec 5) (x1 : BitVec 5) (x2 : BitVec 6) : Laws.FieldsRead.Statement (.shli x0 x1 x2) := by
  have h0 := x0.isLt
  have h1 := x1.isLt
  have h2 := x2.isLt
  obtain ⟨hw, m, f21, f16, f0⟩ := @encI_fields 8 x0.toNat x1.toNat (x2.toNat * 2 ^ 10 + 0) (by decide) (by omega) (by omega) (by omega)
  have fc : fld (encI 8 x0.toNat x1.toNat (x2.toNat * 2 ^ 10 + 0)) 0 2 = 0 := by simp only [fld] at *; omega
  exact fieldsRead_one _ rfl hw (by delta hasWord1; rw [m]; rfl) (by delta decodeRaw; simp only [m]; delta decShifti; simp only [fc]; rw [bv_of f21, bv_of f16, (bv_of (by simp only [fld] at *; omega) : bv 6 (encI 8 x0.toNat x1.toNat (x2.toNat * 2 ^ 10 + 0)) 10 = x2)])

theorem Laws.FieldsRead.shri (x0 : BitVec 5) (x1 : BitVec 5) (x2 : BitVec 6) : Laws.FieldsRead.Statement (.shri x0 x1 x2) := by
  have h0 := x0.isLt
  have h1 := x1.isLt
  have h2 := x2.isLt
  obtain ⟨hw, m, f21, f16, f0⟩ := @encI_fields 8 x0.toNat x1.toNat (x2.toNat * 2 ^ 10 + 1) (by decide) (by omega) (by omega) (by omega)
  have fc : fld (encI 8 x0.toNat x1.toNat (x2.toNat * 2 ^ 10 + 1)) 0 2 = 1 := by simp only [fld] at *; omega
  exact fieldsRead_one _ rfl hw (by delta hasWord1; rw [m]; rfl) (by delta decodeRaw; simp only [m]; delta decShifti; simp only [fc]; rw [bv_of f21, bv_of f16, (bv_of (by simp only [fld] at *; omega) : bv 6 (encI 8 x0.toNat x1.toNat (x2.toNat * 2 ^ 10 + 1)) 10 = x2)])

theorem Laws.FieldsRead.sari (x0 : BitVec 5) (x1 : BitVec 5) (x2 : BitVec 6) : Laws.FieldsRead.Statement (.sari x0 x1 x2) := by
  have h0 := x0.isLt
  have h1 := x1.isLt
  have h2 := x2.isLt
  obtain ⟨hw, m, f21, f16, f0⟩ := @encI_fields 8 x0.toNat x1.toNat (x2.toNat * 2 ^ 10 + 2) (by decide) (by omega) (by omega) (by omega)
  have fc : fld (encI 8 x0.toNat x1.toNat (x2.toNat * 2 ^ 10 + 2)) 0 2 = 2 := by simp only [fld] at *; omega
  exact fieldsRead_one _ rfl hw (by delta hasWord1; rw [m]; rfl) (by delta decodeRaw; simp only [m]; delta decShifti; simp only [fc]; rw [bv_of f21, bv_of f16, (bv_of (by simp only [fld] at *; omega) : bv 6 (encI 8 x0.toNat x1.toNat (x2.toNat * 2 ^ 10 + 2)) 10 = x2)])

theorem Laws.FieldsRead.rotri (x0 : BitVec 5) (x1 : BitVec 5) (x2 : BitVec 6) : Laws.FieldsRead.Statement (.rotri x0 x1 x2) := by
  have h0 := x0.isLt
  have h1 := x1.isLt
  have h2 := x2.isLt
  obtain ⟨hw, m, f21, f16, f0⟩ := @encI_fields 8 x0.toNat x1.toNat (x2.toNat * 2 ^ 10 + 3) (by decide) (by omega) (by omega) (by omega)
  have fc : fld (encI 8 x0.toNat x1.toNat (x2.toNat * 2 ^ 10 + 3)) 0 2 = 3 := by simp only [fld] at *; omega
  exact fieldsRead_one _ rfl hw (by delta hasWord1; rw [m]; rfl) (by delta decodeRaw; simp only [m]; delta decShifti; simp only [fc]; rw [bv_of f21, bv_of f16, (bv_of (by simp only [fld] at *; omega) : bv 6 (encI 8 x0.toNat x1.toNat (x2.toNat * 2 ^ 10 + 3)) 10 = x2)])

theorem Laws.FieldsRead.lih (x0 : BitVec 5) (x1 : BitVec 16) : Laws.FieldsRead.Statement (.lih x0 x1) := by
  have h0 := x0.isLt
  have h1 := x1.isLt
  obtain ⟨hw, m, f21, f16, f0⟩ := @encI_fields 9 x0.toNat 0 x1.toNat (by decide) (by omega) (by decide) (by omega)
  exact fieldsRead_one _ rfl hw (by delta hasWord1; rw [m]; rfl) (by delta decodeRaw; simp only [m]; rw [bv_of f21, bv_of f0])

theorem Laws.FieldsRead.liw (x0 : BitVec 5) (x1 : BitVec 32) : Laws.FieldsRead.Statement (.liw x0 x1) := by
  have h0 := x0.isLt
  have h1 := x1.isLt
  obtain ⟨hw, m, f21, f16, f0⟩ := @encI_fields 10 x0.toNat 0 0 (by decide) (by omega) (by decide) (by decide)
  exact fieldsRead_two _ (x1.toNat) rfl hw (by omega) (by delta hasWord1; rw [m]; rfl) (by delta decodeRaw; simp only [m]; rw [bv_of f21, (bv_of (by omega) : bv 32 (x1.toNat) 0 = x1)])

theorem Laws.FieldsRead.mul (x0 : BitVec 5) (x1 : BitVec 5) (x2 : BitVec 5) : Laws.FieldsRead.Statement (.mul x0 x1 x2) := by
  have h0 := x0.isLt
  have h1 := x1.isLt
  have h2 := x2.isLt
  obtain ⟨hw, m, f21, f16, f11, f6, f0⟩ := @encR_fields 11 x0.toNat x1.toNat x2.toNat 0 0 (by decide) (by omega) (by omega) (by omega) (by decide) (by decide)
  exact fieldsRead_one _ rfl hw (by delta hasWord1; rw [m]; rfl) (by delta decodeRaw; simp only [m]; delta decMuldiv; simp only [f0]; rw [bv_of f21, bv_of f16, bv_of f11])

theorem Laws.FieldsRead.mulh (x0 : BitVec 5) (x1 : BitVec 5) (x2 : BitVec 5) : Laws.FieldsRead.Statement (.mulh x0 x1 x2) := by
  have h0 := x0.isLt
  have h1 := x1.isLt
  have h2 := x2.isLt
  obtain ⟨hw, m, f21, f16, f11, f6, f0⟩ := @encR_fields 11 x0.toNat x1.toNat x2.toNat 0 1 (by decide) (by omega) (by omega) (by omega) (by decide) (by decide)
  exact fieldsRead_one _ rfl hw (by delta hasWord1; rw [m]; rfl) (by delta decodeRaw; simp only [m]; delta decMuldiv; simp only [f0]; rw [bv_of f21, bv_of f16, bv_of f11])

theorem Laws.FieldsRead.mulhu (x0 : BitVec 5) (x1 : BitVec 5) (x2 : BitVec 5) : Laws.FieldsRead.Statement (.mulhu x0 x1 x2) := by
  have h0 := x0.isLt
  have h1 := x1.isLt
  have h2 := x2.isLt
  obtain ⟨hw, m, f21, f16, f11, f6, f0⟩ := @encR_fields 11 x0.toNat x1.toNat x2.toNat 0 2 (by decide) (by omega) (by omega) (by omega) (by decide) (by decide)
  exact fieldsRead_one _ rfl hw (by delta hasWord1; rw [m]; rfl) (by delta decodeRaw; simp only [m]; delta decMuldiv; simp only [f0]; rw [bv_of f21, bv_of f16, bv_of f11])

theorem Laws.FieldsRead.div (x0 : BitVec 5) (x1 : BitVec 5) (x2 : BitVec 5) : Laws.FieldsRead.Statement (.div x0 x1 x2) := by
  have h0 := x0.isLt
  have h1 := x1.isLt
  have h2 := x2.isLt
  obtain ⟨hw, m, f21, f16, f11, f6, f0⟩ := @encR_fields 11 x0.toNat x1.toNat x2.toNat 0 3 (by decide) (by omega) (by omega) (by omega) (by decide) (by decide)
  exact fieldsRead_one _ rfl hw (by delta hasWord1; rw [m]; rfl) (by delta decodeRaw; simp only [m]; delta decMuldiv; simp only [f0]; rw [bv_of f21, bv_of f16, bv_of f11])

theorem Laws.FieldsRead.divu (x0 : BitVec 5) (x1 : BitVec 5) (x2 : BitVec 5) : Laws.FieldsRead.Statement (.divu x0 x1 x2) := by
  have h0 := x0.isLt
  have h1 := x1.isLt
  have h2 := x2.isLt
  obtain ⟨hw, m, f21, f16, f11, f6, f0⟩ := @encR_fields 11 x0.toNat x1.toNat x2.toNat 0 4 (by decide) (by omega) (by omega) (by omega) (by decide) (by decide)
  exact fieldsRead_one _ rfl hw (by delta hasWord1; rw [m]; rfl) (by delta decodeRaw; simp only [m]; delta decMuldiv; simp only [f0]; rw [bv_of f21, bv_of f16, bv_of f11])

theorem Laws.FieldsRead.rem (x0 : BitVec 5) (x1 : BitVec 5) (x2 : BitVec 5) : Laws.FieldsRead.Statement (.rem x0 x1 x2) := by
  have h0 := x0.isLt
  have h1 := x1.isLt
  have h2 := x2.isLt
  obtain ⟨hw, m, f21, f16, f11, f6, f0⟩ := @encR_fields 11 x0.toNat x1.toNat x2.toNat 0 5 (by decide) (by omega) (by omega) (by omega) (by decide) (by decide)
  exact fieldsRead_one _ rfl hw (by delta hasWord1; rw [m]; rfl) (by delta decodeRaw; simp only [m]; delta decMuldiv; simp only [f0]; rw [bv_of f21, bv_of f16, bv_of f11])

theorem Laws.FieldsRead.remu (x0 : BitVec 5) (x1 : BitVec 5) (x2 : BitVec 5) : Laws.FieldsRead.Statement (.remu x0 x1 x2) := by
  have h0 := x0.isLt
  have h1 := x1.isLt
  have h2 := x2.isLt
  obtain ⟨hw, m, f21, f16, f11, f6, f0⟩ := @encR_fields 11 x0.toNat x1.toNat x2.toNat 0 6 (by decide) (by omega) (by omega) (by omega) (by decide) (by decide)
  exact fieldsRead_one _ rfl hw (by delta hasWord1; rw [m]; rfl) (by delta decodeRaw; simp only [m]; delta decMuldiv; simp only [f0]; rw [bv_of f21, bv_of f16, bv_of f11])

theorem Laws.FieldsRead.clz (x0 : BitVec 5) (x1 : BitVec 5) : Laws.FieldsRead.Statement (.clz x0 x1) := by
  have h0 := x0.isLt
  have h1 := x1.isLt
  obtain ⟨hw, m, f21, f16, f11, f6, f0⟩ := @encR_fields 12 x0.toNat x1.toNat 0 0 0 (by decide) (by omega) (by omega) (by decide) (by decide) (by decide)
  exact fieldsRead_one _ rfl hw (by delta hasWord1; rw [m]; rfl) (by delta decodeRaw; simp only [m]; delta decBits; simp only [f0]; rw [bv_of f21, bv_of f16])

theorem Laws.FieldsRead.ctz (x0 : BitVec 5) (x1 : BitVec 5) : Laws.FieldsRead.Statement (.ctz x0 x1) := by
  have h0 := x0.isLt
  have h1 := x1.isLt
  obtain ⟨hw, m, f21, f16, f11, f6, f0⟩ := @encR_fields 12 x0.toNat x1.toNat 0 0 1 (by decide) (by omega) (by omega) (by decide) (by decide) (by decide)
  exact fieldsRead_one _ rfl hw (by delta hasWord1; rw [m]; rfl) (by delta decodeRaw; simp only [m]; delta decBits; simp only [f0]; rw [bv_of f21, bv_of f16])

theorem Laws.FieldsRead.popc (x0 : BitVec 5) (x1 : BitVec 5) : Laws.FieldsRead.Statement (.popc x0 x1) := by
  have h0 := x0.isLt
  have h1 := x1.isLt
  obtain ⟨hw, m, f21, f16, f11, f6, f0⟩ := @encR_fields 12 x0.toNat x1.toNat 0 0 2 (by decide) (by omega) (by omega) (by decide) (by decide) (by decide)
  exact fieldsRead_one _ rfl hw (by delta hasWord1; rw [m]; rfl) (by delta decodeRaw; simp only [m]; delta decBits; simp only [f0]; rw [bv_of f21, bv_of f16])

theorem Laws.FieldsRead.sext (x0 : BitVec 5) (x1 : BitVec 5) (x2 : BitVec 5) : Laws.FieldsRead.Statement (.sext x0 x1 x2) := by
  have h0 := x0.isLt
  have h1 := x1.isLt
  have h2 := x2.isLt
  obtain ⟨hw, m, f21, f16, f11, f6, f0⟩ := @encR_fields 12 x0.toNat x1.toNat 0 x2.toNat 3 (by decide) (by omega) (by omega) (by decide) (by omega) (by decide)
  exact fieldsRead_one _ rfl hw (by delta hasWord1; rw [m]; rfl) (by delta decodeRaw; simp only [m]; delta decBits; simp only [f0]; rw [bv_of f21, bv_of f16, bv_of f6])

theorem Laws.FieldsRead.zext (x0 : BitVec 5) (x1 : BitVec 5) (x2 : BitVec 5) : Laws.FieldsRead.Statement (.zext x0 x1 x2) := by
  have h0 := x0.isLt
  have h1 := x1.isLt
  have h2 := x2.isLt
  obtain ⟨hw, m, f21, f16, f11, f6, f0⟩ := @encR_fields 12 x0.toNat x1.toNat 0 x2.toNat 4 (by decide) (by omega) (by omega) (by decide) (by omega) (by decide)
  exact fieldsRead_one _ rfl hw (by delta hasWord1; rw [m]; rfl) (by delta decodeRaw; simp only [m]; delta decBits; simp only [f0]; rw [bv_of f21, bv_of f16, bv_of f6])

theorem Laws.FieldsRead.bext (x0 : BitVec 5) (x1 : BitVec 5) (x2 : BitVec 5) : Laws.FieldsRead.Statement (.bext x0 x1 x2) := by
  have h0 := x0.isLt
  have h1 := x1.isLt
  have h2 := x2.isLt
  obtain ⟨hw, m, f21, f16, f11, f6, f0⟩ := @encR_fields 12 x0.toNat x1.toNat x2.toNat 0 5 (by decide) (by omega) (by omega) (by omega) (by decide) (by decide)
  exact fieldsRead_one _ rfl hw (by delta hasWord1; rw [m]; rfl) (by delta decodeRaw; simp only [m]; delta decBits; simp only [f0]; rw [bv_of f21, bv_of f16, bv_of f11])

theorem Laws.FieldsRead.bins (x0 : BitVec 5) (x1 : BitVec 5) (x2 : BitVec 5) : Laws.FieldsRead.Statement (.bins x0 x1 x2) := by
  have h0 := x0.isLt
  have h1 := x1.isLt
  have h2 := x2.isLt
  obtain ⟨hw, m, f21, f16, f11, f6, f0⟩ := @encR_fields 12 x0.toNat x1.toNat x2.toNat 0 6 (by decide) (by omega) (by omega) (by omega) (by decide) (by decide)
  exact fieldsRead_one _ rfl hw (by delta hasWord1; rw [m]; rfl) (by delta decodeRaw; simp only [m]; delta decBits; simp only [f0]; rw [bv_of f21, bv_of f16, bv_of f11])

theorem Laws.FieldsRead.fadd (x0 : BitVec 5) (x1 : BitVec 5) (x2 : BitVec 5) (x3 : BitVec 5) : Laws.FieldsRead.Statement (.fadd x0 x1 x2 x3) := by
  have h0 := x0.isLt
  have h1 := x1.isLt
  have h2 := x2.isLt
  have h3 := x3.isLt
  obtain ⟨hw, m, f21, f16, f11, f6, f0⟩ := @encR_fields 13 x0.toNat x1.toNat x2.toNat x3.toNat 0 (by decide) (by omega) (by omega) (by omega) (by omega) (by decide)
  exact fieldsRead_one _ rfl hw (by delta hasWord1; rw [m]; rfl) (by delta decodeRaw; simp only [m]; delta decFp; simp only [f0]; rw [bv_of f21, bv_of f16, bv_of f11, bv_of f6])

theorem Laws.FieldsRead.fsub (x0 : BitVec 5) (x1 : BitVec 5) (x2 : BitVec 5) (x3 : BitVec 5) : Laws.FieldsRead.Statement (.fsub x0 x1 x2 x3) := by
  have h0 := x0.isLt
  have h1 := x1.isLt
  have h2 := x2.isLt
  have h3 := x3.isLt
  obtain ⟨hw, m, f21, f16, f11, f6, f0⟩ := @encR_fields 13 x0.toNat x1.toNat x2.toNat x3.toNat 1 (by decide) (by omega) (by omega) (by omega) (by omega) (by decide)
  exact fieldsRead_one _ rfl hw (by delta hasWord1; rw [m]; rfl) (by delta decodeRaw; simp only [m]; delta decFp; simp only [f0]; rw [bv_of f21, bv_of f16, bv_of f11, bv_of f6])

theorem Laws.FieldsRead.fmul (x0 : BitVec 5) (x1 : BitVec 5) (x2 : BitVec 5) (x3 : BitVec 5) : Laws.FieldsRead.Statement (.fmul x0 x1 x2 x3) := by
  have h0 := x0.isLt
  have h1 := x1.isLt
  have h2 := x2.isLt
  have h3 := x3.isLt
  obtain ⟨hw, m, f21, f16, f11, f6, f0⟩ := @encR_fields 13 x0.toNat x1.toNat x2.toNat x3.toNat 2 (by decide) (by omega) (by omega) (by omega) (by omega) (by decide)
  exact fieldsRead_one _ rfl hw (by delta hasWord1; rw [m]; rfl) (by delta decodeRaw; simp only [m]; delta decFp; simp only [f0]; rw [bv_of f21, bv_of f16, bv_of f11, bv_of f6])

theorem Laws.FieldsRead.fdiv (x0 : BitVec 5) (x1 : BitVec 5) (x2 : BitVec 5) (x3 : BitVec 5) : Laws.FieldsRead.Statement (.fdiv x0 x1 x2 x3) := by
  have h0 := x0.isLt
  have h1 := x1.isLt
  have h2 := x2.isLt
  have h3 := x3.isLt
  obtain ⟨hw, m, f21, f16, f11, f6, f0⟩ := @encR_fields 13 x0.toNat x1.toNat x2.toNat x3.toNat 3 (by decide) (by omega) (by omega) (by omega) (by omega) (by decide)
  exact fieldsRead_one _ rfl hw (by delta hasWord1; rw [m]; rfl) (by delta decodeRaw; simp only [m]; delta decFp; simp only [f0]; rw [bv_of f21, bv_of f16, bv_of f11, bv_of f6])

theorem Laws.FieldsRead.fsqrt (x0 : BitVec 5) (x1 : BitVec 5) (x2 : BitVec 5) : Laws.FieldsRead.Statement (.fsqrt x0 x1 x2) := by
  have h0 := x0.isLt
  have h1 := x1.isLt
  have h2 := x2.isLt
  obtain ⟨hw, m, f21, f16, f11, f6, f0⟩ := @encR_fields 13 x0.toNat x1.toNat 0 x2.toNat 4 (by decide) (by omega) (by omega) (by decide) (by omega) (by decide)
  exact fieldsRead_one _ rfl hw (by delta hasWord1; rw [m]; rfl) (by delta decodeRaw; simp only [m]; delta decFp; simp only [f0]; rw [bv_of f21, bv_of f16, bv_of f6])

theorem Laws.FieldsRead.fmin (x0 : BitVec 5) (x1 : BitVec 5) (x2 : BitVec 5) : Laws.FieldsRead.Statement (.fmin x0 x1 x2) := by
  have h0 := x0.isLt
  have h1 := x1.isLt
  have h2 := x2.isLt
  obtain ⟨hw, m, f21, f16, f11, f6, f0⟩ := @encR_fields 13 x0.toNat x1.toNat x2.toNat 0 5 (by decide) (by omega) (by omega) (by omega) (by decide) (by decide)
  exact fieldsRead_one _ rfl hw (by delta hasWord1; rw [m]; rfl) (by delta decodeRaw; simp only [m]; delta decFp; simp only [f0]; rw [bv_of f21, bv_of f16, bv_of f11])

theorem Laws.FieldsRead.fmax (x0 : BitVec 5) (x1 : BitVec 5) (x2 : BitVec 5) : Laws.FieldsRead.Statement (.fmax x0 x1 x2) := by
  have h0 := x0.isLt
  have h1 := x1.isLt
  have h2 := x2.isLt
  obtain ⟨hw, m, f21, f16, f11, f6, f0⟩ := @encR_fields 13 x0.toNat x1.toNat x2.toNat 0 6 (by decide) (by omega) (by omega) (by omega) (by decide) (by decide)
  exact fieldsRead_one _ rfl hw (by delta hasWord1; rw [m]; rfl) (by delta decodeRaw; simp only [m]; delta decFp; simp only [f0]; rw [bv_of f21, bv_of f16, bv_of f11])

theorem Laws.FieldsRead.feq (x0 : BitVec 5) (x1 : BitVec 5) (x2 : BitVec 5) : Laws.FieldsRead.Statement (.feq x0 x1 x2) := by
  have h0 := x0.isLt
  have h1 := x1.isLt
  have h2 := x2.isLt
  obtain ⟨hw, m, f21, f16, f11, f6, f0⟩ := @encR_fields 13 x0.toNat x1.toNat x2.toNat 0 7 (by decide) (by omega) (by omega) (by omega) (by decide) (by decide)
  exact fieldsRead_one _ rfl hw (by delta hasWord1; rw [m]; rfl) (by delta decodeRaw; simp only [m]; delta decFp; simp only [f0]; rw [bv_of f21, bv_of f16, bv_of f11])

theorem Laws.FieldsRead.flt (x0 : BitVec 5) (x1 : BitVec 5) (x2 : BitVec 5) : Laws.FieldsRead.Statement (.flt x0 x1 x2) := by
  have h0 := x0.isLt
  have h1 := x1.isLt
  have h2 := x2.isLt
  obtain ⟨hw, m, f21, f16, f11, f6, f0⟩ := @encR_fields 13 x0.toNat x1.toNat x2.toNat 0 8 (by decide) (by omega) (by omega) (by omega) (by decide) (by decide)
  exact fieldsRead_one _ rfl hw (by delta hasWord1; rw [m]; rfl) (by delta decodeRaw; simp only [m]; delta decFp; simp only [f0]; rw [bv_of f21, bv_of f16, bv_of f11])

theorem Laws.FieldsRead.fle (x0 : BitVec 5) (x1 : BitVec 5) (x2 : BitVec 5) : Laws.FieldsRead.Statement (.fle x0 x1 x2) := by
  have h0 := x0.isLt
  have h1 := x1.isLt
  have h2 := x2.isLt
  obtain ⟨hw, m, f21, f16, f11, f6, f0⟩ := @encR_fields 13 x0.toNat x1.toNat x2.toNat 0 9 (by decide) (by omega) (by omega) (by omega) (by decide) (by decide)
  exact fieldsRead_one _ rfl hw (by delta hasWord1; rw [m]; rfl) (by delta decodeRaw; simp only [m]; delta decFp; simp only [f0]; rw [bv_of f21, bv_of f16, bv_of f11])

theorem Laws.FieldsRead.fcvtif (x0 : BitVec 5) (x1 : BitVec 5) (x2 : BitVec 5) : Laws.FieldsRead.Statement (.fcvtif x0 x1 x2) := by
  have h0 := x0.isLt
  have h1 := x1.isLt
  have h2 := x2.isLt
  obtain ⟨hw, m, f21, f16, f11, f6, f0⟩ := @encR_fields 13 x0.toNat x1.toNat 0 x2.toNat 10 (by decide) (by omega) (by omega) (by decide) (by omega) (by decide)
  exact fieldsRead_one _ rfl hw (by delta hasWord1; rw [m]; rfl) (by delta decodeRaw; simp only [m]; delta decFp; simp only [f0]; rw [bv_of f21, bv_of f16, bv_of f6])

theorem Laws.FieldsRead.fcvtfi (x0 : BitVec 5) (x1 : BitVec 5) (x2 : BitVec 5) : Laws.FieldsRead.Statement (.fcvtfi x0 x1 x2) := by
  have h0 := x0.isLt
  have h1 := x1.isLt
  have h2 := x2.isLt
  obtain ⟨hw, m, f21, f16, f11, f6, f0⟩ := @encR_fields 13 x0.toNat x1.toNat 0 x2.toNat 11 (by decide) (by omega) (by omega) (by decide) (by omega) (by decide)
  exact fieldsRead_one _ rfl hw (by delta hasWord1; rw [m]; rfl) (by delta decodeRaw; simp only [m]; delta decFp; simp only [f0]; rw [bv_of f21, bv_of f16, bv_of f6])

theorem Laws.FieldsRead.fclass (x0 : BitVec 5) (x1 : BitVec 5) : Laws.FieldsRead.Statement (.fclass x0 x1) := by
  have h0 := x0.isLt
  have h1 := x1.isLt
  obtain ⟨hw, m, f21, f16, f11, f6, f0⟩ := @encR_fields 13 x0.toNat x1.toNat 0 0 12 (by decide) (by omega) (by omega) (by decide) (by decide) (by decide)
  exact fieldsRead_one _ rfl hw (by delta hasWord1; rw [m]; rfl) (by delta decodeRaw; simp only [m]; delta decFp; simp only [f0]; rw [bv_of f21, bv_of f16])

theorem Laws.FieldsRead.ffma (x0 : BitVec 5) (x1 : BitVec 5) (x2 : BitVec 5) (x3 : BitVec 5) (x4 : BitVec 3) : Laws.FieldsRead.Statement (.ffma x0 x1 x2 x3 x4) := by
  have h0 := x0.isLt
  have h1 := x1.isLt
  have h2 := x2.isLt
  have h3 := x3.isLt
  have h4 := x4.isLt
  obtain ⟨hw, m, f21, f16, f11, f6, f0⟩ := @encR_fields 14 x0.toNat x1.toNat x2.toNat x3.toNat x4.toNat (by decide) (by omega) (by omega) (by omega) (by omega) (by omega)
  exact fieldsRead_one _ rfl hw (by delta hasWord1; rw [m]; rfl) (by delta decodeRaw; simp only [m]; rw [bv_of f21, bv_of f16, bv_of f11, bv_of f6, (bv_of (by simp only [fld] at *; omega) : bv 3 (encR 14 x0.toNat x1.toNat x2.toNat x3.toNat x4.toNat) 0 = x4)])

theorem Laws.FieldsRead.beq (x0 : BitVec 5) (x1 : BitVec 5) (x2 : BitVec 16) : Laws.FieldsRead.Statement (.beq x0 x1 x2) := by
  have h0 := x0.isLt
  have h1 := x1.isLt
  have h2 := x2.isLt
  obtain ⟨hw, m, f21, f16, f0⟩ := @encI_fields 16 x0.toNat x1.toNat x2.toNat (by decide) (by omega) (by omega) (by omega)
  exact fieldsRead_one _ rfl hw (by delta hasWord1; rw [m]; rfl) (by delta decodeRaw; simp only [m]; rw [bv_of f21, bv_of f16, bv_of f0])

theorem Laws.FieldsRead.bne (x0 : BitVec 5) (x1 : BitVec 5) (x2 : BitVec 16) : Laws.FieldsRead.Statement (.bne x0 x1 x2) := by
  have h0 := x0.isLt
  have h1 := x1.isLt
  have h2 := x2.isLt
  obtain ⟨hw, m, f21, f16, f0⟩ := @encI_fields 17 x0.toNat x1.toNat x2.toNat (by decide) (by omega) (by omega) (by omega)
  exact fieldsRead_one _ rfl hw (by delta hasWord1; rw [m]; rfl) (by delta decodeRaw; simp only [m]; rw [bv_of f21, bv_of f16, bv_of f0])

theorem Laws.FieldsRead.blt (x0 : BitVec 5) (x1 : BitVec 5) (x2 : BitVec 16) : Laws.FieldsRead.Statement (.blt x0 x1 x2) := by
  have h0 := x0.isLt
  have h1 := x1.isLt
  have h2 := x2.isLt
  obtain ⟨hw, m, f21, f16, f0⟩ := @encI_fields 18 x0.toNat x1.toNat x2.toNat (by decide) (by omega) (by omega) (by omega)
  exact fieldsRead_one _ rfl hw (by delta hasWord1; rw [m]; rfl) (by delta decodeRaw; simp only [m]; rw [bv_of f21, bv_of f16, bv_of f0])

theorem Laws.FieldsRead.bge (x0 : BitVec 5) (x1 : BitVec 5) (x2 : BitVec 16) : Laws.FieldsRead.Statement (.bge x0 x1 x2) := by
  have h0 := x0.isLt
  have h1 := x1.isLt
  have h2 := x2.isLt
  obtain ⟨hw, m, f21, f16, f0⟩ := @encI_fields 19 x0.toNat x1.toNat x2.toNat (by decide) (by omega) (by omega) (by omega)
  exact fieldsRead_one _ rfl hw (by delta hasWord1; rw [m]; rfl) (by delta decodeRaw; simp only [m]; rw [bv_of f21, bv_of f16, bv_of f0])

theorem Laws.FieldsRead.bltu (x0 : BitVec 5) (x1 : BitVec 5) (x2 : BitVec 16) : Laws.FieldsRead.Statement (.bltu x0 x1 x2) := by
  have h0 := x0.isLt
  have h1 := x1.isLt
  have h2 := x2.isLt
  obtain ⟨hw, m, f21, f16, f0⟩ := @encI_fields 20 x0.toNat x1.toNat x2.toNat (by decide) (by omega) (by omega) (by omega)
  exact fieldsRead_one _ rfl hw (by delta hasWord1; rw [m]; rfl) (by delta decodeRaw; simp only [m]; rw [bv_of f21, bv_of f16, bv_of f0])

theorem Laws.FieldsRead.bgeu (x0 : BitVec 5) (x1 : BitVec 5) (x2 : BitVec 16) : Laws.FieldsRead.Statement (.bgeu x0 x1 x2) := by
  have h0 := x0.isLt
  have h1 := x1.isLt
  have h2 := x2.isLt
  obtain ⟨hw, m, f21, f16, f0⟩ := @encI_fields 21 x0.toNat x1.toNat x2.toNat (by decide) (by omega) (by omega) (by omega)
  exact fieldsRead_one _ rfl hw (by delta hasWord1; rw [m]; rfl) (by delta decodeRaw; simp only [m]; rw [bv_of f21, bv_of f16, bv_of f0])

theorem Laws.FieldsRead.jmp (x0 : BitVec 26) : Laws.FieldsRead.Statement (.jmp x0) := by
  have h0 := x0.isLt
  obtain ⟨hw, m, f0⟩ := @encJ_fields 22 x0.toNat (by decide) (by omega)
  exact fieldsRead_one _ rfl hw (by delta hasWord1; rw [m]; rfl) (by delta decodeRaw; simp only [m]; rw [bv_of f0])

theorem Laws.FieldsRead.jal (x0 : BitVec 26) : Laws.FieldsRead.Statement (.jal x0) := by
  have h0 := x0.isLt
  obtain ⟨hw, m, f0⟩ := @encJ_fields 23 x0.toNat (by decide) (by omega)
  exact fieldsRead_one _ rfl hw (by delta hasWord1; rw [m]; rfl) (by delta decodeRaw; simp only [m]; rw [bv_of f0])

theorem Laws.FieldsRead.jr (x0 : BitVec 5) : Laws.FieldsRead.Statement (.jr x0) := by
  have h0 := x0.isLt
  obtain ⟨hw, m, f21, f16, f11, f6, f0⟩ := @encR_fields 24 0 x0.toNat 0 0 0 (by decide) (by decide) (by omega) (by decide) (by decide) (by decide)
  exact fieldsRead_one _ rfl hw (by delta hasWord1; rw [m]; rfl) (by delta decodeRaw; simp only [m]; delta decJreg; simp only [f0]; rw [bv_of f16])

theorem Laws.FieldsRead.jalr (x0 : BitVec 5) (x1 : BitVec 5) : Laws.FieldsRead.Statement (.jalr x0 x1) := by
  have h0 := x0.isLt
  have h1 := x1.isLt
  obtain ⟨hw, m, f21, f16, f11, f6, f0⟩ := @encR_fields 24 x0.toNat x1.toNat 0 0 1 (by decide) (by omega) (by omega) (by decide) (by decide) (by decide)
  exact fieldsRead_one _ rfl hw (by delta hasWord1; rw [m]; rfl) (by delta decodeRaw; simp only [m]; delta decJreg; simp only [f0]; rw [bv_of f21, bv_of f16])

theorem Laws.FieldsRead.ld (x0 : BitVec 5) (x1 : BitVec 5) (x2 : BitVec 10) (x3 : BitVec 2) (x4 : BitVec 2) (x5 : BitVec 2) : Laws.FieldsRead.Statement (.ld x0 x1 x2 x3 x4 x5) := by
  have h0 := x0.isLt
  have h1 := x1.isLt
  have h2 := x2.isLt
  have h3 := x3.isLt
  have h4 := x4.isLt
  have h5 := x5.isLt
  obtain ⟨hw, m, f21, f16, f6, f4, f2, f0⟩ := @encM_fields 26 x0.toNat x1.toNat x2.toNat x3.toNat x4.toNat x5.toNat (by decide) (by omega) (by omega) (by omega) (by omega) (by omega) (by omega)
  exact fieldsRead_one _ rfl hw (by delta hasWord1; rw [m]; rfl) (by delta decodeRaw; simp only [m]; rw [bv_of f21, bv_of f16, bv_of f6, bv_of f4, bv_of f2, bv_of f0])

theorem Laws.FieldsRead.lds (x0 : BitVec 5) (x1 : BitVec 5) (x2 : BitVec 10) (x3 : BitVec 2) (x4 : BitVec 2) (x5 : BitVec 2) : Laws.FieldsRead.Statement (.lds x0 x1 x2 x3 x4 x5) := by
  have h0 := x0.isLt
  have h1 := x1.isLt
  have h2 := x2.isLt
  have h3 := x3.isLt
  have h4 := x4.isLt
  have h5 := x5.isLt
  obtain ⟨hw, m, f21, f16, f6, f4, f2, f0⟩ := @encM_fields 27 x0.toNat x1.toNat x2.toNat x3.toNat x4.toNat x5.toNat (by decide) (by omega) (by omega) (by omega) (by omega) (by omega) (by omega)
  exact fieldsRead_one _ rfl hw (by delta hasWord1; rw [m]; rfl) (by delta decodeRaw; simp only [m]; rw [bv_of f21, bv_of f16, bv_of f6, bv_of f4, bv_of f2, bv_of f0])

theorem Laws.FieldsRead.st (x0 : BitVec 5) (x1 : BitVec 5) (x2 : BitVec 10) (x3 : BitVec 2) (x4 : BitVec 2) (x5 : BitVec 2) : Laws.FieldsRead.Statement (.st x0 x1 x2 x3 x4 x5) := by
  have h0 := x0.isLt
  have h1 := x1.isLt
  have h2 := x2.isLt
  have h3 := x3.isLt
  have h4 := x4.isLt
  have h5 := x5.isLt
  obtain ⟨hw, m, f21, f16, f6, f4, f2, f0⟩ := @encM_fields 28 x0.toNat x1.toNat x2.toNat x3.toNat x4.toNat x5.toNat (by decide) (by omega) (by omega) (by omega) (by omega) (by omega) (by omega)
  exact fieldsRead_one _ rfl hw (by delta hasWord1; rw [m]; rfl) (by delta decodeRaw; simp only [m]; rw [bv_of f21, bv_of f16, bv_of f6, bv_of f4, bv_of f2, bv_of f0])

theorem Laws.FieldsRead.amoadd (x0 : BitVec 5) (x1 : BitVec 5) (x2 : BitVec 5) (x3 : BitVec 2) (x4 : BitVec 2) (x5 : BitVec 2) : Laws.FieldsRead.Statement (.amoadd x0 x1 x2 x3 x4 x5) := by
  have h0 := x0.isLt
  have h1 := x1.isLt
  have h2 := x2.isLt
  have h3 := x3.isLt
  have h4 := x4.isLt
  have h5 := x5.isLt
  obtain ⟨hw, m, f21, f16, f11, f7, f5, f3, f1⟩ := @encA_fields x0.toNat x1.toNat x2.toNat 0 x3.toNat x4.toNat x5.toNat (by omega) (by omega) (by omega) (by decide) (by omega) (by omega) (by omega)
  exact fieldsRead_one _ rfl hw (by delta hasWord1; rw [m]; rfl) (by delta decodeRaw; simp only [m]; delta decAmo; simp only [f7]; rw [bv_of f21, bv_of f16, bv_of f11, bv_of f5, bv_of f3, bv_of f1])

theorem Laws.FieldsRead.amoswp (x0 : BitVec 5) (x1 : BitVec 5) (x2 : BitVec 5) (x3 : BitVec 2) (x4 : BitVec 2) (x5 : BitVec 2) : Laws.FieldsRead.Statement (.amoswp x0 x1 x2 x3 x4 x5) := by
  have h0 := x0.isLt
  have h1 := x1.isLt
  have h2 := x2.isLt
  have h3 := x3.isLt
  have h4 := x4.isLt
  have h5 := x5.isLt
  obtain ⟨hw, m, f21, f16, f11, f7, f5, f3, f1⟩ := @encA_fields x0.toNat x1.toNat x2.toNat 1 x3.toNat x4.toNat x5.toNat (by omega) (by omega) (by omega) (by decide) (by omega) (by omega) (by omega)
  exact fieldsRead_one _ rfl hw (by delta hasWord1; rw [m]; rfl) (by delta decodeRaw; simp only [m]; delta decAmo; simp only [f7]; rw [bv_of f21, bv_of f16, bv_of f11, bv_of f5, bv_of f3, bv_of f1])

theorem Laws.FieldsRead.amoand (x0 : BitVec 5) (x1 : BitVec 5) (x2 : BitVec 5) (x3 : BitVec 2) (x4 : BitVec 2) (x5 : BitVec 2) : Laws.FieldsRead.Statement (.amoand x0 x1 x2 x3 x4 x5) := by
  have h0 := x0.isLt
  have h1 := x1.isLt
  have h2 := x2.isLt
  have h3 := x3.isLt
  have h4 := x4.isLt
  have h5 := x5.isLt
  obtain ⟨hw, m, f21, f16, f11, f7, f5, f3, f1⟩ := @encA_fields x0.toNat x1.toNat x2.toNat 2 x3.toNat x4.toNat x5.toNat (by omega) (by omega) (by omega) (by decide) (by omega) (by omega) (by omega)
  exact fieldsRead_one _ rfl hw (by delta hasWord1; rw [m]; rfl) (by delta decodeRaw; simp only [m]; delta decAmo; simp only [f7]; rw [bv_of f21, bv_of f16, bv_of f11, bv_of f5, bv_of f3, bv_of f1])

theorem Laws.FieldsRead.amoor (x0 : BitVec 5) (x1 : BitVec 5) (x2 : BitVec 5) (x3 : BitVec 2) (x4 : BitVec 2) (x5 : BitVec 2) : Laws.FieldsRead.Statement (.amoor x0 x1 x2 x3 x4 x5) := by
  have h0 := x0.isLt
  have h1 := x1.isLt
  have h2 := x2.isLt
  have h3 := x3.isLt
  have h4 := x4.isLt
  have h5 := x5.isLt
  obtain ⟨hw, m, f21, f16, f11, f7, f5, f3, f1⟩ := @encA_fields x0.toNat x1.toNat x2.toNat 3 x3.toNat x4.toNat x5.toNat (by omega) (by omega) (by omega) (by decide) (by omega) (by omega) (by omega)
  exact fieldsRead_one _ rfl hw (by delta hasWord1; rw [m]; rfl) (by delta decodeRaw; simp only [m]; delta decAmo; simp only [f7]; rw [bv_of f21, bv_of f16, bv_of f11, bv_of f5, bv_of f3, bv_of f1])

theorem Laws.FieldsRead.amoxor (x0 : BitVec 5) (x1 : BitVec 5) (x2 : BitVec 5) (x3 : BitVec 2) (x4 : BitVec 2) (x5 : BitVec 2) : Laws.FieldsRead.Statement (.amoxor x0 x1 x2 x3 x4 x5) := by
  have h0 := x0.isLt
  have h1 := x1.isLt
  have h2 := x2.isLt
  have h3 := x3.isLt
  have h4 := x4.isLt
  have h5 := x5.isLt
  obtain ⟨hw, m, f21, f16, f11, f7, f5, f3, f1⟩ := @encA_fields x0.toNat x1.toNat x2.toNat 4 x3.toNat x4.toNat x5.toNat (by omega) (by omega) (by omega) (by decide) (by omega) (by omega) (by omega)
  exact fieldsRead_one _ rfl hw (by delta hasWord1; rw [m]; rfl) (by delta decodeRaw; simp only [m]; delta decAmo; simp only [f7]; rw [bv_of f21, bv_of f16, bv_of f11, bv_of f5, bv_of f3, bv_of f1])

theorem Laws.FieldsRead.amomin (x0 : BitVec 5) (x1 : BitVec 5) (x2 : BitVec 5) (x3 : BitVec 2) (x4 : BitVec 2) (x5 : BitVec 2) : Laws.FieldsRead.Statement (.amomin x0 x1 x2 x3 x4 x5) := by
  have h0 := x0.isLt
  have h1 := x1.isLt
  have h2 := x2.isLt
  have h3 := x3.isLt
  have h4 := x4.isLt
  have h5 := x5.isLt
  obtain ⟨hw, m, f21, f16, f11, f7, f5, f3, f1⟩ := @encA_fields x0.toNat x1.toNat x2.toNat 5 x3.toNat x4.toNat x5.toNat (by omega) (by omega) (by omega) (by decide) (by omega) (by omega) (by omega)
  exact fieldsRead_one _ rfl hw (by delta hasWord1; rw [m]; rfl) (by delta decodeRaw; simp only [m]; delta decAmo; simp only [f7]; rw [bv_of f21, bv_of f16, bv_of f11, bv_of f5, bv_of f3, bv_of f1])

theorem Laws.FieldsRead.amomax (x0 : BitVec 5) (x1 : BitVec 5) (x2 : BitVec 5) (x3 : BitVec 2) (x4 : BitVec 2) (x5 : BitVec 2) : Laws.FieldsRead.Statement (.amomax x0 x1 x2 x3 x4 x5) := by
  have h0 := x0.isLt
  have h1 := x1.isLt
  have h2 := x2.isLt
  have h3 := x3.isLt
  have h4 := x4.isLt
  have h5 := x5.isLt
  obtain ⟨hw, m, f21, f16, f11, f7, f5, f3, f1⟩ := @encA_fields x0.toNat x1.toNat x2.toNat 6 x3.toNat x4.toNat x5.toNat (by omega) (by omega) (by omega) (by decide) (by omega) (by omega) (by omega)
  exact fieldsRead_one _ rfl hw (by delta hasWord1; rw [m]; rfl) (by delta decodeRaw; simp only [m]; delta decAmo; simp only [f7]; rw [bv_of f21, bv_of f16, bv_of f11, bv_of f5, bv_of f3, bv_of f1])

theorem Laws.FieldsRead.amominu (x0 : BitVec 5) (x1 : BitVec 5) (x2 : BitVec 5) (x3 : BitVec 2) (x4 : BitVec 2) (x5 : BitVec 2) : Laws.FieldsRead.Statement (.amominu x0 x1 x2 x3 x4 x5) := by
  have h0 := x0.isLt
  have h1 := x1.isLt
  have h2 := x2.isLt
  have h3 := x3.isLt
  have h4 := x4.isLt
  have h5 := x5.isLt
  obtain ⟨hw, m, f21, f16, f11, f7, f5, f3, f1⟩ := @encA_fields x0.toNat x1.toNat x2.toNat 7 x3.toNat x4.toNat x5.toNat (by omega) (by omega) (by omega) (by decide) (by omega) (by omega) (by omega)
  exact fieldsRead_one _ rfl hw (by delta hasWord1; rw [m]; rfl) (by delta decodeRaw; simp only [m]; delta decAmo; simp only [f7]; rw [bv_of f21, bv_of f16, bv_of f11, bv_of f5, bv_of f3, bv_of f1])

theorem Laws.FieldsRead.amomaxu (x0 : BitVec 5) (x1 : BitVec 5) (x2 : BitVec 5) (x3 : BitVec 2) (x4 : BitVec 2) (x5 : BitVec 2) : Laws.FieldsRead.Statement (.amomaxu x0 x1 x2 x3 x4 x5) := by
  have h0 := x0.isLt
  have h1 := x1.isLt
  have h2 := x2.isLt
  have h3 := x3.isLt
  have h4 := x4.isLt
  have h5 := x5.isLt
  obtain ⟨hw, m, f21, f16, f11, f7, f5, f3, f1⟩ := @encA_fields x0.toNat x1.toNat x2.toNat 8 x3.toNat x4.toNat x5.toNat (by omega) (by omega) (by omega) (by decide) (by omega) (by omega) (by omega)
  exact fieldsRead_one _ rfl hw (by delta hasWord1; rw [m]; rfl) (by delta decodeRaw; simp only [m]; delta decAmo; simp only [f7]; rw [bv_of f21, bv_of f16, bv_of f11, bv_of f5, bv_of f3, bv_of f1])

theorem Laws.FieldsRead.amofadd (x0 : BitVec 5) (x1 : BitVec 5) (x2 : BitVec 5) (x3 : BitVec 2) (x4 : BitVec 2) (x5 : BitVec 2) : Laws.FieldsRead.Statement (.amofadd x0 x1 x2 x3 x4 x5) := by
  have h0 := x0.isLt
  have h1 := x1.isLt
  have h2 := x2.isLt
  have h3 := x3.isLt
  have h4 := x4.isLt
  have h5 := x5.isLt
  obtain ⟨hw, m, f21, f16, f11, f7, f5, f3, f1⟩ := @encA_fields x0.toNat x1.toNat x2.toNat 9 x3.toNat x4.toNat x5.toNat (by omega) (by omega) (by omega) (by decide) (by omega) (by omega) (by omega)
  exact fieldsRead_one _ rfl hw (by delta hasWord1; rw [m]; rfl) (by delta decodeRaw; simp only [m]; delta decAmo; simp only [f7]; rw [bv_of f21, bv_of f16, bv_of f11, bv_of f5, bv_of f3, bv_of f1])

theorem Laws.FieldsRead.amofmin (x0 : BitVec 5) (x1 : BitVec 5) (x2 : BitVec 5) (x3 : BitVec 2) (x4 : BitVec 2) (x5 : BitVec 2) : Laws.FieldsRead.Statement (.amofmin x0 x1 x2 x3 x4 x5) := by
  have h0 := x0.isLt
  have h1 := x1.isLt
  have h2 := x2.isLt
  have h3 := x3.isLt
  have h4 := x4.isLt
  have h5 := x5.isLt
  obtain ⟨hw, m, f21, f16, f11, f7, f5, f3, f1⟩ := @encA_fields x0.toNat x1.toNat x2.toNat 10 x3.toNat x4.toNat x5.toNat (by omega) (by omega) (by omega) (by decide) (by omega) (by omega) (by omega)
  exact fieldsRead_one _ rfl hw (by delta hasWord1; rw [m]; rfl) (by delta decodeRaw; simp only [m]; delta decAmo; simp only [f7]; rw [bv_of f21, bv_of f16, bv_of f11, bv_of f5, bv_of f3, bv_of f1])

theorem Laws.FieldsRead.amofmax (x0 : BitVec 5) (x1 : BitVec 5) (x2 : BitVec 5) (x3 : BitVec 2) (x4 : BitVec 2) (x5 : BitVec 2) : Laws.FieldsRead.Statement (.amofmax x0 x1 x2 x3 x4 x5) := by
  have h0 := x0.isLt
  have h1 := x1.isLt
  have h2 := x2.isLt
  have h3 := x3.isLt
  have h4 := x4.isLt
  have h5 := x5.isLt
  obtain ⟨hw, m, f21, f16, f11, f7, f5, f3, f1⟩ := @encA_fields x0.toNat x1.toNat x2.toNat 11 x3.toNat x4.toNat x5.toNat (by omega) (by omega) (by omega) (by decide) (by omega) (by omega) (by omega)
  exact fieldsRead_one _ rfl hw (by delta hasWord1; rw [m]; rfl) (by delta decodeRaw; simp only [m]; delta decAmo; simp only [f7]; rw [bv_of f21, bv_of f16, bv_of f11, bv_of f5, bv_of f3, bv_of f1])

theorem Laws.FieldsRead.amocas (x0 : BitVec 5) (x1 : BitVec 5) (x2 : BitVec 5) (x3 : BitVec 2) (x4 : BitVec 2) (x5 : BitVec 2) : Laws.FieldsRead.Statement (.amocas x0 x1 x2 x3 x4 x5) := by
  have h0 := x0.isLt
  have h1 := x1.isLt
  have h2 := x2.isLt
  have h3 := x3.isLt
  have h4 := x4.isLt
  have h5 := x5.isLt
  obtain ⟨hw, m, f21, f16, f11, f7, f5, f3, f1⟩ := @encA_fields x0.toNat x1.toNat x2.toNat 12 x3.toNat x4.toNat x5.toNat (by omega) (by omega) (by omega) (by decide) (by omega) (by omega) (by omega)
  exact fieldsRead_one _ rfl hw (by delta hasWord1; rw [m]; rfl) (by delta decodeRaw; simp only [m]; delta decAmo; simp only [f7]; rw [bv_of f21, bv_of f16, bv_of f11, bv_of f5, bv_of f3, bv_of f1])

theorem Laws.FieldsRead.fence (x0 : BitVec 1) (x1 : BitVec 2) : Laws.FieldsRead.Statement (.fence x0 x1) := by
  have h0 := x0.isLt
  have h1 := x1.isLt
  obtain ⟨hw, m, f21, f16, f11, f6, f0⟩ := @encR_fields 30 0 0 0 (x0.toNat * 4 + x1.toNat) 0 (by decide) (by decide) (by decide) (by decide) (by omega) (by decide)
  exact fieldsRead_one _ rfl hw (by delta hasWord1; rw [m]; rfl) (by delta decodeRaw; simp only [m]; delta decMemctl; simp only [f0]; rw [(bv_of (by simp only [fld] at *; omega) : bv 1 (encR 30 0 0 0 (x0.toNat * 4 + x1.toNat) 0) 8 = x0), (bv_of (by simp only [fld] at *; omega) : bv 2 (encR 30 0 0 0 (x0.toNat * 4 + x1.toNat) 0) 6 = x1)])

theorem Laws.FieldsRead.flush (x0 : BitVec 5) : Laws.FieldsRead.Statement (.flush x0) := by
  have h0 := x0.isLt
  obtain ⟨hw, m, f21, f16, f11, f6, f0⟩ := @encR_fields 30 0 x0.toNat 0 0 1 (by decide) (by decide) (by omega) (by decide) (by decide) (by decide)
  exact fieldsRead_one _ rfl hw (by delta hasWord1; rw [m]; rfl) (by delta decodeRaw; simp only [m]; delta decMemctl; simp only [f0]; rw [bv_of f16])

theorem Laws.FieldsRead.inval (x0 : BitVec 5) : Laws.FieldsRead.Statement (.inval x0) := by
  have h0 := x0.isLt
  obtain ⟨hw, m, f21, f16, f11, f6, f0⟩ := @encR_fields 30 0 x0.toNat 0 0 2 (by decide) (by decide) (by omega) (by decide) (by decide) (by decide)
  exact fieldsRead_one _ rfl hw (by delta hasWord1; rw [m]; rfl) (by delta decodeRaw; simp only [m]; delta decMemctl; simp only [f0]; rw [bv_of f16])

theorem Laws.FieldsRead.pref (x0 : BitVec 5) (x1 : BitVec 1) : Laws.FieldsRead.Statement (.pref x0 x1) := by
  have h0 := x0.isLt
  have h1 := x1.isLt
  obtain ⟨hw, m, f21, f16, f11, f6, f0⟩ := @encR_fields 30 0 x0.toNat 0 x1.toNat 3 (by decide) (by decide) (by omega) (by decide) (by omega) (by decide)
  exact fieldsRead_one _ rfl hw (by delta hasWord1; rw [m]; rfl) (by delta decodeRaw; simp only [m]; delta decMemctl; simp only [f0]; rw [bv_of f16, (bv_of (by simp only [fld] at *; omega) : bv 1 (encR 30 0 x0.toNat 0 x1.toNat 3) 6 = x1)])

theorem Laws.FieldsRead.pin (x0 : BitVec 5) (x1 : BitVec 5) (x2 : BitVec 5) : Laws.FieldsRead.Statement (.pin x0 x1 x2) := by
  have h0 := x0.isLt
  have h1 := x1.isLt
  have h2 := x2.isLt
  obtain ⟨hw, m, f21, f16, f11, f6, f0⟩ := @encR_fields 30 x0.toNat x1.toNat x2.toNat 0 4 (by decide) (by omega) (by omega) (by omega) (by decide) (by decide)
  exact fieldsRead_one _ rfl hw (by delta hasWord1; rw [m]; rfl) (by delta decodeRaw; simp only [m]; delta decMemctl; simp only [f0]; rw [bv_of f21, bv_of f16, bv_of f11])

theorem Laws.FieldsRead.unpin (x0 : BitVec 5) (x1 : BitVec 5) (x2 : BitVec 5) : Laws.FieldsRead.Statement (.unpin x0 x1 x2) := by
  have h0 := x0.isLt
  have h1 := x1.isLt
  have h2 := x2.isLt
  obtain ⟨hw, m, f21, f16, f11, f6, f0⟩ := @encR_fields 30 x0.toNat x1.toNat x2.toNat 0 5 (by decide) (by omega) (by omega) (by omega) (by decide) (by decide)
  exact fieldsRead_one _ rfl hw (by delta hasWord1; rw [m]; rfl) (by delta decodeRaw; simp only [m]; delta decMemctl; simp only [f0]; rw [bv_of f21, bv_of f16, bv_of f11])

theorem Laws.FieldsRead.sflush (x0 : BitVec 5) : Laws.FieldsRead.Statement (.sflush x0) := by
  have h0 := x0.isLt
  obtain ⟨hw, m, f21, f16, f11, f6, f0⟩ := @encR_fields 30 0 x0.toNat 0 0 6 (by decide) (by decide) (by omega) (by decide) (by decide) (by decide)
  exact fieldsRead_one _ rfl hw (by delta hasWord1; rw [m]; rfl) (by delta decodeRaw; simp only [m]; delta decMemctl; simp only [f0]; rw [bv_of f16])

theorem Laws.FieldsRead.waita (x0 : BitVec 5) (x1 : BitVec 5) (x2 : BitVec 5) (x3 : BitVec 5) (x4 : BitVec 2) (x5 : BitVec 3) : Laws.FieldsRead.Statement (.waita x0 x1 x2 x3 x4 x5) := by
  have h0 := x0.isLt
  have h1 := x1.isLt
  have h2 := x2.isLt
  have h3 := x3.isLt
  have h4 := x4.isLt
  have h5 := x5.isLt
  obtain ⟨hw, m, f21, f16, f11, f6, f0⟩ := @encR_fields 31 x0.toNat x1.toNat x2.toNat x3.toNat (x4.toNat * 8 + x5.toNat) (by decide) (by omega) (by omega) (by omega) (by omega) (by omega)
  exact fieldsRead_one _ rfl hw (by delta hasWord1; rw [m]; rfl) (by delta decodeRaw; simp only [m]; rw [bv_of f21, bv_of f16, bv_of f11, bv_of f6, (bv_of (by simp only [fld] at *; omega) : bv 2 (encR 31 x0.toNat x1.toNat x2.toNat x3.toNat (x4.toNat * 8 + x5.toNat)) 3 = x4), (bv_of (by simp only [fld] at *; omega) : bv 3 (encR 31 x0.toNat x1.toNat x2.toNat x3.toNat (x4.toNat * 8 + x5.toNat)) 0 = x5)])

theorem Laws.FieldsRead.send (x0 : BitVec 5) (x1 : BitVec 5) : Laws.FieldsRead.Statement (.send x0 x1) := by
  have h0 := x0.isLt
  have h1 := x1.isLt
  obtain ⟨hw, m, f21, f16, f11, f6, f0⟩ := @encR_fields 32 0 x0.toNat x1.toNat 0 0 (by decide) (by decide) (by omega) (by omega) (by decide) (by decide)
  exact fieldsRead_one _ rfl hw (by delta hasWord1; rw [m]; rfl) (by delta decodeRaw; simp only [m]; delta decMsg; simp only [f0]; rw [bv_of f16, bv_of f11])

theorem Laws.FieldsRead.mcast (x0 : BitVec 5) (x1 : BitVec 5) (x2 : BitVec 2) : Laws.FieldsRead.Statement (.mcast x0 x1 x2) := by
  have h0 := x0.isLt
  have h1 := x1.isLt
  have h2 := x2.isLt
  obtain ⟨hw, m, f21, f16, f11, f6, f0⟩ := @encR_fields 32 0 x0.toNat x1.toNat x2.toNat 1 (by decide) (by decide) (by omega) (by omega) (by omega) (by decide)
  exact fieldsRead_one _ rfl hw (by delta hasWord1; rw [m]; rfl) (by delta decodeRaw; simp only [m]; delta decMsg; simp only [f0]; rw [bv_of f16, bv_of f11, (bv_of (by simp only [fld] at *; omega) : bv 2 (encR 32 0 x0.toNat x1.toNat x2.toNat 1) 6 = x2)])

theorem Laws.FieldsRead.spawn (x0 : BitVec 5) (x1 : BitVec 5) (x2 : BitVec 5) : Laws.FieldsRead.Statement (.spawn x0 x1 x2) := by
  have h0 := x0.isLt
  have h1 := x1.isLt
  have h2 := x2.isLt
  obtain ⟨hw, m, f21, f16, f11, f6, f0⟩ := @encR_fields 32 x0.toNat x1.toNat x2.toNat 0 2 (by decide) (by omega) (by omega) (by omega) (by decide) (by decide)
  exact fieldsRead_one _ rfl hw (by delta hasWord1; rw [m]; rfl) (by delta decodeRaw; simp only [m]; delta decMsg; simp only [f0]; rw [bv_of f21, bv_of f16, bv_of f11])

theorem Laws.FieldsRead.aq (x0 : BitVec 5) (x1 : BitVec 5) (x2 : BitVec 5) : Laws.FieldsRead.Statement (.aq x0 x1 x2) := by
  have h0 := x0.isLt
  have h1 := x1.isLt
  have h2 := x2.isLt
  obtain ⟨hw, m, f21, f16, f11, f6, f0⟩ := @encR_fields 32 x0.toNat x1.toNat x2.toNat 0 3 (by decide) (by omega) (by omega) (by omega) (by decide) (by decide)
  exact fieldsRead_one _ rfl hw (by delta hasWord1; rw [m]; rfl) (by delta decodeRaw; simp only [m]; delta decMsg; simp only [f0]; rw [bv_of f21, bv_of f16, bv_of f11])

theorem Laws.FieldsRead.launch (x0 : BitVec 5) (x1 : BitVec 5) : Laws.FieldsRead.Statement (.launch x0 x1) := by
  have h0 := x0.isLt
  have h1 := x1.isLt
  obtain ⟨hw, m, f21, f16, f11, f6, f0⟩ := @encR_fields 32 0 x0.toNat x1.toNat 0 4 (by decide) (by decide) (by omega) (by omega) (by decide) (by decide)
  exact fieldsRead_one _ rfl hw (by delta hasWord1; rw [m]; rfl) (by delta decodeRaw; simp only [m]; delta decMsg; simp only [f0]; rw [bv_of f16, bv_of f11])

theorem Laws.FieldsRead.cntset (x0 : BitVec 5) (x1 : BitVec 5) (x2 : BitVec 5) : Laws.FieldsRead.Statement (.cntset x0 x1 x2) := by
  have h0 := x0.isLt
  have h1 := x1.isLt
  have h2 := x2.isLt
  obtain ⟨hw, m, f21, f16, f11, f6, f0⟩ := @encR_fields 33 0 x0.toNat x1.toNat x2.toNat 0 (by decide) (by decide) (by omega) (by omega) (by omega) (by decide)
  exact fieldsRead_one _ rfl hw (by delta hasWord1; rw [m]; rfl) (by delta decodeRaw; simp only [m]; delta decTask; simp only [f0]; rw [bv_of f16, bv_of f11, bv_of f6])

theorem Laws.FieldsRead.cntadd (x0 : BitVec 5) (x1 : BitVec 5) (x2 : BitVec 5) : Laws.FieldsRead.Statement (.cntadd x0 x1 x2) := by
  have h0 := x0.isLt
  have h1 := x1.isLt
  have h2 := x2.isLt
  obtain ⟨hw, m, f21, f16, f11, f6, f0⟩ := @encR_fields 33 x0.toNat x1.toNat 0 x2.toNat 1 (by decide) (by omega) (by omega) (by decide) (by omega) (by decide)
  exact fieldsRead_one _ rfl hw (by delta hasWord1; rw [m]; rfl) (by delta decodeRaw; simp only [m]; delta decTask; simp only [f0]; rw [bv_of f21, bv_of f16, bv_of f6])

theorem Laws.FieldsRead.cntwait (x0 : BitVec 5) (x1 : BitVec 5) : Laws.FieldsRead.Statement (.cntwait x0 x1) := by
  have h0 := x0.isLt
  have h1 := x1.isLt
  obtain ⟨hw, m, f21, f16, f11, f6, f0⟩ := @encR_fields 33 x0.toNat 0 0 x1.toNat 2 (by decide) (by omega) (by decide) (by decide) (by omega) (by decide)
  exact fieldsRead_one _ rfl hw (by delta hasWord1; rw [m]; rfl) (by delta decodeRaw; simp only [m]; delta decTask; simp only [f0]; rw [bv_of f21, bv_of f6])

theorem Laws.FieldsRead.exit : Laws.FieldsRead.Statement (.exit) := by
  obtain ⟨hw, m, f21, f16, f11, f6, f0⟩ := @encR_fields 33 0 0 0 0 3 (by decide) (by decide) (by decide) (by decide) (by decide) (by decide)
  exact fieldsRead_one _ rfl hw (by delta hasWord1; rw [m]; rfl) (by delta decodeRaw; simp only [m]; delta decTask; simp only [f0])

theorem Laws.FieldsRead.contain : Laws.FieldsRead.Statement (.contain) := by
  obtain ⟨hw, m, f21, f16, f11, f6, f0⟩ := @encR_fields 33 0 0 0 0 4 (by decide) (by decide) (by decide) (by decide) (by decide) (by decide)
  exact fieldsRead_one _ rfl hw (by delta hasWord1; rw [m]; rfl) (by delta decodeRaw; simp only [m]; delta decTask; simp only [f0])

theorem Laws.FieldsRead.yield : Laws.FieldsRead.Statement (.yield) := by
  obtain ⟨hw, m, f21, f16, f11, f6, f0⟩ := @encR_fields 33 0 0 0 0 5 (by decide) (by decide) (by decide) (by decide) (by decide) (by decide)
  exact fieldsRead_one _ rfl hw (by delta hasWord1; rw [m]; rfl) (by delta decodeRaw; simp only [m]; delta decTask; simp only [f0])

theorem Laws.FieldsRead.gbar (x0 : BitVec 5) (x1 : BitVec 2) : Laws.FieldsRead.Statement (.gbar x0 x1) := by
  have h0 := x0.isLt
  have h1 := x1.isLt
  obtain ⟨hw, m, f21, f16, f11, f6, f0⟩ := @encR_fields 33 x0.toNat 0 0 x1.toNat 6 (by decide) (by omega) (by decide) (by decide) (by omega) (by decide)
  exact fieldsRead_one _ rfl hw (by delta hasWord1; rw [m]; rfl) (by delta decodeRaw; simp only [m]; delta decTask; simp only [f0]; rw [bv_of f21, (bv_of (by simp only [fld] at *; omega) : bv 2 (encR 33 x0.toNat 0 0 x1.toNat 6) 6 = x1)])

theorem Laws.FieldsRead.gred (x0 : BitVec 5) (x1 : BitVec 5) (x2 : BitVec 3) (x3 : BitVec 2) : Laws.FieldsRead.Statement (.gred x0 x1 x2 x3) := by
  have h0 := x0.isLt
  have h1 := x1.isLt
  have h2 := x2.isLt
  have h3 := x3.isLt
  obtain ⟨hw, m, f21, f16, f11, f6, f0⟩ := @encR_fields 33 x0.toNat x1.toNat 0 (x2.toNat * 4 + x3.toNat) 7 (by decide) (by omega) (by omega) (by decide) (by omega) (by decide)
  exact fieldsRead_one _ rfl hw (by delta hasWord1; rw [m]; rfl) (by delta decodeRaw; simp only [m]; delta decTask; simp only [f0]; rw [bv_of f21, bv_of f16, (bv_of (by simp only [fld] at *; omega) : bv 3 (encR 33 x0.toNat x1.toNat 0 (x2.toNat * 4 + x3.toNat) 7) 8 = x2), (bv_of (by simp only [fld] at *; omega) : bv 2 (encR 33 x0.toNat x1.toNat 0 (x2.toNat * 4 + x3.toNat) 7) 6 = x3)])

theorem Laws.FieldsRead.qwait (x0 : BitVec 3) (x1 : BitVec 5) (x2 : BitVec 5) (x3 : BitVec 10) : Laws.FieldsRead.Statement (.qwait x0 x1 x2 x3) := by
  have h0 := x0.isLt
  have h1 := x1.isLt
  have h2 := x2.isLt
  have h3 := x3.isLt
  obtain ⟨hw, m, f23, f20, f15, f10, f0⟩ := @encQ_fields x0.toNat 0 x1.toNat x2.toNat x3.toNat (by omega) (by decide) (by omega) (by omega) (by omega)
  exact fieldsRead_one _ rfl hw (by delta hasWord1; rw [m]; rfl) (by delta decodeRaw; simp only [m]; delta decPipe; simp only [f20]; rw [bv_of f23, bv_of f15, bv_of f10, bv_of f0])

theorem Laws.FieldsRead.qfree (x0 : BitVec 3) (x1 : BitVec 5) (x2 : BitVec 5) (x3 : BitVec 10) : Laws.FieldsRead.Statement (.qfree x0 x1 x2 x3) := by
  have h0 := x0.isLt
  have h1 := x1.isLt
  have h2 := x2.isLt
  have h3 := x3.isLt
  obtain ⟨hw, m, f23, f20, f15, f10, f0⟩ := @encQ_fields x0.toNat 1 x1.toNat x2.toNat x3.toNat (by omega) (by decide) (by omega) (by omega) (by omega)
  exact fieldsRead_one _ rfl hw (by delta hasWord1; rw [m]; rfl) (by delta decodeRaw; simp only [m]; delta decPipe; simp only [f20]; rw [bv_of f23, bv_of f15, bv_of f10, bv_of f0])

theorem Laws.FieldsRead.qadv (x0 : BitVec 3) (x1 : BitVec 5) (x2 : BitVec 10) : Laws.FieldsRead.Statement (.qadv x0 x1 x2) := by
  have h0 := x0.isLt
  have h1 := x1.isLt
  have h2 := x2.isLt
  obtain ⟨hw, m, f23, f20, f15, f10, f0⟩ := @encQ_fields x0.toNat 2 x1.toNat 0 x2.toNat (by omega) (by decide) (by omega) (by decide) (by omega)
  exact fieldsRead_one _ rfl hw (by delta hasWord1; rw [m]; rfl) (by delta decodeRaw; simp only [m]; delta decPipe; simp only [f20]; rw [bv_of f23, bv_of f15, bv_of f0])

theorem Laws.FieldsRead.qstat (x0 : BitVec 3) (x1 : BitVec 5) : Laws.FieldsRead.Statement (.qstat x0 x1) := by
  have h0 := x0.isLt
  have h1 := x1.isLt
  obtain ⟨hw, m, f23, f20, f15, f10, f0⟩ := @encQ_fields x0.toNat 3 0 x1.toNat 0 (by omega) (by decide) (by decide) (by omega) (by decide)
  exact fieldsRead_one _ rfl hw (by delta hasWord1; rw [m]; rfl) (by delta decodeRaw; simp only [m]; delta decPipe; simp only [f20]; rw [bv_of f23, bv_of f10])

theorem Laws.FieldsRead.qclose (x0 : BitVec 3) : Laws.FieldsRead.Statement (.qclose x0) := by
  have h0 := x0.isLt
  obtain ⟨hw, m, f23, f20, f15, f10, f0⟩ := @encQ_fields x0.toNat 4 0 0 0 (by omega) (by decide) (by decide) (by decide) (by decide)
  exact fieldsRead_one _ rfl hw (by delta hasWord1; rw [m]; rfl) (by delta decodeRaw; simp only [m]; delta decPipe; simp only [f20]; rw [bv_of f23])

theorem Laws.FieldsRead.trap (x0 : BitVec 8) : Laws.FieldsRead.Statement (.trap x0) := by
  have h0 := x0.isLt
  obtain ⟨hw, m, f21, f16, f8, f0⟩ := @encX_fields 0 0 0 x0.toNat (by decide) (by decide) (by decide) (by omega)
  exact fieldsRead_one _ rfl hw (by delta hasWord1; rw [m]; rfl) (by delta decodeRaw; simp only [m]; delta decSys; simp only [f8]; rw [bv_of f0])

theorem Laws.FieldsRead.eret (x0 : BitVec 5) : Laws.FieldsRead.Statement (.eret x0) := by
  have h0 := x0.isLt
  obtain ⟨hw, m, f21, f16, f8, f0⟩ := @encX_fields 0 x0.toNat 1 0 (by decide) (by omega) (by decide) (by decide)
  exact fieldsRead_one _ rfl hw (by delta hasWord1; rw [m]; rfl) (by delta decodeRaw; simp only [m]; delta decSys; simp only [f8]; rw [bv_of f16])

theorem Laws.FieldsRead.rdsr (x0 : BitVec 5) (x1 : BitVec 8) : Laws.FieldsRead.Statement (.rdsr x0 x1) := by
  have h0 := x0.isLt
  have h1 := x1.isLt
  obtain ⟨hw, m, f21, f16, f8, f0⟩ := @encX_fields x0.toNat 0 2 x1.toNat (by omega) (by decide) (by decide) (by omega)
  exact fieldsRead_one _ rfl hw (by delta hasWord1; rw [m]; rfl) (by delta decodeRaw; simp only [m]; delta decSys; simp only [f8]; rw [bv_of f21, bv_of f0])

theorem Laws.FieldsRead.wrsr (x0 : BitVec 5) (x1 : BitVec 8) : Laws.FieldsRead.Statement (.wrsr x0 x1) := by
  have h0 := x0.isLt
  have h1 := x1.isLt
  obtain ⟨hw, m, f21, f16, f8, f0⟩ := @encX_fields 0 x0.toNat 3 x1.toNat (by decide) (by omega) (by decide) (by omega)
  exact fieldsRead_one _ rfl hw (by delta hasWord1; rw [m]; rfl) (by delta decodeRaw; simp only [m]; delta decSys; simp only [f8]; rw [bv_of f16, bv_of f0])

theorem Laws.FieldsRead.idle : Laws.FieldsRead.Statement (.idle) := by
  obtain ⟨hw, m, f21, f16, f8, f0⟩ := @encX_fields 0 0 4 0 (by decide) (by decide) (by decide) (by decide)
  exact fieldsRead_one _ rfl hw (by delta hasWord1; rw [m]; rfl) (by delta decodeRaw; simp only [m]; delta decSys; simp only [f8])

theorem Laws.FieldsRead.brk (x0 : BitVec 8) : Laws.FieldsRead.Statement (.brk x0) := by
  have h0 := x0.isLt
  obtain ⟨hw, m, f21, f16, f8, f0⟩ := @encX_fields 0 0 5 x0.toNat (by decide) (by decide) (by decide) (by omega)
  exact fieldsRead_one _ rfl hw (by delta hasWord1; rw [m]; rfl) (by delta decodeRaw; simp only [m]; delta decSys; simp only [f8]; rw [bv_of f0])

theorem Laws.FieldsRead.shoot (x0 : BitVec 5) (x1 : BitVec 5) (x2 : BitVec 2) : Laws.FieldsRead.Statement (.shoot x0 x1 x2) := by
  have h0 := x0.isLt
  have h1 := x1.isLt
  have h2 := x2.isLt
  obtain ⟨hw, m, f21, f16, f8, f0⟩ := @encX_fields x0.toNat x1.toNat 6 x2.toNat (by omega) (by omega) (by decide) (by omega)
  have gc : fld (encX x0.toNat x1.toNat 6 x2.toNat) 2 1 = 0 := by simp only [fld] at *; omega
  exact fieldsRead_one _ rfl hw (by delta hasWord1; rw [m]; rfl) (by delta decodeRaw; simp only [m]; delta decSys; simp only [f8]; simp only [gc, if_true]; rw [bv_of f21, bv_of f16, (bv_of (by simp only [fld] at *; omega) : bv 2 (encX x0.toNat x1.toNat 6 x2.toNat) 0 = x2)])

theorem Laws.FieldsRead.shootAll (x0 : BitVec 5) (x1 : BitVec 2) : Laws.FieldsRead.Statement (.shootAll x0 x1) := by
  have h0 := x0.isLt
  have h1 := x1.isLt
  obtain ⟨hw, m, f21, f16, f8, f0⟩ := @encX_fields x0.toNat 0 6 (4 + x1.toNat) (by omega) (by decide) (by decide) (by omega)
  have gc : fld (encX x0.toNat 0 6 (4 + x1.toNat)) 2 1 = 1 := by simp only [fld] at *; omega
  exact fieldsRead_one _ rfl hw (by delta hasWord1; rw [m]; rfl) (by delta decodeRaw; simp only [m]; delta decSys; simp only [f8]; simp only [gc, Nat.one_ne_zero, if_false]; rw [bv_of f21, (bv_of (by simp only [fld] at *; omega) : bv 2 (encX x0.toNat 0 6 (4 + x1.toNat)) 0 = x1)])

theorem Laws.FieldsRead.vatcfgDefine (x0 : BitVec 5) (x1 : BitVec 5) : Laws.FieldsRead.Statement (.vatcfgDefine x0 x1) := by
  have h0 := x0.isLt
  have h1 := x1.isLt
  obtain ⟨hw, m, f21, f16, f8, f0⟩ := @encX_fields x0.toNat x1.toNat 7 0 (by omega) (by omega) (by decide) (by decide)
  exact fieldsRead_one _ rfl hw (by delta hasWord1; rw [m]; rfl) (by delta decodeRaw; simp only [m]; delta decSys; simp only [f8, f0]; rw [bv_of f21, bv_of f16])

theorem Laws.FieldsRead.vatcfgResize (x0 : BitVec 5) (x1 : BitVec 5) : Laws.FieldsRead.Statement (.vatcfgResize x0 x1) := by
  have h0 := x0.isLt
  have h1 := x1.isLt
  obtain ⟨hw, m, f21, f16, f8, f0⟩ := @encX_fields x0.toNat x1.toNat 7 1 (by omega) (by omega) (by decide) (by decide)
  exact fieldsRead_one _ rfl hw (by delta hasWord1; rw [m]; rfl) (by delta decodeRaw; simp only [m]; delta decSys; simp only [f8, f0]; rw [bv_of f21, bv_of f16])

theorem Laws.FieldsRead.vatcfgRetire (x0 : BitVec 5) (x1 : BitVec 5) : Laws.FieldsRead.Statement (.vatcfgRetire x0 x1) := by
  have h0 := x0.isLt
  have h1 := x1.isLt
  obtain ⟨hw, m, f21, f16, f8, f0⟩ := @encX_fields x0.toNat x1.toNat 7 2 (by omega) (by omega) (by decide) (by decide)
  exact fieldsRead_one _ rfl hw (by delta hasWord1; rw [m]; rfl) (by delta decodeRaw; simp only [m]; delta decSys; simp only [f8, f0]; rw [bv_of f21, bv_of f16])

theorem Laws.FieldsRead.lgbindBind (x0 : BitVec 5) (x1 : BitVec 5) : Laws.FieldsRead.Statement (.lgbindBind x0 x1) := by
  have h0 := x0.isLt
  have h1 := x1.isLt
  obtain ⟨hw, m, f21, f16, f8, f0⟩ := @encX_fields x0.toNat x1.toNat 8 0 (by omega) (by omega) (by decide) (by decide)
  exact fieldsRead_one _ rfl hw (by delta hasWord1; rw [m]; rfl) (by delta decodeRaw; simp only [m]; delta decSys; simp only [f8, f0]; rw [bv_of f21, bv_of f16])

theorem Laws.FieldsRead.lgbindUnbind (x0 : BitVec 5) (x1 : BitVec 5) : Laws.FieldsRead.Statement (.lgbindUnbind x0 x1) := by
  have h0 := x0.isLt
  have h1 := x1.isLt
  obtain ⟨hw, m, f21, f16, f8, f0⟩ := @encX_fields x0.toNat x1.toNat 8 1 (by omega) (by omega) (by decide) (by decide)
  exact fieldsRead_one _ rfl hw (by delta hasWord1; rw [m]; rfl) (by delta decodeRaw; simp only [m]; delta decSys; simp only [f8, f0]; rw [bv_of f21, bv_of f16])

theorem Laws.FieldsRead.grpcfg (x0 : BitVec 5) (x1 : BitVec 5) (x2 : BitVec 2) : Laws.FieldsRead.Statement (.grpcfg x0 x1 x2) := by
  have h0 := x0.isLt
  have h1 := x1.isLt
  have h2 := x2.isLt
  obtain ⟨hw, m, f21, f16, f8, f0⟩ := @encX_fields x0.toNat x1.toNat 9 x2.toNat (by omega) (by omega) (by decide) (by omega)
  exact fieldsRead_one _ rfl hw (by delta hasWord1; rw [m]; rfl) (by delta decodeRaw; simp only [m]; delta decSys; simp only [f8]; rw [bv_of f21, bv_of f16, (bv_of (by simp only [fld] at *; omega) : bv 2 (encX x0.toNat x1.toNat 9 x2.toNat) 0 = x2)])

theorem Laws.FieldsRead.resume (x0 : BitVec 5) (x1 : BitVec 5) (x2 : BitVec 1) : Laws.FieldsRead.Statement (.resume x0 x1 x2) := by
  have h0 := x0.isLt
  have h1 := x1.isLt
  have h2 := x2.isLt
  obtain ⟨hw, m, f21, f16, f8, f0⟩ := @encX_fields x0.toNat x1.toNat 10 x2.toNat (by omega) (by omega) (by decide) (by omega)
  exact fieldsRead_one _ rfl hw (by delta hasWord1; rw [m]; rfl) (by delta decodeRaw; simp only [m]; delta decSys; simp only [f8]; rw [bv_of f21, bv_of f16, (bv_of (by simp only [fld] at *; omega) : bv 1 (encX x0.toNat x1.toNat 10 x2.toNat) 0 = x2)])

theorem Laws.FieldsRead.lgnext (x0 : BitVec 5) : Laws.FieldsRead.Statement (.lgnext x0) := by
  have h0 := x0.isLt
  obtain ⟨hw, m, f21, f16, f11, f6, f0⟩ := @encR_fields 36 x0.toNat 0 0 0 0 (by decide) (by omega) (by decide) (by decide) (by decide) (by decide)
  exact fieldsRead_one _ rfl hw (by delta hasWord1; rw [m]; rfl) (by delta decodeRaw; simp only [m]; delta decLg; simp only [f0]; rw [bv_of f21])

theorem Laws.FieldsRead.lgverd (x0 : BitVec 5) (x1 : BitVec 5) (x2 : BitVec 5) : Laws.FieldsRead.Statement (.lgverd x0 x1 x2) := by
  have h0 := x0.isLt
  have h1 := x1.isLt
  have h2 := x2.isLt
  obtain ⟨hw, m, f21, f16, f11, f6, f0⟩ := @encR_fields 36 x0.toNat x1.toNat x2.toNat 0 1 (by decide) (by omega) (by omega) (by omega) (by decide) (by decide)
  exact fieldsRead_one _ rfl hw (by delta hasWord1; rw [m]; rfl) (by delta decodeRaw; simp only [m]; delta decLg; simp only [f0]; rw [bv_of f21, bv_of f16, bv_of f11])

theorem Laws.FieldsRead.lgstat (x0 : BitVec 5) (x1 : BitVec 5) : Laws.FieldsRead.Statement (.lgstat x0 x1) := by
  have h0 := x0.isLt
  have h1 := x1.isLt
  obtain ⟨hw, m, f21, f16, f11, f6, f0⟩ := @encR_fields 36 x0.toNat 0 0 x1.toNat 2 (by decide) (by omega) (by decide) (by decide) (by omega) (by decide)
  exact fieldsRead_one _ rfl hw (by delta hasWord1; rw [m]; rfl) (by delta decodeRaw; simp only [m]; delta decLg; simp only [f0]; rw [bv_of f21, bv_of f6])

theorem Laws.FieldsRead.tld (x0 : BitVec 3) (x1 : BitVec 4) (x2 : BitVec 5) (x3 : BitVec 10) (x4 : BitVec 3) : Laws.FieldsRead.Statement (.tld x0 x1 x2 x3 x4) := by
  have h0 := x0.isLt
  have h1 := x1.isLt
  have h2 := x2.isLt
  have h3 := x3.isLt
  have h4 := x4.isLt
  obtain ⟨hw, m, f23, f19, f14, f4, f3, f0⟩ := @encTM_fields 40 x0.toNat x1.toNat x2.toNat x3.toNat 0 x4.toNat (by decide) (by omega) (by omega) (by omega) (by omega) (by decide) (by omega)
  exact fieldsRead_one _ rfl hw (by delta hasWord1; rw [m]; rfl) (by delta decodeRaw; simp only [m]; simp only [f3, if_true]; rw [bv_of f23, bv_of f19, bv_of f14, bv_of f4, bv_of f0])

theorem Laws.FieldsRead.tldPipe (x0 : BitVec 3) (x1 : BitVec 4) (x2 : BitVec 3) (x3 : BitVec 10) : Laws.FieldsRead.Statement (.tldPipe x0 x1 x2 x3) := by
  have h0 := x0.isLt
  have h1 := x1.isLt
  have h2 := x2.isLt
  have h3 := x3.isLt
  obtain ⟨hw, m, f23, f19, f14, f4, f3, f0⟩ := @encTM_fields 40 x0.toNat x1.toNat x2.toNat x3.toNat 1 0 (by decide) (by omega) (by omega) (by omega) (by omega) (by decide) (by decide)
  exact fieldsRead_one _ rfl hw (by delta hasWord1; rw [m]; rfl) (by delta decodeRaw; simp only [m]; simp only [f3, Nat.one_ne_zero, if_false]; rw [bv_of f23, bv_of f19, (bv_of (by simp only [fld] at *; omega) : bv 3 (encTM 40 x0.toNat x1.toNat x2.toNat x3.toNat 1 0) 14 = x2), bv_of f4])

theorem Laws.FieldsRead.tst (x0 : BitVec 3) (x1 : BitVec 4) (x2 : BitVec 5) (x3 : BitVec 10) (x4 : BitVec 3) : Laws.FieldsRead.Statement (.tst x0 x1 x2 x3 x4) := by
  have h0 := x0.isLt
  have h1 := x1.isLt
  have h2 := x2.isLt
  have h3 := x3.isLt
  have h4 := x4.isLt
  obtain ⟨hw, m, f23, f19, f14, f4, f3, f0⟩ := @encTM_fields 41 x0.toNat x1.toNat x2.toNat x3.toNat 0 x4.toNat (by decide) (by omega) (by omega) (by omega) (by omega) (by decide) (by omega)
  exact fieldsRead_one _ rfl hw (by delta hasWord1; rw [m]; rfl) (by delta decodeRaw; simp only [m]; simp only [f3, if_true]; rw [bv_of f23, bv_of f19, bv_of f14, bv_of f4, bv_of f0])

theorem Laws.FieldsRead.tstPipe (x0 : BitVec 3) (x1 : BitVec 4) (x2 : BitVec 3) (x3 : BitVec 10) : Laws.FieldsRead.Statement (.tstPipe x0 x1 x2 x3) := by
  have h0 := x0.isLt
  have h1 := x1.isLt
  have h2 := x2.isLt
  have h3 := x3.isLt
  obtain ⟨hw, m, f23, f19, f14, f4, f3, f0⟩ := @encTM_fields 41 x0.toNat x1.toNat x2.toNat x3.toNat 1 0 (by decide) (by omega) (by omega) (by omega) (by omega) (by decide) (by decide)
  exact fieldsRead_one _ rfl hw (by delta hasWord1; rw [m]; rfl) (by delta decodeRaw; simp only [m]; simp only [f3, Nat.one_ne_zero, if_false]; rw [bv_of f23, bv_of f19, (bv_of (by simp only [fld] at *; omega) : bv 3 (encTM 41 x0.toNat x1.toNat x2.toNat x3.toNat 1 0) 14 = x2), bv_of f4])

theorem Laws.FieldsRead.vadd (x0 : BitVec 3) (x1 : BitVec 3) (x2 : BitVec 3) (x3 : BitVec 4) (x4 : BitVec 2) : Laws.FieldsRead.Statement (.vadd x0 x1 x2 x3 x4) := by
  have h0 := x0.isLt
  have h1 := x1.isLt
  have h2 := x2.isLt
  have h3 := x3.isLt
  have h4 := x4.isLt
  obtain ⟨hw, m, f23, f20, f17, f13, f11, f6, f0⟩ := @encT_fields 42 x0.toNat x1.toNat x2.toNat x3.toNat x4.toNat 0 0 (by decide) (by omega) (by omega) (by omega) (by omega) (by omega) (by decide) (by decide)
  exact fieldsRead_one _ rfl hw (by delta hasWord1; rw [m]; rfl) (by delta decodeRaw; simp only [m]; delta decVec; simp only [f0]; rw [bv_of f23, bv_of f20, bv_of f17, bv_of f13, bv_of f11])

theorem Laws.FieldsRead.vsub (x0 : BitVec 3) (x1 : BitVec 3) (x2 : BitVec 3) (x3 : BitVec 4) (x4 : BitVec 2) : Laws.FieldsRead.Statement (.vsub x0 x1 x2 x3 x4) := by
  have h0 := x0.isLt
  have h1 := x1.isLt
  have h2 := x2.isLt
  have h3 := x3.isLt
  have h4 := x4.isLt
  obtain ⟨hw, m, f23, f20, f17, f13, f11, f6, f0⟩ := @encT_fields 42 x0.toNat x1.toNat x2.toNat x3.toNat x4.toNat 0 1 (by decide) (by omega) (by omega) (by omega) (by omega) (by omega) (by decide) (by decide)
  exact fieldsRead_one _ rfl hw (by delta hasWord1; rw [m]; rfl) (by delta decodeRaw; simp only [m]; delta decVec; simp only [f0]; rw [bv_of f23, bv_of f20, bv_of f17, bv_of f13, bv_of f11])

theorem Laws.FieldsRead.vmul (x0 : BitVec 3) (x1 : BitVec 3) (x2 : BitVec 3) (x3 : BitVec 4) (x4 : BitVec 2) : Laws.FieldsRead.Statement (.vmul x0 x1 x2 x3 x4) := by
  have h0 := x0.isLt
  have h1 := x1.isLt
  have h2 := x2.isLt
  have h3 := x3.isLt
  have h4 := x4.isLt
  obtain ⟨hw, m, f23, f20, f17, f13, f11, f6, f0⟩ := @encT_fields 42 x0.toNat x1.toNat x2.toNat x3.toNat x4.toNat 0 2 (by decide) (by omega) (by omega) (by omega) (by omega) (by omega) (by decide) (by decide)
  exact fieldsRead_one _ rfl hw (by delta hasWord1; rw [m]; rfl) (by delta decodeRaw; simp only [m]; delta decVec; simp only [f0]; rw [bv_of f23, bv_of f20, bv_of f17, bv_of f13, bv_of f11])

theorem Laws.FieldsRead.vfma (x0 : BitVec 3) (x1 : BitVec 3) (x2 : BitVec 3) (x3 : BitVec 4) (x4 : BitVec 2) : Laws.FieldsRead.Statement (.vfma x0 x1 x2 x3 x4) := by
  have h0 := x0.isLt
  have h1 := x1.isLt
  have h2 := x2.isLt
  have h3 := x3.isLt
  have h4 := x4.isLt
  obtain ⟨hw, m, f23, f20, f17, f13, f11, f6, f0⟩ := @encT_fields 42 x0.toNat x1.toNat x2.toNat x3.toNat x4.toNat 0 3 (by decide) (by omega) (by omega) (by omega) (by omega) (by omega) (by decide) (by decide)
  exact fieldsRead_one _ rfl hw (by delta hasWord1; rw [m]; rfl) (by delta decodeRaw; simp only [m]; delta decVec; simp only [f0]; rw [bv_of f23, bv_of f20, bv_of f17, bv_of f13, bv_of f11])

theorem Laws.FieldsRead.vmin (x0 : BitVec 3) (x1 : BitVec 3) (x2 : BitVec 3) (x3 : BitVec 4) (x4 : BitVec 2) : Laws.FieldsRead.Statement (.vmin x0 x1 x2 x3 x4) := by
  have h0 := x0.isLt
  have h1 := x1.isLt
  have h2 := x2.isLt
  have h3 := x3.isLt
  have h4 := x4.isLt
  obtain ⟨hw, m, f23, f20, f17, f13, f11, f6, f0⟩ := @encT_fields 42 x0.toNat x1.toNat x2.toNat x3.toNat x4.toNat 0 4 (by decide) (by omega) (by omega) (by omega) (by omega) (by omega) (by decide) (by decide)
  exact fieldsRead_one _ rfl hw (by delta hasWord1; rw [m]; rfl) (by delta decodeRaw; simp only [m]; delta decVec; simp only [f0]; rw [bv_of f23, bv_of f20, bv_of f17, bv_of f13, bv_of f11])

theorem Laws.FieldsRead.vmax (x0 : BitVec 3) (x1 : BitVec 3) (x2 : BitVec 3) (x3 : BitVec 4) (x4 : BitVec 2) : Laws.FieldsRead.Statement (.vmax x0 x1 x2 x3 x4) := by
  have h0 := x0.isLt
  have h1 := x1.isLt
  have h2 := x2.isLt
  have h3 := x3.isLt
  have h4 := x4.isLt
  obtain ⟨hw, m, f23, f20, f17, f13, f11, f6, f0⟩ := @encT_fields 42 x0.toNat x1.toNat x2.toNat x3.toNat x4.toNat 0 5 (by decide) (by omega) (by omega) (by omega) (by omega) (by omega) (by decide) (by decide)
  exact fieldsRead_one _ rfl hw (by delta hasWord1; rw [m]; rfl) (by delta decodeRaw; simp only [m]; delta decVec; simp only [f0]; rw [bv_of f23, bv_of f20, bv_of f17, bv_of f13, bv_of f11])

theorem Laws.FieldsRead.vabs (x0 : BitVec 3) (x1 : BitVec 3) (x2 : BitVec 4) (x3 : BitVec 2) : Laws.FieldsRead.Statement (.vabs x0 x1 x2 x3) := by
  have h0 := x0.isLt
  have h1 := x1.isLt
  have h2 := x2.isLt
  have h3 := x3.isLt
  obtain ⟨hw, m, f23, f20, f17, f13, f11, f6, f0⟩ := @encT_fields 42 x0.toNat x1.toNat 0 x2.toNat x3.toNat 0 6 (by decide) (by omega) (by omega) (by decide) (by omega) (by omega) (by decide) (by decide)
  exact fieldsRead_one _ rfl hw (by delta hasWord1; rw [m]; rfl) (by delta decodeRaw; simp only [m]; delta decVec; simp only [f0]; rw [bv_of f23, bv_of f20, bv_of f13, bv_of f11])

theorem Laws.FieldsRead.vneg (x0 : BitVec 3) (x1 : BitVec 3) (x2 : BitVec 4) (x3 : BitVec 2) : Laws.FieldsRead.Statement (.vneg x0 x1 x2 x3) := by
  have h0 := x0.isLt
  have h1 := x1.isLt
  have h2 := x2.isLt
  have h3 := x3.isLt
  obtain ⟨hw, m, f23, f20, f17, f13, f11, f6, f0⟩ := @encT_fields 42 x0.toNat x1.toNat 0 x2.toNat x3.toNat 0 7 (by decide) (by omega) (by omega) (by decide) (by omega) (by omega) (by decide) (by decide)
  exact fieldsRead_one _ rfl hw (by delta hasWord1; rw [m]; rfl) (by delta decodeRaw; simp only [m]; delta decVec; simp only [f0]; rw [bv_of f23, bv_of f20, bv_of f13, bv_of f11])

theorem Laws.FieldsRead.vdiv (x0 : BitVec 3) (x1 : BitVec 3) (x2 : BitVec 3) (x3 : BitVec 4) (x4 : BitVec 2) : Laws.FieldsRead.Statement (.vdiv x0 x1 x2 x3 x4) := by
  have h0 := x0.isLt
  have h1 := x1.isLt
  have h2 := x2.isLt
  have h3 := x3.isLt
  have h4 := x4.isLt
  obtain ⟨hw, m, f23, f20, f17, f13, f11, f6, f0⟩ := @encT_fields 42 x0.toNat x1.toNat x2.toNat x3.toNat x4.toNat 0 8 (by decide) (by omega) (by omega) (by omega) (by omega) (by omega) (by decide) (by decide)
  exact fieldsRead_one _ rfl hw (by delta hasWord1; rw [m]; rfl) (by delta decodeRaw; simp only [m]; delta decVec; simp only [f0]; rw [bv_of f23, bv_of f20, bv_of f17, bv_of f13, bv_of f11])

theorem Laws.FieldsRead.vrsqrt (x0 : BitVec 3) (x1 : BitVec 3) (x2 : BitVec 4) (x3 : BitVec 2) : Laws.FieldsRead.Statement (.vrsqrt x0 x1 x2 x3) := by
  have h0 := x0.isLt
  have h1 := x1.isLt
  have h2 := x2.isLt
  have h3 := x3.isLt
  obtain ⟨hw, m, f23, f20, f17, f13, f11, f6, f0⟩ := @encT_fields 42 x0.toNat x1.toNat 0 x2.toNat x3.toNat 0 9 (by decide) (by omega) (by omega) (by decide) (by omega) (by omega) (by decide) (by decide)
  exact fieldsRead_one _ rfl hw (by delta hasWord1; rw [m]; rfl) (by delta decodeRaw; simp only [m]; delta decVec; simp only [f0]; rw [bv_of f23, bv_of f20, bv_of f13, bv_of f11])

theorem Laws.FieldsRead.vexp2 (x0 : BitVec 3) (x1 : BitVec 3) (x2 : BitVec 4) (x3 : BitVec 2) : Laws.FieldsRead.Statement (.vexp2 x0 x1 x2 x3) := by
  have h0 := x0.isLt
  have h1 := x1.isLt
  have h2 := x2.isLt
  have h3 := x3.isLt
  obtain ⟨hw, m, f23, f20, f17, f13, f11, f6, f0⟩ := @encT_fields 42 x0.toNat x1.toNat 0 x2.toNat x3.toNat 0 10 (by decide) (by omega) (by omega) (by decide) (by omega) (by omega) (by decide) (by decide)
  exact fieldsRead_one _ rfl hw (by delta hasWord1; rw [m]; rfl) (by delta decodeRaw; simp only [m]; delta decVec; simp only [f0]; rw [bv_of f23, bv_of f20, bv_of f13, bv_of f11])

theorem Laws.FieldsRead.vlog2 (x0 : BitVec 3) (x1 : BitVec 3) (x2 : BitVec 4) (x3 : BitVec 2) : Laws.FieldsRead.Statement (.vlog2 x0 x1 x2 x3) := by
  have h0 := x0.isLt
  have h1 := x1.isLt
  have h2 := x2.isLt
  have h3 := x3.isLt
  obtain ⟨hw, m, f23, f20, f17, f13, f11, f6, f0⟩ := @encT_fields 42 x0.toNat x1.toNat 0 x2.toNat x3.toNat 0 11 (by decide) (by omega) (by omega) (by decide) (by omega) (by omega) (by decide) (by decide)
  exact fieldsRead_one _ rfl hw (by delta hasWord1; rw [m]; rfl) (by delta decodeRaw; simp only [m]; delta decVec; simp only [f0]; rw [bv_of f23, bv_of f20, bv_of f13, bv_of f11])

theorem Laws.FieldsRead.vcmp (x0 : BitVec 3) (x1 : BitVec 3) (x2 : BitVec 4) (x3 : BitVec 2) (x4 : BitVec 2) (x5 : BitVec 3) : Laws.FieldsRead.Statement (.vcmp x0 x1 x2 x3 x4 x5) := by
  have h0 := x0.isLt
  have h1 := x1.isLt
  have h2 := x2.isLt
  have h3 := x3.isLt
  have h4 := x4.isLt
  have h5 := x5.isLt
  obtain ⟨hw, m, f23, f20, f17, f13, f11, f6, f0⟩ := @encT_fields 42 0 x0.toNat x1.toNat x2.toNat x3.toNat (x4.toNat * 8 + x5.toNat) 12 (by decide) (by decide) (by omega) (by omega) (by omega) (by omega) (by omega) (by decide)
  exact fieldsRead_one _ rfl hw (by delta hasWord1; rw [m]; rfl) (by delta decodeRaw; simp only [m]; delta decVec; simp only [f0]; rw [bv_of f20, bv_of f17, bv_of f13, bv_of f11, (bv_of (by simp only [fld] at *; omega) : bv 2 (encT 42 0 x0.toNat x1.toNat x2.toNat x3.toNat (x4.toNat * 8 + x5.toNat) 12) 9 = x4), (bv_of (by simp only [fld] at *; omega) : bv 3 (encT 42 0 x0.toNat x1.toNat x2.toNat x3.toNat (x4.toNat * 8 + x5.toNat) 12) 6 = x5)])

theorem Laws.FieldsRead.vsel (x0 : BitVec 3) (x1 : BitVec 3) (x2 : BitVec 3) (x3 : BitVec 4) (x4 : BitVec 2) : Laws.FieldsRead.Statement (.vsel x0 x1 x2 x3 x4) := by
  have h0 := x0.isLt
  have h1 := x1.isLt
  have h2 := x2.isLt
  have h3 := x3.isLt
  have h4 := x4.isLt
  obtain ⟨hw, m, f23, f20, f17, f13, f11, f6, f0⟩ := @encT_fields 42 x0.toNat x1.toNat x2.toNat x3.toNat 0 x4.toNat 13 (by decide) (by omega) (by omega) (by omega) (by omega) (by decide) (by omega) (by decide)
  exact fieldsRead_one _ rfl hw (by delta hasWord1; rw [m]; rfl) (by delta decodeRaw; simp only [m]; delta decVec; simp only [f0]; rw [bv_of f23, bv_of f20, bv_of f17, bv_of f13, (bv_of (by simp only [fld] at *; omega) : bv 2 (encT 42 x0.toNat x1.toNat x2.toNat x3.toNat 0 x4.toNat 13) 6 = x4)])

theorem Laws.FieldsRead.vredsum (x0 : BitVec 3) (x1 : BitVec 3) (x2 : BitVec 4) (x3 : BitVec 2) : Laws.FieldsRead.Statement (.vredsum x0 x1 x2 x3) := by
  have h0 := x0.isLt
  have h1 := x1.isLt
  have h2 := x2.isLt
  have h3 := x3.isLt
  obtain ⟨hw, m, f23, f20, f17, f13, f11, f6, f0⟩ := @encT_fields 42 x0.toNat x1.toNat 0 x2.toNat x3.toNat 0 14 (by decide) (by omega) (by omega) (by decide) (by omega) (by omega) (by decide) (by decide)
  exact fieldsRead_one _ rfl hw (by delta hasWord1; rw [m]; rfl) (by delta decodeRaw; simp only [m]; delta decVec; simp only [f0]; rw [bv_of f23, bv_of f20, bv_of f13, bv_of f11])

theorem Laws.FieldsRead.vredmax (x0 : BitVec 3) (x1 : BitVec 3) (x2 : BitVec 4) (x3 : BitVec 2) : Laws.FieldsRead.Statement (.vredmax x0 x1 x2 x3) := by
  have h0 := x0.isLt
  have h1 := x1.isLt
  have h2 := x2.isLt
  have h3 := x3.isLt
  obtain ⟨hw, m, f23, f20, f17, f13, f11, f6, f0⟩ := @encT_fields 42 x0.toNat x1.toNat 0 x2.toNat x3.toNat 0 15 (by decide) (by omega) (by omega) (by decide) (by omega) (by omega) (by decide) (by decide)
  exact fieldsRead_one _ rfl hw (by delta hasWord1; rw [m]; rfl) (by delta decodeRaw; simp only [m]; delta decVec; simp only [f0]; rw [bv_of f23, bv_of f20, bv_of f13, bv_of f11])

theorem Laws.FieldsRead.vshuf (x0 : BitVec 3) (x1 : BitVec 3) (x2 : BitVec 3) (x3 : BitVec 4) (x4 : BitVec 2) : Laws.FieldsRead.Statement (.vshuf x0 x1 x2 x3 x4) := by
  have h0 := x0.isLt
  have h1 := x1.isLt
  have h2 := x2.isLt
  have h3 := x3.isLt
  have h4 := x4.isLt
  obtain ⟨hw, m, f23, f20, f17, f13, f11, f6, f0⟩ := @encT_fields 42 x0.toNat x1.toNat x2.toNat x3.toNat x4.toNat 0 16 (by decide) (by omega) (by omega) (by omega) (by omega) (by omega) (by decide) (by decide)
  exact fieldsRead_one _ rfl hw (by delta hasWord1; rw [m]; rfl) (by delta decodeRaw; simp only [m]; delta decVec; simp only [f0]; rw [bv_of f23, bv_of f20, bv_of f17, bv_of f13, bv_of f11])

theorem Laws.FieldsRead.viadd (x0 : BitVec 3) (x1 : BitVec 3) (x2 : BitVec 3) (x3 : BitVec 4) (x4 : BitVec 2) : Laws.FieldsRead.Statement (.viadd x0 x1 x2 x3 x4) := by
  have h0 := x0.isLt
  have h1 := x1.isLt
  have h2 := x2.isLt
  have h3 := x3.isLt
  have h4 := x4.isLt
  obtain ⟨hw, m, f23, f20, f17, f13, f11, f6, f0⟩ := @encT_fields 42 x0.toNat x1.toNat x2.toNat x3.toNat x4.toNat 0 17 (by decide) (by omega) (by omega) (by omega) (by omega) (by omega) (by decide) (by decide)
  exact fieldsRead_one _ rfl hw (by delta hasWord1; rw [m]; rfl) (by delta decodeRaw; simp only [m]; delta decVec; simp only [f0]; rw [bv_of f23, bv_of f20, bv_of f17, bv_of f13, bv_of f11])

theorem Laws.FieldsRead.vimul (x0 : BitVec 3) (x1 : BitVec 3) (x2 : BitVec 3) (x3 : BitVec 4) (x4 : BitVec 2) : Laws.FieldsRead.Statement (.vimul x0 x1 x2 x3 x4) := by
  have h0 := x0.isLt
  have h1 := x1.isLt
  have h2 := x2.isLt
  have h3 := x3.isLt
  have h4 := x4.isLt
  obtain ⟨hw, m, f23, f20, f17, f13, f11, f6, f0⟩ := @encT_fields 42 x0.toNat x1.toNat x2.toNat x3.toNat x4.toNat 0 18 (by decide) (by omega) (by omega) (by omega) (by omega) (by omega) (by decide) (by decide)
  exact fieldsRead_one _ rfl hw (by delta hasWord1; rw [m]; rfl) (by delta decodeRaw; simp only [m]; delta decVec; simp only [f0]; rw [bv_of f23, bv_of f20, bv_of f17, bv_of f13, bv_of f11])

theorem Laws.FieldsRead.vlogic (x0 : BitVec 3) (x1 : BitVec 3) (x2 : BitVec 3) (x3 : BitVec 4) (x4 : BitVec 2) (x5 : BitVec 2) : Laws.FieldsRead.Statement (.vlogic x0 x1 x2 x3 x4 x5) := by
  have h0 := x0.isLt
  have h1 := x1.isLt
  have h2 := x2.isLt
  have h3 := x3.isLt
  have h4 := x4.isLt
  have h5 := x5.isLt
  obtain ⟨hw, m, f23, f20, f17, f13, f11, f6, f0⟩ := @encT_fields 42 x0.toNat x1.toNat x2.toNat x3.toNat x4.toNat x5.toNat 19 (by decide) (by omega) (by omega) (by omega) (by omega) (by omega) (by omega) (by decide)
  exact fieldsRead_one _ rfl hw (by delta hasWord1; rw [m]; rfl) (by delta decodeRaw; simp only [m]; delta decVec; simp only [f0]; rw [bv_of f23, bv_of f20, bv_of f17, bv_of f13, bv_of f11, (bv_of (by simp only [fld] at *; omega) : bv 2 (encT 42 x0.toNat x1.toNat x2.toNat x3.toNat x4.toNat x5.toNat 19) 6 = x5)])

theorem Laws.FieldsRead.vshift (x0 : BitVec 3) (x1 : BitVec 3) (x2 : BitVec 3) (x3 : BitVec 4) (x4 : BitVec 2) (x5 : BitVec 2) : Laws.FieldsRead.Statement (.vshift x0 x1 x2 x3 x4 x5) := by
  have h0 := x0.isLt
  have h1 := x1.isLt
  have h2 := x2.isLt
  have h3 := x3.isLt
  have h4 := x4.isLt
  have h5 := x5.isLt
  obtain ⟨hw, m, f23, f20, f17, f13, f11, f6, f0⟩ := @encT_fields 42 x0.toNat x1.toNat x2.toNat x3.toNat x4.toNat x5.toNat 20 (by decide) (by omega) (by omega) (by omega) (by omega) (by omega) (by omega) (by decide)
  exact fieldsRead_one _ rfl hw (by delta hasWord1; rw [m]; rfl) (by delta decodeRaw; simp only [m]; delta decVec; simp only [f0]; rw [bv_of f23, bv_of f20, bv_of f17, bv_of f13, bv_of f11, (bv_of (by simp only [fld] at *; omega) : bv 2 (encT 42 x0.toNat x1.toNat x2.toNat x3.toNat x4.toNat x5.toNat 20) 6 = x5)])

theorem Laws.FieldsRead.vcvt (x0 : BitVec 3) (x1 : BitVec 3) (x2 : BitVec 4) (x3 : BitVec 2) (x4 : BitVec 2) : Laws.FieldsRead.Statement (.vcvt x0 x1 x2 x3 x4) := by
  have h0 := x0.isLt
  have h1 := x1.isLt
  have h2 := x2.isLt
  have h3 := x3.isLt
  have h4 := x4.isLt
  obtain ⟨hw, m, f23, f20, f17, f13, f11, f6, f0⟩ := @encT_fields 42 x0.toNat x1.toNat 0 x2.toNat x3.toNat x4.toNat 21 (by decide) (by omega) (by omega) (by decide) (by omega) (by omega) (by omega) (by decide)
  exact fieldsRead_one _ rfl hw (by delta hasWord1; rw [m]; rfl) (by delta decodeRaw; simp only [m]; delta decVec; simp only [f0]; rw [bv_of f23, bv_of f20, bv_of f13, bv_of f11, (bv_of (by simp only [fld] at *; omega) : bv 2 (encT 42 x0.toNat x1.toNat 0 x2.toNat x3.toNat x4.toNat 21) 6 = x4)])

theorem Laws.FieldsRead.venc (x0 : BitVec 3) (x1 : BitVec 3) (x2 : BitVec 4) (x3 : BitVec 2) (x4 : BitVec 5) : Laws.FieldsRead.Statement (.venc x0 x1 x2 x3 x4) := by
  have h0 := x0.isLt
  have h1 := x1.isLt
  have h2 := x2.isLt
  have h3 := x3.isLt
  have h4 := x4.isLt
  obtain ⟨hw, m, f23, f20, f17, f13, f11, f6, f0⟩ := @encT_fields 42 x0.toNat x1.toNat 0 x2.toNat x3.toNat x4.toNat 22 (by decide) (by omega) (by omega) (by decide) (by omega) (by omega) (by omega) (by decide)
  exact fieldsRead_one _ rfl hw (by delta hasWord1; rw [m]; rfl) (by delta decodeRaw; simp only [m]; delta decVec; simp only [f0]; rw [bv_of f23, bv_of f20, bv_of f13, bv_of f11, bv_of f6])

theorem Laws.FieldsRead.vdec (x0 : BitVec 3) (x1 : BitVec 3) (x2 : BitVec 4) (x3 : BitVec 2) (x4 : BitVec 5) : Laws.FieldsRead.Statement (.vdec x0 x1 x2 x3 x4) := by
  have h0 := x0.isLt
  have h1 := x1.isLt
  have h2 := x2.isLt
  have h3 := x3.isLt
  have h4 := x4.isLt
  obtain ⟨hw, m, f23, f20, f17, f13, f11, f6, f0⟩ := @encT_fields 42 x0.toNat x1.toNat 0 x2.toNat x3.toNat x4.toNat 23 (by decide) (by omega) (by omega) (by decide) (by omega) (by omega) (by omega) (by decide)
  exact fieldsRead_one _ rfl hw (by delta hasWord1; rw [m]; rfl) (by delta decodeRaw; simp only [m]; delta decVec; simp only [f0]; rw [bv_of f23, bv_of f20, bv_of f13, bv_of f11, bv_of f6])

theorem Laws.FieldsRead.tmov (x0 : BitVec 3) (x1 : BitVec 3) (x2 : BitVec 4) (x3 : BitVec 2) : Laws.FieldsRead.Statement (.tmov x0 x1 x2 x3) := by
  have h0 := x0.isLt
  have h1 := x1.isLt
  have h2 := x2.isLt
  have h3 := x3.isLt
  obtain ⟨hw, m, f23, f20, f17, f13, f11, f6, f0⟩ := @encT_fields 42 x0.toNat x1.toNat 0 x2.toNat x3.toNat 0 24 (by decide) (by omega) (by omega) (by decide) (by omega) (by omega) (by decide) (by decide)
  exact fieldsRead_one _ rfl hw (by delta hasWord1; rw [m]; rfl) (by delta decodeRaw; simp only [m]; delta decVec; simp only [f0]; rw [bv_of f23, bv_of f20, bv_of f13, bv_of f11])

theorem Laws.FieldsRead.tzero (x0 : BitVec 3) (x1 : BitVec 4) : Laws.FieldsRead.Statement (.tzero x0 x1) := by
  have h0 := x0.isLt
  have h1 := x1.isLt
  obtain ⟨hw, m, f23, f20, f17, f13, f11, f6, f0⟩ := @encT_fields 42 x0.toNat 0 0 x1.toNat 0 0 25 (by decide) (by omega) (by decide) (by decide) (by omega) (by decide) (by decide) (by decide)
  exact fieldsRead_one _ rfl hw (by delta hasWord1; rw [m]; rfl) (by delta decodeRaw; simp only [m]; delta decVec; simp only [f0]; rw [bv_of f23, bv_of f13])

theorem Laws.FieldsRead.tbcast (x0 : BitVec 3) (x1 : BitVec 4) (x2 : BitVec 2) (x3 : BitVec 5) : Laws.FieldsRead.Statement (.tbcast x0 x1 x2 x3) := by
  have h0 := x0.isLt
  have h1 := x1.isLt
  have h2 := x2.isLt
  have h3 := x3.isLt
  obtain ⟨hw, m, f23, f20, f17, f13, f11, f6, f0⟩ := @encT_fields 42 x0.toNat 0 0 x1.toNat x2.toNat x3.toNat 26 (by decide) (by omega) (by decide) (by decide) (by omega) (by omega) (by omega) (by decide)
  exact fieldsRead_one _ rfl hw (by delta hasWord1; rw [m]; rfl) (by delta decodeRaw; simp only [m]; delta decVec; simp only [f0]; rw [bv_of f23, bv_of f13, bv_of f11, bv_of f6])

theorem Laws.FieldsRead.text (x0 : BitVec 3) (x1 : BitVec 4) (x2 : BitVec 5) : Laws.FieldsRead.Statement (.text x0 x1 x2) := by
  have h0 := x0.isLt
  have h1 := x1.isLt
  have h2 := x2.isLt
  obtain ⟨hw, m, f23, f20, f17, f13, f11, f6, f0⟩ := @encT_fields 42 0 x0.toNat 0 x1.toNat 0 x2.toNat 27 (by decide) (by decide) (by omega) (by decide) (by omega) (by decide) (by omega) (by decide)
  exact fieldsRead_one _ rfl hw (by delta hasWord1; rw [m]; rfl) (by delta decodeRaw; simp only [m]; delta decVec; simp only [f0]; rw [bv_of f20, bv_of f13, bv_of f6])

theorem Laws.FieldsRead.mma (x0 : BitVec 3) (x1 : BitVec 5) (x2 : BitVec 1) (x3 : BitVec 1) (x4 : BitVec 16) : Laws.FieldsRead.Statement (.mma x0 x1 x2 x3 x4) := by
  have h0 := x0.isLt
  have h1 := x1.isLt
  have h2 := x2.isLt
  have h3 := x3.isLt
  have h4 := x4.isLt
  obtain ⟨hw, m, f23, f18, f13, f12, f6, f0⟩ := @encMat_fields x0.toNat x1.toNat 0 x2.toNat 0 x3.toNat (by omega) (by omega) (by decide) (by omega) (by decide) (by omega)
  exact fieldsRead_two _ (x4.toNat) rfl hw (by omega) (by delta hasWord1; rw [m]; rfl) (by delta decodeRaw; simp only [m]; delta decMat; simp only [f6]; rw [bv_of f23, bv_of f18, bv_of f12, (bv_of (by simp only [fld] at *; omega) : bv 1 (encMat x0.toNat x1.toNat 0 x2.toNat 0 x3.toNat) 0 = x3), (bv_of (by omega) : bv 16 (x4.toNat) 0 = x4)])

theorem Laws.FieldsRead.mmas (x0 : BitVec 3) (x1 : BitVec 5) (x2 : BitVec 5) (x3 : BitVec 1) (x4 : BitVec 1) (x5 : BitVec 16) : Laws.FieldsRead.Statement (.mmas x0 x1 x2 x3 x4 x5) := by
  have h0 := x0.isLt
  have h1 := x1.isLt
  have h2 := x2.isLt
  have h3 := x3.isLt
  have h4 := x4.isLt
  have h5 := x5.isLt
  obtain ⟨hw, m, f23, f18, f13, f12, f6, f0⟩ := @encMat_fields x0.toNat x1.toNat x2.toNat x3.toNat 1 x4.toNat (by omega) (by omega) (by omega) (by omega) (by decide) (by omega)
  exact fieldsRead_two _ (x5.toNat) rfl hw (by omega) (by delta hasWord1; rw [m]; rfl) (by delta decodeRaw; simp only [m]; delta decMat; simp only [f6]; rw [bv_of f23, bv_of f18, bv_of f13, bv_of f12, (bv_of (by simp only [fld] at *; omega) : bv 1 (encMat x0.toNat x1.toNat x2.toNat x3.toNat 1 x4.toNat) 0 = x4), (bv_of (by omega) : bv 16 (x5.toNat) 0 = x5)])

theorem Laws.FieldsRead.mmai (x0 : BitVec 3) (x1 : BitVec 5) (x2 : BitVec 1) (x3 : BitVec 1) (x4 : BitVec 16) : Laws.FieldsRead.Statement (.mmai x0 x1 x2 x3 x4) := by
  have h0 := x0.isLt
  have h1 := x1.isLt
  have h2 := x2.isLt
  have h3 := x3.isLt
  have h4 := x4.isLt
  obtain ⟨hw, m, f23, f18, f13, f12, f6, f0⟩ := @encMat_fields x0.toNat x1.toNat 0 x2.toNat 2 x3.toNat (by omega) (by omega) (by decide) (by omega) (by decide) (by omega)
  exact fieldsRead_two _ (x4.toNat) rfl hw (by omega) (by delta hasWord1; rw [m]; rfl) (by delta decodeRaw; simp only [m]; delta decMat; simp only [f6]; rw [bv_of f23, bv_of f18, bv_of f12, (bv_of (by simp only [fld] at *; omega) : bv 1 (encMat x0.toNat x1.toNat 0 x2.toNat 2 x3.toNat) 0 = x3), (bv_of (by omega) : bv 16 (x4.toNat) 0 = x4)])

theorem Laws.FieldsRead.bld (x0 : BitVec 5) (x1 : BitVec 1) (x2 : BitVec 16) : Laws.FieldsRead.Statement (.bld x0 x1 x2) := by
  have h0 := x0.isLt
  have h1 := x1.isLt
  have h2 := x2.isLt
  obtain ⟨hw, m, f23, f18, f13, f12, f6, f0⟩ := @encMat_fields 0 x0.toNat 0 x1.toNat 3 0 (by decide) (by omega) (by decide) (by omega) (by decide) (by decide)
  exact fieldsRead_two _ (x2.toNat) rfl hw (by omega) (by delta hasWord1; rw [m]; rfl) (by delta decodeRaw; simp only [m]; delta decMat; simp only [f6]; rw [bv_of f18, bv_of f12, (bv_of (by omega) : bv 16 (x2.toNat) 0 = x2)])

theorem Laws.FieldsRead.brot (x0 : BitVec 1) (x1 : BitVec 1) (x2 : BitVec 5) : Laws.FieldsRead.Statement (.brot x0 x1 x2) := by
  have h0 := x0.isLt
  have h1 := x1.isLt
  have h2 := x2.isLt
  obtain ⟨hw, m, f23, f18, f13, f12, f6, f0⟩ := @encMat_fields 0 0 0 x0.toNat 4 0 (by decide) (by decide) (by decide) (by omega) (by decide) (by decide)
  exact fieldsRead_two _ (x1.toNat * 32 + x2.toNat) rfl hw (by omega) (by delta hasWord1; rw [m]; rfl) (by delta decodeRaw; simp only [m]; delta decMat; simp only [f6]; rw [bv_of f12, (bv_of (by omega) : bv 1 (x1.toNat * 32 + x2.toNat) 5 = x1), (bv_of (by omega) : bv 5 (x1.toNat * 32 + x2.toNat) 0 = x2)])

theorem Laws.FieldsRead.tblld (x0 : BitVec 5) (x1 : BitVec 1) (x2 : BitVec 8) : Laws.FieldsRead.Statement (.tblld x0 x1 x2) := by
  have h0 := x0.isLt
  have h1 := x1.isLt
  have h2 := x2.isLt
  obtain ⟨hw, m, f23, f18, f13, f12, f6, f0⟩ := @encMat_fields 0 x0.toNat 0 0 5 0 (by decide) (by omega) (by decide) (by decide) (by decide) (by decide)
  exact fieldsRead_two _ (x1.toNat * 256 + x2.toNat) rfl hw (by omega) (by delta hasWord1; rw [m]; rfl) (by delta decodeRaw; simp only [m]; delta decMat; simp only [f6]; rw [bv_of f18, (bv_of (by omega) : bv 1 (x1.toNat * 256 + x2.toNat) 8 = x1), (bv_of (by omega) : bv 8 (x1.toNat * 256 + x2.toNat) 0 = x2)])

theorem Laws.FieldsRead.ntblld (x0 : BitVec 5) : Laws.FieldsRead.Statement (.ntblld x0) := by
  have h0 := x0.isLt
  obtain ⟨hw, m, f23, f18, f13, f12, f6, f0⟩ := @encMat_fields 0 x0.toNat 0 0 6 0 (by decide) (by omega) (by decide) (by decide) (by decide) (by decide)
  exact fieldsRead_two _ (0) rfl hw (by omega) (by delta hasWord1; rw [m]; rfl) (by delta decodeRaw; simp only [m]; delta decMat; simp only [f6]; rw [bv_of f18])

theorem Laws.FieldsRead.cpy (x0 : BitVec 5) (x1 : BitVec 5) (x2 : BitVec 5) (x3 : BitVec 1) (x4 : BitVec 32) : Laws.FieldsRead.Statement (.cpy x0 x1 x2 x3 x4) := by
  have h0 := x0.isLt
  have h1 := x1.isLt
  have h2 := x2.isLt
  have h3 := x3.isLt
  have h4 := x4.isLt
  obtain ⟨hw, m, f21, f16, f11, f8, f0⟩ := @encCpy_fields x0.toNat x1.toNat x2.toNat 0 x3.toNat (by omega) (by omega) (by omega) (by decide) (by omega)
  exact fieldsRead_two _ (x4.toNat) rfl hw (by omega) (by delta hasWord1; rw [m]; rfl) (by delta decodeRaw; simp only [m]; delta decCpy; simp only [f8]; rw [bv_of f21, bv_of f16, bv_of f11, (bv_of (by simp only [fld] at *; omega) : bv 1 (encCpy x0.toNat x1.toNat x2.toNat 0 x3.toNat) 0 = x3), (bv_of (by omega) : bv 32 (x4.toNat) 0 = x4)])

theorem Laws.FieldsRead.cpys (x0 : BitVec 5) (x1 : BitVec 5) (x2 : BitVec 5) (x3 : BitVec 1) (x4 : BitVec 16) (x5 : BitVec 16) : Laws.FieldsRead.Statement (.cpys x0 x1 x2 x3 x4 x5) := by
  have h0 := x0.isLt
  have h1 := x1.isLt
  have h2 := x2.isLt
  have h3 := x3.isLt
  have h4 := x4.isLt
  have h5 := x5.isLt
  obtain ⟨hw, m, f21, f16, f11, f8, f0⟩ := @encCpy_fields x0.toNat x1.toNat x2.toNat 1 x3.toNat (by omega) (by omega) (by omega) (by decide) (by omega)
  exact fieldsRead_two _ (x4.toNat * 2 ^ 16 + x5.toNat) rfl hw (by omega) (by delta hasWord1; rw [m]; rfl) (by delta decodeRaw; simp only [m]; delta decCpy; simp only [f8]; rw [bv_of f21, bv_of f16, bv_of f11, (bv_of (by simp only [fld] at *; omega) : bv 1 (encCpy x0.toNat x1.toNat x2.toNat 1 x3.toNat) 0 = x3), (bv_of (by omega) : bv 16 (x4.toNat * 2 ^ 16 + x5.toNat) 16 = x4), (bv_of (by omega) : bv 16 (x4.toNat * 2 ^ 16 + x5.toNat) 0 = x5)])

theorem Laws.FieldsRead.cpyg (x0 : BitVec 5) (x1 : BitVec 5) (x2 : BitVec 5) (x3 : BitVec 1) (x4 : BitVec 4) (x5 : BitVec 28) : Laws.FieldsRead.Statement (.cpyg x0 x1 x2 x3 x4 x5) := by
  have h0 := x0.isLt
  have h1 := x1.isLt
  have h2 := x2.isLt
  have h3 := x3.isLt
  have h4 := x4.isLt
  have h5 := x5.isLt
  obtain ⟨hw, m, f21, f16, f11, f8, f0⟩ := @encCpy_fields x0.toNat x1.toNat x2.toNat 2 x3.toNat (by omega) (by omega) (by omega) (by decide) (by omega)
  exact fieldsRead_two _ (x4.toNat * 2 ^ 28 + x5.toNat) rfl hw (by omega) (by delta hasWord1; rw [m]; rfl) (by delta decodeRaw; simp only [m]; delta decCpy; simp only [f8]; rw [bv_of f21, bv_of f16, bv_of f11, (bv_of (by simp only [fld] at *; omega) : bv 1 (encCpy x0.toNat x1.toNat x2.toNat 2 x3.toNat) 0 = x3), (bv_of (by omega) : bv 4 (x4.toNat * 2 ^ 28 + x5.toNat) 28 = x4), (bv_of (by omega) : bv 28 (x4.toNat * 2 ^ 28 + x5.toNat) 0 = x5)])

theorem Laws.FieldsRead.gacc (x0 : BitVec 3) (x1 : BitVec 4) (x2 : BitVec 5) : Laws.FieldsRead.Statement (.gacc x0 x1 x2) := by
  have h0 := x0.isLt
  have h1 := x1.isLt
  have h2 := x2.isLt
  obtain ⟨hw, m, f23, f20, f17, f13, f11, f6, f0⟩ := @encT_fields 46 x0.toNat 0 0 x1.toNat 0 x2.toNat 0 (by decide) (by omega) (by decide) (by decide) (by omega) (by decide) (by omega) (by decide)
  exact fieldsRead_one _ rfl hw (by delta hasWord1; rw [m]; rfl) (by delta decodeRaw; simp only [m]; delta decGauss; simp only [f0]; rw [bv_of f23, bv_of f13, bv_of f6])

theorem Laws.FieldsRead.gelim (x0 : BitVec 3) (x1 : BitVec 3) (x2 : BitVec 4) (x3 : BitVec 5) : Laws.FieldsRead.Statement (.gelim x0 x1 x2 x3) := by
  have h0 := x0.isLt
  have h1 := x1.isLt
  have h2 := x2.isLt
  have h3 := x3.isLt
  obtain ⟨hw, m, f23, f20, f17, f13, f11, f6, f0⟩ := @encT_fields 46 x0.toNat x1.toNat 0 x2.toNat 0 x3.toNat 1 (by decide) (by omega) (by omega) (by decide) (by omega) (by decide) (by omega) (by decide)
  exact fieldsRead_one _ rfl hw (by delta hasWord1; rw [m]; rfl) (by delta decodeRaw; simp only [m]; delta decGauss; simp only [f0]; rw [bv_of f23, bv_of f20, bv_of f13, bv_of f6])

theorem Laws.FieldsRead.gdamp (x0 : BitVec 3) (x1 : BitVec 3) (x2 : BitVec 4) (x3 : BitVec 2) (x4 : BitVec 5) : Laws.FieldsRead.Statement (.gdamp x0 x1 x2 x3 x4) := by
  have h0 := x0.isLt
  have h1 := x1.isLt
  have h2 := x2.isLt
  have h3 := x3.isLt
  have h4 := x4.isLt
  obtain ⟨hw, m, f23, f20, f17, f13, f11, f6, f0⟩ := @encT_fields 46 x0.toNat x1.toNat 0 x2.toNat x3.toNat x4.toNat 2 (by decide) (by omega) (by omega) (by decide) (by omega) (by omega) (by omega) (by decide)
  exact fieldsRead_one _ rfl hw (by delta hasWord1; rw [m]; rfl) (by delta decodeRaw; simp only [m]; delta decGauss; simp only [f0]; rw [bv_of f23, bv_of f20, bv_of f13, bv_of f11, bv_of f6])

theorem Laws.FieldsRead.gpack (x0 : BitVec 3) (x1 : BitVec 4) (x2 : BitVec 5) : Laws.FieldsRead.Statement (.gpack x0 x1 x2) := by
  have h0 := x0.isLt
  have h1 := x1.isLt
  have h2 := x2.isLt
  obtain ⟨hw, m, f23, f20, f17, f13, f11, f6, f0⟩ := @encT_fields 46 x0.toNat 0 0 x1.toNat 0 x2.toNat 3 (by decide) (by omega) (by decide) (by decide) (by omega) (by decide) (by omega) (by decide)
  exact fieldsRead_one _ rfl hw (by delta hasWord1; rw [m]; rfl) (by delta decodeRaw; simp only [m]; delta decGauss; simp only [f0]; rw [bv_of f23, bv_of f13, bv_of f6])

theorem Laws.FieldsRead.gunpk (x0 : BitVec 3) (x1 : BitVec 4) (x2 : BitVec 5) : Laws.FieldsRead.Statement (.gunpk x0 x1 x2) := by
  have h0 := x0.isLt
  have h1 := x1.isLt
  have h2 := x2.isLt
  obtain ⟨hw, m, f23, f20, f17, f13, f11, f6, f0⟩ := @encT_fields 46 x0.toNat 0 0 x1.toNat 0 x2.toNat 4 (by decide) (by omega) (by decide) (by decide) (by omega) (by decide) (by omega) (by decide)
  exact fieldsRead_one _ rfl hw (by delta hasWord1; rw [m]; rfl) (by delta decodeRaw; simp only [m]; delta decGauss; simp only [f0]; rw [bv_of f23, bv_of f13, bv_of f6])

theorem Laws.FieldsRead.ewait (x0 : BitVec 3) : Laws.FieldsRead.Statement (.ewait x0) := by
  have h0 := x0.isLt
  obtain ⟨hw, m, f21, f16, f11, f6, f0⟩ := @encR_fields 47 0 0 0 x0.toNat 0 (by decide) (by decide) (by decide) (by decide) (by omega) (by decide)
  exact fieldsRead_one _ rfl hw (by delta hasWord1; rw [m]; rfl) (by delta decodeRaw; simp only [m]; delta decEng; simp only [f0]; rw [(bv_of (by simp only [fld] at *; omega) : bv 3 (encR 47 0 0 0 x0.toNat 0) 6 = x0)])

theorem Laws.FieldsRead.estat (x0 : BitVec 5) (x1 : BitVec 3) : Laws.FieldsRead.Statement (.estat x0 x1) := by
  have h0 := x0.isLt
  have h1 := x1.isLt
  obtain ⟨hw, m, f21, f16, f11, f6, f0⟩ := @encR_fields 47 x0.toNat 0 0 x1.toNat 1 (by decide) (by omega) (by decide) (by decide) (by omega) (by decide)
  exact fieldsRead_one _ rfl hw (by delta hasWord1; rw [m]; rfl) (by delta decodeRaw; simp only [m]; delta decEng; simp only [f0]; rw [bv_of f21, (bv_of (by simp only [fld] at *; omega) : bv 3 (encR 47 x0.toNat 0 0 x1.toNat 1) 6 = x1)])

theorem Laws.FieldsRead.handlerMessage : Laws.FieldsRead.Statement (.handlerMessage) :=
  fun h : false = true => Bool.noConfusion h

theorem Laws.FieldsRead.depositMessage : Laws.FieldsRead.Statement (.depositMessage) :=
  fun h : false = true => Bool.noConfusion h

theorem Laws.FieldsRead.messageAcceptance : Laws.FieldsRead.Statement (.messageAcceptance) :=
  fun h : false = true => Bool.noConfusion h

theorem Laws.FieldsRead.messageRefusal : Laws.FieldsRead.Statement (.messageRefusal) :=
  fun h : false = true => Bool.noConfusion h

theorem Laws.FieldsRead.refusalBackoffExpiry (x0 : CoreId) (x1 : Nat) (x2 : CoreId) : Laws.FieldsRead.Statement (.refusalBackoffExpiry x0 x1 x2) :=
  fun h : false = true => Bool.noConfusion h

theorem Laws.FieldsRead.spawnRequest : Laws.FieldsRead.Statement (.spawnRequest) :=
  fun h : false = true => Bool.noConfusion h

theorem Laws.FieldsRead.spawnAnswer : Laws.FieldsRead.Statement (.spawnAnswer) :=
  fun h : false = true => Bool.noConfusion h

theorem Laws.FieldsRead.aqRequest : Laws.FieldsRead.Statement (.aqRequest) :=
  fun h : false = true => Bool.noConfusion h

theorem Laws.FieldsRead.aqAnswer : Laws.FieldsRead.Statement (.aqAnswer) :=
  fun h : false = true => Bool.noConfusion h

theorem Laws.FieldsRead.copyNotice : Laws.FieldsRead.Statement (.copyNotice) :=
  fun h : false = true => Bool.noConfusion h

theorem Laws.FieldsRead.latchArrival : Laws.FieldsRead.Statement (.latchArrival) :=
  fun h : false = true => Bool.noConfusion h

theorem Laws.FieldsRead.windowAccess : Laws.FieldsRead.Statement (.windowAccess) :=
  fun h : false = true => Bool.noConfusion h

theorem Laws.FieldsRead.atomicAtHome : Laws.FieldsRead.Statement (.atomicAtHome) :=
  fun h : false = true => Bool.noConfusion h

theorem Laws.FieldsRead.writeAtHome : Laws.FieldsRead.Statement (.writeAtHome) :=
  fun h : false = true => Bool.noConfusion h

theorem Laws.FieldsRead.lineFill : Laws.FieldsRead.Statement (.lineFill) :=
  fun h : false = true => Bool.noConfusion h

theorem Laws.FieldsRead.writeAcknowledgement : Laws.FieldsRead.Statement (.writeAcknowledgement) :=
  fun h : false = true => Bool.noConfusion h

theorem Laws.FieldsRead.releaseComplete (x0 : CoreId) (x1 : CtxId) : Laws.FieldsRead.Statement (.releaseComplete x0 x1) :=
  fun h : false = true => Bool.noConfusion h

theorem Laws.FieldsRead.stampDrain : Laws.FieldsRead.Statement (.stampDrain) :=
  fun h : false = true => Bool.noConfusion h

theorem Laws.FieldsRead.lifeguardVerdict : Laws.FieldsRead.Statement (.lifeguardVerdict) :=
  fun h : false = true => Bool.noConfusion h

theorem Laws.FieldsRead.logDeferredTrapRecord (x0 : CoreId) : Laws.FieldsRead.Statement (.logDeferredTrapRecord x0) :=
  fun h : false = true => Bool.noConfusion h

theorem Laws.FieldsRead.pipeFarEndUpdate : Laws.FieldsRead.Statement (.pipeFarEndUpdate) :=
  fun h : false = true => Bool.noConfusion h

theorem Laws.FieldsRead.pipeDeparture : Laws.FieldsRead.Statement (.pipeDeparture) :=
  fun h : false = true => Bool.noConfusion h

theorem Laws.FieldsRead.groupArrival : Laws.FieldsRead.Statement (.groupArrival) :=
  fun h : false = true => Bool.noConfusion h

theorem Laws.FieldsRead.groupEpisodeComplete : Laws.FieldsRead.Statement (.groupEpisodeComplete) :=
  fun h : false = true => Bool.noConfusion h

theorem Laws.FieldsRead.waitlimExpiry (x0 : CoreId) (x1 : CtxId) : Laws.FieldsRead.Statement (.waitlimExpiry x0 x1) :=
  fun h : false = true => Bool.noConfusion h

theorem Laws.FieldsRead.idleExpiry (x0 : CoreId) (x1 : CtxId) : Laws.FieldsRead.Statement (.idleExpiry x0 x1) :=
  fun h : false = true => Bool.noConfusion h

theorem Laws.FieldsRead.dispatcherScan (x0 : CoreId) : Laws.FieldsRead.Statement (.dispatcherScan x0) :=
  fun h : false = true => Bool.noConfusion h

theorem Laws.FieldsRead.serviceAdmission (x0 : CoreId) : Laws.FieldsRead.Statement (.serviceAdmission x0) :=
  fun h : false = true => Bool.noConfusion h

theorem Laws.FieldsRead.pailCleared (x0 : CoreId) (x1 : Nat) : Laws.FieldsRead.Statement (.pailCleared x0 x1) :=
  fun h : false = true => Bool.noConfusion h

theorem Laws.FieldsRead.matrixCommandDone (x0 : CoreId) (x1 : CtxId) (x2 : MatrixEnd) : Laws.FieldsRead.Statement (.matrixCommandDone x0 x1 x2) :=
  fun h : false = true => Bool.noConfusion h

theorem Laws.FieldsRead.vectorCommandDone (x0 : CoreId) (x1 : CtxId) (x2 : Bool) : Laws.FieldsRead.Statement (.vectorCommandDone x0 x1 x2) :=
  fun h : false = true => Bool.noConfusion h

theorem Laws.FieldsRead.copyCommandDone (x0 : CoreId) (x1 : CtxId) : Laws.FieldsRead.Statement (.copyCommandDone x0 x1) :=
  fun h : false = true => Bool.noConfusion h

theorem Laws.FieldsRead.copyHandback (x0 : CoreId) (x1 : CtxId) : Laws.FieldsRead.Statement (.copyHandback x0 x1) :=
  fun h : false = true => Bool.noConfusion h

theorem Laws.FieldsRead.translationRequest : Laws.FieldsRead.Statement (.translationRequest) :=
  fun h : false = true => Bool.noConfusion h

theorem Laws.FieldsRead.pageWalk : Laws.FieldsRead.Statement (.pageWalk) :=
  fun h : false = true => Bool.noConfusion h

theorem Laws.FieldsRead.translationAnswer : Laws.FieldsRead.Statement (.translationAnswer) :=
  fun h : false = true => Bool.noConfusion h

theorem Laws.FieldsRead.shootdownRequest : Laws.FieldsRead.Statement (.shootdownRequest) :=
  fun h : false = true => Bool.noConfusion h

theorem Laws.FieldsRead.shootdownAck : Laws.FieldsRead.Statement (.shootdownAck) :=
  fun h : false = true => Bool.noConfusion h

theorem Laws.FieldsRead.vatResizeSweep (x0 : Nat) (x1 : Nat) (x2 : CoreId) : Laws.FieldsRead.Statement (.vatResizeSweep x0 x1 x2) :=
  fun h : false = true => Bool.noConfusion h

theorem Laws.FieldsRead.dualProbe (x0 : Nat) (x1 : Nat) (x2 : Nat) : Laws.FieldsRead.Statement (.dualProbe x0 x1 x2) :=
  fun h : false = true => Bool.noConfusion h

theorem Laws.FieldsRead.lineMove (x0 : Nat) (x1 : Nat) (x2 : Nat) : Laws.FieldsRead.Statement (.lineMove x0 x1 x2) :=
  fun h : false = true => Bool.noConfusion h

theorem Laws.FieldsRead.vatcfgCompletion (x0 : Nat) (x1 : Nat) : Laws.FieldsRead.Statement (.vatcfgCompletion x0 x1) :=
  fun h : false = true => Bool.noConfusion h

theorem Laws.FieldsRead.shareOffline (x0 : Nat) (x1 : Nat) (x2 : Nat) : Laws.FieldsRead.Statement (.shareOffline x0 x1 x2) :=
  fun h : false = true => Bool.noConfusion h

theorem Laws.FieldsRead.eccCorrected (x0 : EccPlace) : Laws.FieldsRead.Statement (.eccCorrected x0) :=
  fun h : false = true => Bool.noConfusion h

theorem Laws.FieldsRead.uncorrectableError (x0 : ErrPlace) : Laws.FieldsRead.Statement (.uncorrectableError x0) :=
  fun h : false = true => Bool.noConfusion h

theorem Laws.FieldsRead.timingReplay (x0 : CoreId) (x1 : ReplayFail) : Laws.FieldsRead.Statement (.timingReplay x0 x1) :=
  fun h : false = true => Bool.noConfusion h

theorem Laws.FieldsRead.heartbeatTimeout (x0 : CoreId) : Laws.FieldsRead.Statement (.heartbeatTimeout x0) :=
  fun h : false = true => Bool.noConfusion h

theorem Laws.FieldsRead.memberLoss (x0 : CoreId) : Laws.FieldsRead.Statement (.memberLoss x0) :=
  fun h : false = true => Bool.noConfusion h

theorem Laws.FieldsRead.suspectSelfTest (x0 : CoreId) : Laws.FieldsRead.Statement (.suspectSelfTest x0) :=
  fun h : false = true => Bool.noConfusion h

theorem Laws.FieldsRead.launchDoorbell (x0 : Nat) (x1 : Word) : Laws.FieldsRead.Statement (.launchDoorbell x0 x1) :=
  fun h : false = true => Bool.noConfusion h

theorem Laws.FieldsRead.launchPost : Laws.FieldsRead.Statement (.launchPost) :=
  fun h : false = true => Bool.noConfusion h

theorem Laws.FieldsRead.launchNotice : Laws.FieldsRead.Statement (.launchNotice) :=
  fun h : false = true => Bool.noConfusion h

theorem Laws.FieldsRead.gangPlacement (x0 : Nat) : Laws.FieldsRead.Statement (.gangPlacement x0) :=
  fun h : false = true => Bool.noConfusion h

theorem Laws.FieldsRead.gangStart (x0 : Nat) : Laws.FieldsRead.Statement (.gangStart x0) :=
  fun h : false = true => Bool.noConfusion h

theorem Laws.FieldsRead.gangCompletion (x0 : Nat) : Laws.FieldsRead.Statement (.gangCompletion x0) :=
  fun h : false = true => Bool.noConfusion h

theorem Laws.FieldsRead.deadlineExpiry (x0 : Nat) (x1 : Nat) : Laws.FieldsRead.Statement (.deadlineExpiry x0 x1) :=
  fun h : false = true => Bool.noConfusion h

theorem Laws.FieldsRead.preemptStarvation (x0 : Nat) : Laws.FieldsRead.Statement (.preemptStarvation x0) :=
  fun h : false = true => Bool.noConfusion h

theorem Laws.FieldsRead.preemptBudgetExpiry (x0 : Nat) : Laws.FieldsRead.Statement (.preemptBudgetExpiry x0) :=
  fun h : false = true => Bool.noConfusion h

theorem Laws.FieldsRead.memberSave (x0 : CoreId) : Laws.FieldsRead.Statement (.memberSave x0) :=
  fun h : false = true => Bool.noConfusion h

theorem Laws.FieldsRead.gangRestore (x0 : Nat) : Laws.FieldsRead.Statement (.gangRestore x0) :=
  fun h : false = true => Bool.noConfusion h

theorem Laws.FieldsRead.faultRecord (x0 : Nat) : Laws.FieldsRead.Statement (.faultRecord x0) :=
  fun h : false = true => Bool.noConfusion h

theorem Laws.FieldsRead.packetEscape : Laws.FieldsRead.Statement (.packetEscape) :=
  fun h : false = true => Bool.noConfusion h

theorem Laws.FieldsRead.packetAgeSaturation : Laws.FieldsRead.Statement (.packetAgeSaturation) :=
  fun h : false = true => Bool.noConfusion h

theorem Laws.FieldsRead.hostWindowRead (x0 : Nat) (x1 : Nat) (x2 : Nat) : Laws.FieldsRead.Statement (.hostWindowRead x0 x1 x2) :=
  fun h : false = true => Bool.noConfusion h

theorem Laws.FieldsRead.hostWindowWrite (x0 : Nat) (x1 : Nat) (x2 : List Byte) : Laws.FieldsRead.Statement (.hostWindowWrite x0 x1 x2) :=
  fun h : false = true => Bool.noConfusion h

theorem Laws.FieldsRead.hostWriteFlushComplete (x0 : Nat) : Laws.FieldsRead.Statement (.hostWriteFlushComplete x0) :=
  fun h : false = true => Bool.noConfusion h

theorem Laws.FieldsRead.hostReadTimeout : Laws.FieldsRead.Statement (.hostReadTimeout) :=
  fun h : false = true => Bool.noConfusion h

theorem Laws.FieldsRead.hostLinkDown (x0 : Nat) : Laws.FieldsRead.Statement (.hostLinkDown x0) :=
  fun h : false = true => Bool.noConfusion h

theorem Laws.FieldsRead.blulinInboundRequest (x0 : Nat) (x1 : Nat) (x2 : Nat) (x3 : PeerOp) (x4 : Nat) : Laws.FieldsRead.Statement (.blulinInboundRequest x0 x1 x2 x3 x4) :=
  fun h : false = true => Bool.noConfusion h

theorem Laws.FieldsRead.blulinPeerTimeout (x0 : Nat) : Laws.FieldsRead.Statement (.blulinPeerTimeout x0) :=
  fun h : false = true => Bool.noConfusion h

theorem Laws.FieldsRead.qpTailPoll (x0 : Nat) : Laws.FieldsRead.Statement (.qpTailPoll x0) :=
  fun h : false = true => Bool.noConfusion h

theorem Laws.FieldsRead.qpWorkCompletion (x0 : Nat) (x1 : Nat) : Laws.FieldsRead.Statement (.qpWorkCompletion x0 x1) :=
  fun h : false = true => Bool.noConfusion h

theorem Laws.FieldsRead.rdmaInbound (x0 : Nat) (x1 : PeerOp) (x2 : Word) : Laws.FieldsRead.Statement (.rdmaInbound x0 x1 x2) :=
  fun h : false = true => Bool.noConfusion h

theorem Laws.FieldsRead.moduleBringUp (x0 : BootImages) (x1 : List CoreId) : Laws.FieldsRead.Statement (.moduleBringUp x0 x1) :=
  fun h : false = true => Bool.noConfusion h

theorem Laws.FieldsRead.pcieConfigRequest (x0 : Nat) : Laws.FieldsRead.Statement (.pcieConfigRequest x0) :=
  fun h : false = true => Bool.noConfusion h

theorem Laws.FieldsRead.create : Laws.FieldsRead.Statement (.create) :=
  fun h : false = true => Bool.noConfusion h

theorem Laws.FieldsRead.reset : Laws.FieldsRead.Statement (.reset) :=
  fun h : false = true => Bool.noConfusion h

theorem Laws.FieldsRead.destroy : Laws.FieldsRead.Statement (.destroy) :=
  fun h : false = true => Bool.noConfusion h

theorem Laws.FieldsRead.setWindow : Laws.FieldsRead.Statement (.setWindow) :=
  fun h : false = true => Bool.noConfusion h

theorem Laws.FieldsRead.preempt : Laws.FieldsRead.Statement (.preempt) :=
  fun h : false = true => Bool.noConfusion h

theorem Laws.FieldsRead.kill : Laws.FieldsRead.Statement (.kill) :=
  fun h : false = true => Bool.noConfusion h

theorem Laws.FieldsRead.setCap : Laws.FieldsRead.Statement (.setCap) :=
  fun h : false = true => Bool.noConfusion h

theorem Laws.FieldsRead.attest : Laws.FieldsRead.Statement (.attest) :=
  fun h : false = true => Bool.noConfusion h

theorem Laws.FieldsRead.createQp : Laws.FieldsRead.Statement (.createQp) :=
  fun h : false = true => Bool.noConfusion h

theorem Laws.FieldsRead.destroyQp : Laws.FieldsRead.Statement (.destroyQp) :=
  fun h : false = true => Bool.noConfusion h

theorem Laws.FieldsRead.regRegion : Laws.FieldsRead.Statement (.regRegion) :=
  fun h : false = true => Bool.noConfusion h

theorem Laws.FieldsRead.deregRegion : Laws.FieldsRead.Statement (.deregRegion) :=
  fun h : false = true => Bool.noConfusion h

theorem Laws.FieldsRead.readLog : Laws.FieldsRead.Statement (.readLog) :=
  fun h : false = true => Bool.noConfusion h

theorem Laws.FieldsRead.registerWrite (x0 : Nat) (x1 : Word) : Laws.FieldsRead.Statement (.registerWrite x0 x1) :=
  fun h : false = true => Bool.noConfusion h

theorem Laws.FieldsRead.powerStepAdjust (x0 : Nat) (x1 : BitVec 16) : Laws.FieldsRead.Statement (.powerStepAdjust x0 x1) :=
  fun h : false = true => Bool.noConfusion h

theorem Laws.FieldsRead.skimmerLineRead (x0 : Nat) (x1 : SkimFind) : Laws.FieldsRead.Statement (.skimmerLineRead x0 x1) :=
  fun h : false = true => Bool.noConfusion h

theorem Laws.FieldsRead.illegalEncoding (x0 : BitVec 32) : Laws.FieldsRead.Statement (.illegalEncoding x0) :=
  fun h : false = true => Bool.noConfusion h

theorem Laws.FieldsRead.instructionFetchFault (x0 : FetchFault) : Laws.FieldsRead.Statement (.instructionFetchFault x0) :=
  fun h : false = true => Bool.noConfusion h

theorem Laws.FieldsRead.addressWaitEntry : Laws.FieldsRead.Statement (.addressWaitEntry) :=
  fun h : false = true => Bool.noConfusion h

theorem Laws.FieldsRead.logReadPointerAdvance : Laws.FieldsRead.Statement (.logReadPointerAdvance) :=
  fun h : false = true => Bool.noConfusion h

theorem Laws.FieldsRead.hostReadCompletion (x0 : Bool) : Laws.FieldsRead.Statement (.hostReadCompletion x0) :=
  fun h : false = true => Bool.noConfusion h

theorem Laws.FieldsRead.commandDoorbell (x0 : PortWrite) : Laws.FieldsRead.Statement (.commandDoorbell x0) :=
  fun h : false = true => Bool.noConfusion h

theorem Laws.FieldsRead.arpNeighbourDiscovery (x0 : Nat) (x1 : BitVec 48) : Laws.FieldsRead.Statement (.arpNeighbourDiscovery x0 x1) :=
  fun h : false = true => Bool.noConfusion h

end Sys2Proof
end

