-- ==== Sys2Proof/Laws/Retire.lean ====
section
/-! SUPPORT. What retiring and waiting leave, once for every instruction: the frame of a result, of a jump and of a wait. -/
namespace Sys2Proof.Machine

/-! ## Bytes -/

@[simp] theorem State.byteAt_onCx (s : State) (f : Context → Context) (p : Spot) : (s.onCx f).byteAt p = s.byteAt p := by
  cases p with
  | hbm a => rfl
  | host a => rfl
  | peer a => rfl
  | localMem c off => by_cases h : c = s.meId <;> simp [State.byteAt, State.core, h]
  | l1 c pa => by_cases h : c = s.meId <;> simp [State.byteAt, State.core, h, Core.l1Line?]
  | slice c tn vat base a => rfl

/-- Where the issuing core is the same outside its contexts and the rest of the module is the same, every byte is. -/
theorem State.byteAt_of_rest {s t : State} (h : t.onCx (fun _ => s.cx) = s) (p : Spot) : t.byteAt p = s.byteAt p := by
  rw [← State.byteAt_onCx t (fun _ => s.cx) p, h]

@[simp] theorem State.byteAt_sendPacket (s : State) (v q : BitVec 2) (b : Body) (p : Spot) :
    (s.sendPacket v q b).byteAt p = s.byteAt p := by cases p <;> rfl
@[simp] theorem State.byteAt_sendOn (s : State) (x : Packet) (v : BitVec 2) (b : Body) (p : Spot) :
    (s.sendOn x v b).byteAt p = s.byteAt p := by cases p <;> rfl

/-! ## Results -/

theorem State.finish_eq (s : State) (d : BitVec 5) (v : Word) (n : Nat) :
    s.finish d v n = s.onCx (fun x => { x.setG d v with pc := x.pc + BitVec.ofNat 64 (4 * n), op := {}, st := .ready }) := by
  simp [State.finish, State.retire]

/-- A context after a write of g[d], a retire to `pc` and flags that are ORed in. -/
theorem wrote_of (s : State) (d : BitVec 5) (v : Word) (f : BitVec 5) (pc : Word) :
    Wrote s (s.onCx (fun x => { (x.orFlags f).setG d v with pc := pc, op := {}, st := .ready })) d v f pc where
  value := by
    have := Context.rg_setG (s.cx.orFlags f) d d v
    simpa [Context.rg] using this
  others n h := by
    have := Context.rg_setG (s.cx.orFlags f) d n v
    simpa [Context.rg, h, Context.orFlags] using this
  counted := by simp [Context.wroteG_setG, Context.orFlags]
  flags := by simp [Context.orFlags]
  pc := by simp
  ready := by simp
  settled := by simp
  context := by
    by_cases hd : d = 0#5 <;> simp [hd, Context.setG, Context.orFlags]
  rest := by simp
  memory p := by simp

theorem orFlags_zero (x : Context) : x.orFlags 0#5 = x := by simp [Context.orFlags]

/-- What `finish` leaves: the register written and the instruction passed. -/
theorem State.finish_wrote (s : State) (d : BitVec 5) (v : Word) (n : Nat) :
    Wrote s (s.finish d v n) d v 0#5 (s.cx.pc + BitVec.ofNat 64 (4 * n)) := by
  have h := wrote_of s d v 0#5 (s.cx.pc + BitVec.ofNat 64 (4 * n))
  have e : s.finish d v n = s.onCx (fun x => { (x.orFlags 0#5).setG d v with pc := s.cx.pc + BitVec.ofNat 64 (4 * n), op := {}, st := .ready }) := by
    simp [State.finish_eq, State.onCx, State.cx, orFlags_zero]
  rw [e]; exact h

/-- What a retire leaves: the instruction passed. -/
theorem State.retire_passed (s : State) (n : Nat) : Passed s (s.retire n) (s.cx.pc + BitVec.ofNat 64 (4 * n)) := by
  have h := State.finish_wrote s 0#5 0#64 n
  have e : s.finish 0#5 0#64 n = s.retire n := by simp [State.finish_eq, State.retire]
  rwa [e] at h

/-- What a jump leaves. -/
theorem State.retireTo_passed (s : State) (pc : Word) : Passed s (s.retireTo pc) pc := by
  have h := wrote_of s 0#5 0#64 0#5 pc
  have e : s.onCx (fun x => { (x.orFlags 0#5).setG 0#5 0#64 with pc := pc, op := {}, st := .ready }) = s.retireTo pc := by
    simp [State.retireTo, State.onCx, orFlags_zero]
  rwa [e] at h

/-- What a wait leaves. -/
theorem State.await_waits (s : State) (w : WaitKind) (timed : Bool) (ph : Nat) : Waits s (s.await w timed ph) w timed ph where
  waiting := by simp [State.await]
  wait := by simp [State.await]
  context := by simp [State.await]
  rest := by simp [State.await]

/-! ## Guards that let an instruction go on -/

theorem State.withDest_of (s : State) (d : BitVec 5) (f : State → State) (h : s.cx.mayG d = true) : s.withDest d f = f s := by
  simp [State.withDest, h]

theorem State.withDest_not (s : State) (d : BitVec 5) (f : State → State) (h : s.cx.mayG d = false) :
    s.withDest d f = s.trap { cause := .illegal } := by
  simp [State.withDest, h, State.trapPlain]

theorem State.withPriv_not (s : State) (f : State → State) (h : s.cx.sup = false) : s.withPriv f = s.trap { cause := .priv } := by
  simp [State.withPriv, h, State.trapPlain]

theorem State.withLog_of (s : State) (i : LogItem) (f : State → State) (h : s.mayLog i) : s.withLog i f = f (s.logged i) := by
  unfold State.mayLog at h; simp [State.withLog, h, State.logged]

theorem State.withCount_of (s : State) (sc : Scope) (f : State → State) (h : s.countRoom sc = true) : s.withCount sc f = f s := by
  simp [State.withCount, h]

theorem State.afterRel_of (s : State) (key n : Nat) (f : State → State) (h : s.cx.relOverlaps key n = false) :
    s.afterRel key n f = f s := by simp [State.afterRel, h]

theorem State.withRelease_of (s : State) (sc : Scope) (ph : Nat) (f : State → State) (h : s.mayRelease sc ph) :
    s.withRelease sc ph f = f (s.afterRelease sc ph) := by
  rw [State.withRelease, h.1]
  exact if_pos h.2

/-! ## Addresses -/

theorem State.withTargetOr_self (s : State) (va n : Nat) (k : Access) (atomic : Bool) (bad : State → TrapInfo → State)
    (f : State → Tgt → State) (off : Nat) (h : s.reachesSelf va n atomic off) :
    s.withTargetOr va n k atomic bad f = f s (.self off) := by
  obtain ⟨h1, h2, h3, h4, h5⟩ := h
  simp [State.withTargetOr, h1, h2, h3, h4, h5]

theorem State.withTargetOr_core (s : State) (va n : Nat) (k : Access) (atomic : Bool) (bad : State → TrapInfo → State)
    (f : State → Tgt → State) (dst : CoreId) (off : Nat) (h : s.reachesCore va n dst off) :
    s.withTargetOr va n k atomic bad f = f s (.core dst off) := by
  obtain ⟨h1, h2, h3, h4⟩ := h
  simp [State.withTargetOr, h1, h2, h3, h4]

theorem State.withXlOr_of (s : State) (va : Nat) (k : Access) (bad : State → TrapInfo → State) (f : State → Xl → State)
    (e : PageEntry) (h : s.atHand va k e) : s.withXlOr va k bad f = f (s.used e) (e.xl va) := by
  obtain ⟨h0, t, h1, h2, h3⟩ := h
  simp only [State.withXlOr, h0, h1, Bool.false_eq_true, if_false]
  rw [h2]
  simp [h3, State.used]

theorem State.withTargetOr_page (s : State) (va n : Nat) (k : Access) (atomic : Bool) (bad : State → TrapInfo → State)
    (f : State → Tgt → State) (e : PageEntry) (h : s.reachesPage va n k e) :
    s.withTargetOr va n k atomic bad f = f (s.used e) (.paged (e.xl va)) := by
  obtain ⟨h1, h2, h3, h4⟩ := h
  simp [State.withTargetOr, h1, h2, h3, State.withXlOr_of _ _ _ _ _ _ h4]

end Sys2Proof.Machine
end

