-- ==== Sys2Proof/Laws/Walk.lean ====
section
/-! SUPPORT. What walks and a unit's accesses to virtual memory leave: the canonical form of the memories. -/
namespace Sys2Proof.Machine

theorem State.onTHome_form (s : State) (id : CoreId) (f : THome → THome) (h : s.memoryForm) : (s.onTHome id f).memoryForm := h

theorem State.walkFrom_form (n : Nat) : ∀ (s : State) (t : Tenant) (va : Nat) (k : Access) (user pref : Bool) (table : Nat),
    s.memoryForm → (s.walkFrom t va k user pref table n).1.memoryForm := by
  induction n with
  | zero => intro s t va k user pref table h; exact h
  | succ n ih =>
    intro s t va k user pref table h
    have h1 := State.readPhys_form s t (table + 8 * fld va (12 + 9 * n) 9) h
    simp only [State.walkFrom]
    split
    · exact h1
    · split
      · exact h1
      · exact ih _ _ _ _ _ _ _ h1
      · split
        · exact h1
        · split
          · exact h1
          · split
            · split
              · exact h1
              · exact State.performPhys_form _ _ _ _ h1
            · split
              · exact h1
              · exact State.performPhys_form _ _ _ _ h1

theorem State.walkAt_form (s : State) (t : Tenant) (home : CoreId) (va : Nat) (k : Access) (user pref wr once : Bool) (h : s.memoryForm) :
    (s.walkAt t home va k user pref wr once).1.memoryForm := by
  simp only [State.walkAt]
  split
  · split
    · exact h
    · split
      · exact h
      · split
        · exact h
        · exact State.onTHome_form _ _ _ h
  · have h1 := State.walkFrom_form ((s.thome home).start t va 4).2 s t va k user pref ((s.thome home).start t va 4).1 h
    split
    · exact h1
    · split
      · exact State.onTHome_form _ _ _ h1
      · exact State.onTHome_form _ _ _ h1

theorem State.xlateNow_form (s : State) (tn die va : Nat) (k : Access) (user : Bool) (h : s.memoryForm) :
    (s.xlateNow tn die va k user).1.memoryForm := by
  simp only [State.xlateNow]
  split
  · exact h
  · split
    · exact h
    · split
      · exact h
      · split
        · exact h
        · exact State.walkAt_form _ _ _ _ _ _ _ _ _ h

/-- A unit's translation keeps the canonical form. -/
theorem State.unitXl_form (s : State) (tn die va : Nat) (k : Access) (user : Bool) (h : s.memoryForm) :
    (s.unitXl tn die va k user).1.memoryForm := by
  have h1 := State.xlateNow_form s tn die va k user h
  unfold State.unitXl
  split <;> rename_i e <;> rw [e] at h1 <;> exact h1

/-- A unit's read keeps the canonical form. -/
theorem State.unitRead_form (tn die : Nat) (user : Bool) (f : Nat) : ∀ (s : State) (va n : Nat), s.memoryForm →
    (s.unitRead tn die user f va n).1.memoryForm := by
  induction f with
  | zero => intro s va n h; exact h
  | succ f ih =>
    intro s va n h
    have h1 := State.unitXl_form s tn die va .read user h
    simp only [State.unitRead]
    split
    · exact h
    · split
      · rename_i t s1 xl _ e
        rw [e] at h1
        have h2 := State.readHome_form _ t die xl (lineRest va n) true h1
        split
        · exact h1
        split
        · exact h2
        · have h3 := ih _ (va + lineRest va n) (n - lineRest va n) h2
          split <;> rename_i e2 <;> rw [e2] at h3 <;> exact h3
      · rename_i e; rw [e] at h1; exact h1
      · rename_i e; rw [e] at h1; exact h1

theorem State.unitDwords_form (s : State) (tn die : Nat) (user : Bool) (va n : Nat) (h : s.memoryForm) :
    (s.unitDwords tn die user va n).1.memoryForm := by
  have h1 := State.unitRead_form tn die user (n / 8 + 2) s va (8 * n) h
  unfold State.unitDwords
  split <;> rename_i e <;> rw [e] at h1 <;> exact h1

/-- A unit's write keeps the canonical form. -/
theorem State.unitWrite_form (tn die : Nat) (user : Bool) (f : Nat) : ∀ (s : State) (va : Nat) (bs : List Byte), s.memoryForm →
    (s.unitWrite tn die user f va bs).1.memoryForm := by
  induction f with
  | zero => intro s va bs h; exact h
  | succ f ih =>
    intro s va bs h
    have h1 := State.unitXl_form s tn die va .write user h
    simp only [State.unitWrite]
    split
    · exact h
    · split
      · rename_i e
        rw [e] at h1
        split
        · exact h1
        exact ih _ _ _ (State.performAll_form _ _ _ _ _ _ h1)
      · rename_i e; rw [e] at h1; exact h1
      · rename_i e; rw [e] at h1; exact h1

end Sys2Proof.Machine
end

