-- ==== Sys2Proof/Tests/Slice0.lean ====
section
/-! SUPPORT. The model's own tests: ill-formed instructions, words written out from R264 to R266, one step on small states with
results worked out by hand from the rules, and for every statement a state and operands that meet its hypotheses. -/
namespace Sys2Proof.Tests
open Sys2Proof Sys2Proof.Machine
set_option Elab.async false

/-! ## Small states -/

/-- A tenant of two clusters on die 0 whose range starts at 2 MiB, with a valid vat 0 that has one share. -/
def ten : Tenant :=
  { id := 0, key := 1, clusters := [mkCore 0 0 0 0, mkCore 0 1 0 0], ranges := [(0x200000, 0x200000)]
    vats := [{ index := 0, valid := true, cur := { shares := [{ slice := mkCore 0 1 0 0, bank := 0#3, ways := 0xFFFF#16 }], gen := 1#16 } }] }

/-- The issuing context: supervisor mode, all registers and tiles declared. -/
def cx0 : Context := { st := .running, pc := 0x1000#64, sup := true, act := { sregs := 31, tiles := 8, serial := 1, begun := true } }

/-- The issuing core, which serves gang 1. -/
def me0 : Core := { gang := some 1, sup := true, ctx0 := cx0, cur := 0#2, serial := 2 }

/-- The module with that core in focus. -/
def base : State := { me := me0, tenants := [ten], tick := 4, nextPkt := 9 }

/-- The issuing context changed. -/
def with_ (f : Context → Context) : State := base.onCx f

/-- Some scalar registers of the issuing context set. -/
def regs (l : List (BitVec 5 × Word)) : State :=
  base.onCx (fun x => l.foldl (fun (x : Context) p => { x with g := x.g.set p.1.toNat p.2 }) x)

/-- The instruction answers a next state that passes a check. -/
def runs (i : Instr) (s : State) (p : State → Bool) : Bool := match exec i s with | .next t => p t | _ => false

/-- The instruction retires with a value in a register and FFLAGS. -/
def gives (s : State) (d : BitVec 5) (i : Instr) (v : Nat) (f : BitVec 5 := 0#5) : Bool :=
  runs i s (fun t => (t.cx.rg d).toNat = v && t.cx.pc = s.cx.pc + 4#64 && t.cx.st = .ready && t.cx.fflags = f)

/-- The instruction traps with a cause and an address, recorded for the tenant. -/
def traps (s : State) (i : Instr) (c : Cause) (a : Word) : Bool :=
  runs i s (fun t => t.tenants.any (fun u => u.records.any (fun r => r.cause = c && r.w18 = a)))

/-! ## Ill-formed instructions (R264, R266, R267) -/

theorem test_illformed : ∀ i ∈ [Instr.sext 1 2 3, .zext 1 2 3, .fadd 1 2 3 4, .fsub 1 2 3 5, .fmul 1 2 3 6, .fdiv 1 2 3 8, .fsqrt 1 2 4, .fcvtif 1 2 31,
    .fcvtfi 1 2 4, .ffma 1 2 3 4 4, .ld 1 2 0 0 0 3, .lds 1 2 0 1 0 0, .st 1 2 0 1 0 2, .amoadd 1 2 3 0 0 0, .amoswp 1 2 3 1 2 0, .amoand 0 2 3 0 2 1,
    .amoor 0 2 3 0 2 3, .amoxor 1 2 3 0 1 0, .amomin 1 2 3 3 3 0, .amomax 1 2 3 0 0 1, .amominu 1 2 3 0 1 2, .amomaxu 0 2 3 0 3 1, .amofadd 1 2 3 0 3 0,
    .amofmin 1 2 3 0 3 0, .amofmax 1 2 3 0 3 0, .amocas 0 2 3 0 2 0, .waita 1 2 3 4 0 6, .spawn 31 2 3, .gred 1 2 6 0, .qwait 0 1 2 1, .qfree 0 1 2 1, .qadv 4 1 1,
    .grpcfg 1 2 1, .lgstat 1 2, .tld 0 8 1 0 0, .tld 0 0 1 0 2, .tldPipe 0 14 0 0, .tst 0 9 1 0 0, .tst 0 0 1 0 2, .tstPipe 0 8 0 0, .vadd 0 1 2 8 0, .vsub 0 1 2 9 0,
    .vmul 0 1 2 10 0, .vfma 0 1 2 11 0, .vmin 0 1 2 12 0, .vmax 0 1 2 13 0, .vabs 0 1 14 0, .vneg 0 1 8 0, .vdiv 0 1 2 8 0, .vrsqrt 0 1 8 0, .vexp2 0 1 8 0, .vlog2 0 1 8 0,
    .vcmp 0 1 8 0 1 0, .vcmp 0 1 0 0 0 0, .vcmp 0 1 0 0 1 4, .vsel 0 1 2 8 0, .vredsum 0 1 8 0, .vredmax 0 1 8 0, .vshuf 0 1 2 8 0, .viadd 0 1 2 8 0, .vimul 0 1 2 8 0,
    .vlogic 0 1 2 8 0 0, .vshift 0 1 2 8 0 0, .vcvt 0 1 8 0 0, .vcvt 0 1 0 0 3, .venc 0 1 8 0 3, .venc 0 1 0 0 4, .vdec 0 1 8 0 3, .vdec 0 1 0 0 7, .tmov 0 1 8 0, .tzero 0 8,
    .tbcast 0 8 0 1, .text 0 15 1, .mma 0 1 0 0 2, .mmas 0 1 2 0 0 3, .mmai 0 1 0 0 1, .brot 0 0 1, .cpy 1 2 3 0 8, .cpys 1 2 3 0 1 1, .cpys 0 31 3 0 1 1, .cpys 0 2 31 0 1 1,
    .cpyg 1 2 3 0 0 1, .cpyg 0 31 3 0 0 1, .cpyg 0 2 31 0 0 1, .cpyg 0 2 3 0 7 1, .gacc 1 0 2, .gacc 0 12 2, .gelim 1 0 0 2, .gelim 0 0 8 2, .gdamp 0 1 8 0 2,
    .gpack 0 8 2, .gpack 0 0 31, .gunpk 0 8 2], i.wf = false := by decide +kernel

/-! ## Words written out from the encoding tables (R264 to R266), one for each instruction -/

/-- The word decodes to the instruction. -/
def reads (p : Nat × Instr) : Bool := decide (decodeTableWord 32 p.1 = some p.2)

theorem test_decode_integer : ([
    (0b000001_10001_10110_11111_00000000000, .add 17 22 31),
    (0b000001_11011_10010_01001_00000000001, .sub 27 18 9),
    (0b000001_11010_10001_01000_00000000010, .and 26 17 8),
    (0b000001_00111_11110_11001_00000000011, .or 7 30 25),
    (0b000001_01011_10100_11101_00000000100, .xor 11 20 29),
    (0b000001_11110_00111_01100_00000000101, .shl 30 7 12),
    (0b000001_01010_00001_11000_00000000110, .shr 10 1 24),
    (0b000001_01001_00011_11111_00000000111, .sar 9 3 31),
    (0b000001_10110_10001_01000_00000001000, .rotr 22 17 8),
    (0b000001_11100_00101_01110_00000001001, .slt 28 5 14),
    (0b000001_01111_10100_11101_00000001010, .sltu 15 20 29),
    (0b000001_11001_10000_10111_00000001011, .min 25 16 23),
    (0b000001_11000_10111_01110_00000001100, .max 24 23 14),
    (0b000001_01001_00011_11011_00000001101, .minu 9 3 27),
    (0b000001_01101_10110_11111_00000001110, .maxu 13 22 31),
    (0b000001_11100_00101_01010_00000001111, .addw 28 5 10),
    (0b000001_01000_01111_00110_00000010000, .subw 8 15 6),
    (0b000010_01111_00110_0000010111011101, .addi 15 6 1501),
    (0b000011_11000_10011_0000001010001010, .andi 24 19 650),
    (0b000100_11110_00111_0000000100100000, .ori 30 7 288),
    (0b000101_01101_10010_0001011000111011, .xori 13 18 5691),
    (0b000110_00111_11110_0000101101110101, .slti 7 30 2933),
    (0b000111_11110_10101_0000010111001100, .sltiu 30 21 1484),
    (0b001000_01011_00010_011101_0000000000, .shli 11 2 29),
    (0b001000_01111_01000_110001_0000000001, .shri 15 8 49),
    (0b001000_11010_00011_101000_0000000010, .sari 26 3 40),
    (0b001000_10110_01101_100100_0000000011, .rotri 22 13 36),
    (0b001001_01101_00000_0000010111000100, .lih 13 1476)] : List (Nat × Instr)).all reads = true := by decide +kernel

theorem test_decode_muldiv_bits : ([
    (0b001011_11010_10101_01100_00000000000, .mul 26 21 12),
    (0b001011_10000_11001_00010_00000000001, .mulh 16 25 2),
    (0b001011_01011_10000_11001_00000000010, .mulhu 11 16 25),
    (0b001011_00101_11100_10011_00000000011, .div 5 28 19),
    (0b001011_11100_11011_10010_00000000100, .divu 28 27 18),
    (0b001011_01101_00100_11111_00000000101, .rem 13 4 31),
    (0b001011_00001_01010_10011_00000000110, .remu 1 10 19),
    (0b001100_11000_00001_0000000000000000, .clz 24 1),
    (0b001100_10100_01011_0000000000000001, .ctz 20 11),
    (0b001100_10011_01010_0000000000000010, .popc 19 10),
    (0b001100_11100_10111_00000_00001_000011, .sext 28 23 1),
    (0b001100_10010_11011_00000_00010_000100, .zext 18 27 2),
    (0b001100_01001_01110_10111_00000000101, .bext 9 14 23),
    (0b001100_00011_11010_10001_00000000110, .bins 3 26 17)] : List (Nat × Instr)).all reads = true := by decide +kernel

theorem test_decode_fp : ([
    (0b001101_00010_11001_10000_00011_000000, .fadd 2 25 16 3),
    (0b001101_01111_00110_00001_00111_000001, .fsub 15 6 1 7),
    (0b001101_00011_01100_10101_00011_000010, .fmul 3 12 21 3),
    (0b001101_10110_11111_00100_00111_000011, .fdiv 22 31 4 7),
    (0b001101_10010_01001_00000_00011_000100, .fsqrt 18 9 3),
    (0b001101_10001_01000_00111_00000000101, .fmin 17 8 7),
    (0b001101_11110_11001_10000_00000000110, .fmax 30 25 16),
    (0b001101_10100_11101_00110_00000000111, .feq 20 29 6),
    (0b001101_00111_01100_10101_00000001000, .flt 7 12 21),
    (0b001101_00001_11000_11111_00000001001, .fle 1 24 31),
    (0b001101_00011_11111_00000_00011_001010, .fcvtif 3 31 3),
    (0b001101_10001_01000_00000_00111_001011, .fcvtfi 17 8 7),
    (0b001101_00101_01110_0000000000001100, .fclass 5 14),
    (0b001110_10100_11101_00010_01011_000_111, .ffma 20 29 2 11 7)] : List (Nat × Instr)).all reads = true := by decide +kernel

theorem test_decode_branch : ([
    (0b010000_10000_10111_0000101110001110, .beq 16 23 2958),
    (0b010001_10111_01110_0000010100100101, .bne 23 14 1317),
    (0b010010_00011_11011_0000001001110010, .blt 3 27 626),
    (0b010011_10110_11111_0000000111011000, .bge 22 31 472),
    (0b010100_00101_01010_0001011010110011, .bltu 5 10 5811),
    (0b010101_01111_00110_0000101111111101, .bgeu 15 6 3069),
    (0b010110_00000000000000010100100110, .jmp 1318),
    (0b010111_00000000000000001001110011, .jal 627),
    (0b011000_00000_00111_0000000000000000, .jr 7),
    (0b011000_10010_11011_0000000000000001, .jalr 18 27)] : List (Nat × Instr)).all reads = true := by decide +kernel

theorem test_decode_load_store : ([
    (0b011010_11110_10101_1111101100_10_11_01, .ld 30 21 1004 2 3 1),
    (0b011011_10101_01100_0101001011_10_11_01, .lds 21 12 331 2 3 1),
    (0b011100_00010_11101_1000010100_11_01_01, .st 2 29 532 3 1 1)] : List (Nat × Instr)).all reads = true := by decide +kernel

theorem test_decode_atomic : ([
    (0b011101_01000_10001_11010_0000_01_11_11_0, .amoadd 8 17 26 1 3 3),
    (0b011101_00011_01000_10001_0001_01_10_11_0, .amoswp 3 8 17 1 2 3),
    (0b011101_01101_00100_11011_0010_01_11_11_0, .amoand 13 4 27 1 3 3),
    (0b011101_00100_00011_11010_0011_01_10_11_0, .amoor 4 3 26 1 2 3),
    (0b011101_10101_01100_00111_0100_01_11_11_0, .amoxor 21 12 7 1 3 3),
    (0b011101_11001_00010_01011_0101_01_10_11_0, .amomin 25 2 11 1 2 3),
    (0b011101_10000_11001_11110_0110_01_11_11_0, .amomax 16 25 30 1 3 3),
    (0b011101_11100_10011_01010_0111_01_10_11_0, .amominu 28 19 10 1 2 3),
    (0b011101_11011_10010_01001_1000_01_11_11_0, .amomaxu 27 18 9 1 3 3),
    (0b011101_00100_11111_10110_1001_01_10_11_0, .amofadd 4 31 22 1 2 3),
    (0b011101_01010_10011_11100_1010_01_10_11_0, .amofmin 10 19 28 1 2 3),
    (0b011101_00001_00110_01111_1011_01_10_11_0, .amofmax 1 6 15 1 2 3),
    (0b011101_01011_00010_11001_1100_01_11_11_0, .amocas 11 2 25 1 3 3)] : List (Nat × Instr)).all reads = true := by decide +kernel

theorem test_decode_memctl : ([
    (0b011110_00000000000000000_0_01_000000, .fence 0 1),
    (0b011110_00000_10111_0000000000000001, .flush 23),
    (0b011110_00000_11011_0000000000000010, .inval 27),
    (0b011110_00000_01110_000000000_1_000011, .pref 14 1),
    (0b011110_11010_10001_01000_00000000100, .pin 26 17 8),
    (0b011110_11001_10000_01111_00000000101, .unpin 25 16 15),
    (0b011110_00000_00110_0000000000000110, .sflush 6),
    (0b011111_01100_10101_11110_00111_0_00_100, .waita 12 21 30 7 0 4)] : List (Nat × Instr)).all reads = true := by decide +kernel

theorem test_decode_msg_task : ([
    (0b100000_00000_11111_00100_00000000000, .send 31 4),
    (0b100000_00000_01001_00011_000_11_000001, .mcast 9 3 3),
    (0b100000_11110_00111_11110_00000000010, .spawn 30 7 30),
    (0b100000_11001_10000_01011_00000000011, .aq 25 16 11),
    (0b100000_00000_11101_00110_00000000100, .launch 29 6),
    (0b100001_00000_01100_10101_11010_000000, .cntset 12 21 26),
    (0b100001_11000_11111_00000_10110_000001, .cntadd 24 31 22),
    (0b100001_11111_0000000000_10110_000010, .cntwait 31 22),
    (0b100001_00000000000000000000000011, .exit),
    (0b100001_00000000000000000000000100, .contain),
    (0b100001_00000000000000000000000101, .yield),
    (0b100001_10111_0000000000000_10_000110, .gbar 23 2),
    (0b100001_01110_00101_00000_101_11_000111, .gred 14 5 5 3)] : List (Nat × Instr)).all reads = true := by decide +kernel

theorem test_decode_pipe_sys_lg : ([
    (0b100010_011_000_00000_01101_1110000100, .qwait 3 0 13 900),
    (0b100010_111_001_00000_00001_0000101010, .qfree 7 0 1 42),
    (0b100010_010_010_00000_00000_1100111000, .qadv 2 0 824),
    (0b100010_110_01100000_11101_0000000000, .qstat 6 29),
    (0b100010_101_10000000000000000000000, .qclose 5),
    (0b100011_000000000000000000_10001010, .trap 138),
    (0b100011_00000_00011_0000000100000000, .eret 3),
    (0b100011_11011_0000000000010_00100000, .rdsr 27 32),
    (0b100011_00000_10101_00000011_01101100, .wrsr 21 108),
    (0b100011_00000000000000010000000000, .idle),
    (0b100011_000000000000000101_10011101, .brk 157),
    (0b100011_10001_11010_00000110000000_11, .shoot 17 26 3),
    (0b100011_01000_0000000000110000001_01, .shootAll 8 1),
    (0b100011_00100_11011_0000011100000000, .vatcfgDefine 4 27),
    (0b100011_00011_11010_0000011100000001, .vatcfgResize 3 26),
    (0b100011_01100_00111_0000011100000010, .vatcfgRetire 12 7),
    (0b100011_00010_01011_0000100000000000, .lgbindBind 2 11),
    (0b100011_11001_11110_0000100000000001, .lgbindUnbind 25 30),
    (0b100011_10011_01010_00001001000000_11, .grpcfg 19 10 3),
    (0b100011_10010_01001_000010100000000_0, .resume 18 9 0),
    (0b100100_11111_000000000000000000000, .lgnext 31),
    (0b100100_10011_11100_00101_00000000001, .lgverd 19 28 5),
    (0b100100_00110_0000000000_00001_000010, .lgstat 6 1)] : List (Nat × Instr)).all reads = true := by decide +kernel

theorem test_decode_tile : ([
    (0b101000_010_1111_10000_1010110111_0_001, .tld 2 15 16 695 1),
    (0b101000_001_0101_00_111_0000001110_1000, .tldPipe 1 5 7 14),
    (0b101001_110_0101_00011_1101011011_0_001, .tst 6 5 3 859 1),
    (0b101001_100_1111_00_110_0011111111_1000, .tstPipe 4 15 6 255),
    (0b101010_111_100_101_0101_11_00000000000, .vadd 7 4 5 5 3),
    (0b101010_001_011_111_0101_01_00000000001, .vsub 1 3 7 5 1),
    (0b101010_011_111_110_1111_00_00000000010, .vmul 3 7 6 15 0),
    (0b101010_001_011_011_0101_01_00000000011, .vfma 1 3 3 5 1),
    (0b101010_101_110_111_0101_01_00000000100, .vmin 5 6 7 5 1),
    (0b101010_100_101_010_1111_00_00000000101, .vmax 4 5 2 15 0),
    (0b101010_011_111_000_0101_01_00000000110, .vabs 3 7 5 1),
    (0b101010_111_110_000_0101_00_00000000111, .vneg 7 6 5 0),
    (0b101010_011_011_010_1111_00_00000001000, .vdiv 3 3 2 15 0),
    (0b101010_110_111_000_0101_01_00000001001, .vrsqrt 6 7 5 1),
    (0b101010_101_010_000_0101_00_00000001010, .vexp2 5 2 5 0),
    (0b101010_111_110_000_1111_00_00000001011, .vlog2 7 6 15 0),
    (0b101010_000_110_101_0101_11_10_011_001100, .vcmp 6 5 5 3 2 3),
    (0b101010_011_010_101_0101_00000_11_001101, .vsel 3 2 5 5 3),
    (0b101010_111_011_000_1111_10_00000001110, .vredsum 7 3 15 2),
    (0b101010_010_011_000_0101_01_00000001111, .vredmax 2 3 5 1),
    (0b101010_110_101_100_0101_10_00000010000, .vshuf 6 5 4 5 2),
    (0b101010_101_100_011_1111_01_00000010001, .viadd 5 4 3 15 1),
    (0b101010_010_101_100_0101_10_00000010010, .vimul 2 5 4 5 2),
    (0b101010_011_001_010_0101_00_000_01_010011, .vlogic 3 1 2 5 0 1),
    (0b101010_011_011_001_1111_11_000_00_010100, .vshift 3 3 1 15 3 0),
    (0b101010_101_100_000_0101_10_000_10_010101, .vcvt 5 4 5 2 2),
    (0b101010_100_011_000_0101_01_00101_010110, .venc 4 3 5 1 5),
    (0b101010_101_100_000_1111_10_00110_010111, .vdec 5 4 15 2 6),
    (0b101010_001_010_000_0101_00_00000011000, .tmov 1 2 5 0),
    (0b101010_011_000000_0101_0000000011001, .tzero 3 5),
    (0b101010_100_000000_1111_10_10001_011010, .tbcast 4 15 2 17),
    (0b101010_000_011_000_0110_00_11001_011011, .text 3 6 25)] : List (Nat × Instr)).all reads = true := by decide +kernel

theorem test_decode_gauss_eng : ([
    (0b101110_100_000000_1001_00_00110_000000, .gacc 4 9 6),
    (0b101110_110_011_000_0101_00_10101_000001, .gelim 6 3 5 21),
    (0b101110_001_110_000_0101_00_01101_000010, .gdamp 1 6 5 0 13),
    (0b101110_011_000000_0100_00_01001_000011, .gpack 3 4 9),
    (0b101110_010_000000_0111_00_01000_000100, .gunpk 2 7 8),
    (0b101111_00000000000000000_111_000000, .ewait 7),
    (0b101111_01011_000000000000_100_000001, .estat 11 4)] : List (Nat × Instr)).all reads = true := by decide +kernel

/-- The two words decode to the instruction. -/
def reads2 (p : Nat × Nat × Instr) : Bool := decide (decodeTableWord 64 (p.1 + 2 ^ 32 * p.2.1) = some p.2.2)

theorem test_decode_two_words : ([
    (0b001010_01001_000000000000000000000, 0xDEADBEEF, .liw 9 0xDEADBEEF),
    (0b101100_011_00101_00000_1_00_0000_000001, 0x40, .mma 3 5 1 1 0x40),
    (0b101100_010_00101_00110_0_00_0001_000000, 0x80, .mmas 2 5 6 0 0 0x80),
    (0b101100_001_00101_00000_1_00_0010_000001, 0x20, .mmai 1 5 1 1 0x20),
    (0b101100_000_00101_00000_1_00_0011_000000, 0xFFFF, .bld 5 1 0xFFFF),
    (0b101100_000_00000_00000_1_00_0100_000000, 0x35, .brot 1 1 21),
    (0b101100_000_00101_00000_0_00_0101_000000, 0x181, .tblld 5 1 0x81),
    (0b101100_000_00101_00000_0_00_0110_000000, 0x0, .ntblld 5),
    (0b101101_00111_00101_00110_000_00000001, 0x12345678, .cpy 7 5 6 1 0x12345678),
    (0b101101_00000_00101_00110_001_00000000, 0x30102, .cpys 0 5 6 0 3 0x102),
    (0b101101_00111_00101_00110_010_00000001, 0x60000009, .cpyg 7 5 6 1 6 9)] : List (Nat × Nat × Instr)).all reads2 = true := by decide +kernel

/-- The worked words of the manual (R211 to R216). -/
theorem test_decode_examples : ([(0xB8004280, .gacc 0 2 10), (0xB8400241, .gelim 0 4 0 9), (0xB931E2C2, .gdamp 2 3 15 0 11), (0xBA000303, .gpack 4 0 12),
    (0xBA804344, .gunpk 5 2 13)] : List (Nat × Instr)).all reads = true := by decide +kernel

/-- Words of no instruction: a reserved major, an unassigned code, a reserved bit, a forbidden value, and word 1 with a reserved bit (R267). -/
theorem test_decode_illegal : ∀ w ∈ [0, 15 * 2 ^ 26, 25 * 2 ^ 26, 43 * 2 ^ 26, 63 * 2 ^ 26, 2 ^ 26 + 0x11, 2 ^ 26 + 0x40, 11 * 2 ^ 26 + 7, 24 * 2 ^ 26 + 2, 33 * 2 ^ 26 + 8,
    34 * 2 ^ 26 + 5 * 2 ^ 20, 35 * 2 ^ 26 + 0x0B00, 35 * 2 ^ 26 + 0x0703, 35 * 2 ^ 26 + 0x0802, 35 * 2 ^ 26 + 0x0A02, 42 * 2 ^ 26 + 28, 46 * 2 ^ 26 + 5, 47 * 2 ^ 26 + 2,
    44 * 2 ^ 26 + 7 * 2 ^ 6, 45 * 2 ^ 26 + 3 * 2 ^ 8, 44 * 2 ^ 26 + 2 ^ 32 * 2 ^ 16, 44 * 2 ^ 26 + 6 * 2 ^ 6 + 2 ^ 32], decodeTableWord 64 w = none := by decide +kernel

/-! ## Scalar instructions -/

/-- g1 = −2 and g2 = 3, with g5 holding 0xFF. -/
def ints : State := regs [(1, 0xFFFFFFFFFFFFFFFE#64), (2, 3#64), (5, 0xFF#64)]

theorem test_integer_register : ([(.add 5 1 2, 1), (.sub 5 1 2, 0xFFFFFFFFFFFFFFFB), (.and 5 1 2, 2), (.or 5 1 2, 0xFFFFFFFFFFFFFFFF),
    (.xor 5 1 2, 0xFFFFFFFFFFFFFFFD), (.shl 5 1 2, 0xFFFFFFFFFFFFFFF0), (.shr 5 1 2, 0x1FFFFFFFFFFFFFFF), (.sar 5 1 2, 0xFFFFFFFFFFFFFFFF),
    (.rotr 5 1 2, 0xDFFFFFFFFFFFFFFF), (.slt 5 1 2, 1), (.sltu 5 1 2, 0), (.min 5 1 2, 0xFFFFFFFFFFFFFFFE), (.max 5 1 2, 3), (.minu 5 1 2, 3),
    (.maxu 5 1 2, 0xFFFFFFFFFFFFFFFE), (.addw 5 1 2, 1), (.subw 5 1 2, 0xFFFFFFFFFFFFFFFB), (.mul 5 1 2, 0xFFFFFFFFFFFFFFFA),
    (.mulh 5 1 2, 0xFFFFFFFFFFFFFFFF), (.mulhu 5 1 2, 2), (.div 5 1 2, 0), (.divu 5 1 2, 0x5555555555555554), (.rem 5 1 2, 0xFFFFFFFFFFFFFFFE),
    (.remu 5 1 2, 2), (.bext 5 1 2, 1), (.bins 5 1 2, 0xF7), (.clz 5 2, 62), (.ctz 5 1, 1), (.popc 5 1, 63), (.sext 5 5 0, 0xFFFFFFFFFFFFFFFF),
    (.zext 5 1 0, 0xFE)] : List (Instr × Nat)).all (fun p => gives ints 5 p.1 p.2) = true := by decide +kernel

theorem test_integer_immediate : ([(.addi 5 2 0xFFFC, 0xFFFFFFFFFFFFFFFF), (.andi 5 1 0xFFFF, 0xFFFE), (.ori 5 2 0x8000, 0x8003), (.xori 5 2 0xFFFF, 0xFFFC),
    (.slti 5 1 0xFFFF, 1), (.sltiu 5 2 0xFFFF, 1), (.shli 5 2 63, 0x8000000000000000), (.shri 5 1 63, 1), (.sari 5 1 63, 0xFFFFFFFFFFFFFFFF),
    (.rotri 5 2 1, 0x8000000000000001), (.lih 5 0x8000, 0xFFFFFFFF80000000)] : List (Instr × Nat)).all (fun p => gives ints 5 p.1 p.2) = true
    ∧ runs (.liw 5 0x80000000) ints (fun t => t.cx.rg 5 = 0xFFFFFFFF80000000#64 && t.cx.pc = 0x1008#64) = true := by decide +kernel

/-- g0 takes no write, the divisor corners of R200, and the limit of R34. -/
theorem test_integer_corners : gives ints 0 (.add 0 1 2) 0 = true
    ∧ gives (regs [(1, 0x8000000000000000#64), (2, 0xFFFFFFFFFFFFFFFF#64)]) 5 (.div 5 1 2) 0x8000000000000000 = true
    ∧ gives (regs [(1, 7#64)]) 5 (.rem 5 1 2) 7 = true ∧ gives (regs [(1, 7#64)]) 5 (.divu 5 1 2) 0 = true
    ∧ traps (base.onCx (fun x => { x with dzt := true })) (.div 5 1 2) .divzero 0 = true
    ∧ traps (base.onCx (fun x => { x with act := { x.act with sregs := 1 }, wroteG := 2#32 })) (.add 5 1 2) .illegal 0 = true := by decide +kernel

theorem test_branches : ([(.beq 1 2 1, 4), (.bne 1 2 0xFFFF, 0xFFC), (.blt 1 2 2, 0x1008), (.bge 1 2 2, 4), (.bltu 1 2 2, 4), (.bgeu 1 2 4, 0x1010), (.jmp 0x3FFFFFF, 0xFFC),
    (.jr 2, 3)] : List (Instr × Nat)).all (fun p => runs p.1 ints (fun t => t.cx.pc.toNat = (if p.2 = 4 then 0x1004 else p.2))) = true
    ∧ runs (.jal 3) ints (fun t => t.cx.pc = 0x100C#64 && t.cx.rg 31 = 0x1004#64) = true
    ∧ runs (.jalr 1 1) ints (fun t => t.cx.pc = 0xFFFFFFFFFFFFFFFE#64 && t.cx.rg 1 = 0x1004#64) = true := by decide +kernel

/-- FP: 1 + 2^-24 rounds to even, 0/0 and 1/0, √4, minimum of a NaN, the comparisons' NV, conversions and class (R193 to R198). -/
theorem test_fp : let s := regs [(1, 0x3F800000#64), (2, 0x33800000#64), (3, 0#64), (4, 0x7F800001#64), (6, 0x40800000#64), (7, 0xFFFFFFFFFFFFFFFF#64), (8, 0xBF800000#64)]
    gives s 5 (.fadd 5 1 2 0) 0x3F800000 1#5 = true ∧ gives s 5 (.fadd 5 1 2 3) 0x3F800001 1#5 = true ∧ gives s 5 (.fsub 5 1 1 0) 0 = true
    ∧ gives s 5 (.fmul 5 6 6 0) 0x41800000 = true ∧ gives s 5 (.fdiv 5 3 3 0) 0x7FC00000 16#5 = true ∧ gives s 5 (.fdiv 5 1 3 0) 0x7F800000 8#5 = true
    ∧ gives s 5 (.fsqrt 5 6 0) 0x40000000 = true ∧ gives s 5 (.fmin 5 1 4) 0x3F800000 16#5 = true ∧ gives s 5 (.fmax 5 1 6) 0x40800000 = true
    ∧ gives s 5 (.feq 5 4 4) 0 16#5 = true ∧ gives s 5 (.flt 5 3 1) 1 = true ∧ gives s 5 (.fle 5 1 1) 1 = true ∧ gives s 5 (.fcvtif 5 7 0) 0xBF800000 = true
    ∧ gives s 5 (.fcvtfi 5 8 0) 0xFFFFFFFFFFFFFFFF = true ∧ gives s 5 (.fclass 5 4) 0x100 = true ∧ gives s 5 (.ffma 5 6 6 1 0) 0x41880000 = true := by decide +kernel


/-! ## What meets the hypotheses: scalar and memory instructions -/

/-- Two states hold the same, but for what lies in the big register files. -/
def like (s t : State) : Bool :=
  decide (s.me.l1 = t.me.l1) && decide (s.net = t.net) && decide (s.me.outbox = t.me.outbox) && decide (s.me.runq = t.me.runq) && decide (s.me.svcq = t.me.svcq) && decide (s.me.localMem = t.me.localMem) && decide (s.me.pinBy = t.me.pinBy) && decide (s.me.steer = t.me.steer)
  && decide (s.hbm = t.hbm) && decide (s.tenants = t.tenants) && decide (s.slices = t.slices) && decide (s.thomes = t.thomes) && decide (s.groups = t.groups) && decide (s.bindings = t.bindings) && decide (s.gangs = t.gangs) && decide (s.nextPkt = t.nextPkt)
  && decide (s.me.counters.toList = t.me.counters.toList) && decide (s.me.pipes.toList = t.me.pipes.toList) && decide (s.me.grp.toList = t.me.grp.toList) && decide (s.me.tag = t.me.tag) && decide (s.me.vatCache = t.me.vatCache)

/-- Two contexts hold the same, but for the PC, the state of their instruction, the scalar registers and FFLAGS. -/
def alike (x y : Context) : Bool :=
  decide (x.m1 = y.m1) && decide (x.m2 = y.m2) && decide (x.m3 = y.m3) && decide (x.frm = y.frm) && decide (x.dzt = y.dzt) && decide (x.scaleBase = y.scaleBase) && decide (x.scaleOrg = y.scaleOrg) && decide (x.waitlim = y.waitlim) && decide (x.lgtbase = y.lgtbase)
  && decide (x.sup = y.sup) && decide (x.qbound = y.qbound) && decide (x.unack = y.unack) && decide (x.act = y.act) && decide (x.orphans = y.orphans) && decide (x.deferred = y.deferred) && decide (x.rel = y.rel) && decide (x.mq = y.mq) && decide (x.vq = y.vq) && decide (x.cq = y.cq) && decide (x.yieldOn = y.yieldOn)

/-- A run retires from `u` with a value in one register, as `Wrote` says. -/
def wrote (i : Instr) (s u : State) (d : BitVec 5) (v : Nat) (pc : Word) (f : BitVec 5 := 0#5) : Bool :=
  runs i s (fun t => (t.cx.rg d).toNat = (if d = 0#5 then 0 else v) && t.cx.pc = pc && t.cx.st = .ready && decide (t.cx.op = {})
    && t.cx.fflags = (u.cx.fflags ||| f) && like t u && alike t.cx u.cx && decide ((t.cx.g.set d.toNat 0#64).toList = (u.cx.g.set d.toNat 0#64).toList))

/-- A run ends in a wait, and nothing else has changed. -/
def waits (i : Instr) (s u : State) (w : WaitKind) (timed : Bool) (ph : Nat) : Bool :=
  runs i s (fun t => t.cx.st = .waiting && decide (t.cx.op = { u.cx.op with wait := w, timed := timed, phase := ph }) && t.cx.pc = u.cx.pc
    && like t u && alike t.cx u.cx && decide (t.cx.g.toList = u.cx.g.toList))

/-- The page at 0 of the ranges joined (R154). -/
def pg : PageEntry :=
  { tenant := 0, va := 0, lg := 21, pa := 0x200000, level := 5#3, u := false, w := true, x := true, d := true, e := false, vat := 0, pl := 0#2 }

/-- The core with a shared area at 0x1000, some bytes there, one page of its steer table and one L1 line. -/
def me1 : Core :=
  { me0 with
    regionOff := 0x1000, regionEnd := 0x2000, localMem := [(0x1000, 0x80#8), (0x1001, 0xFF#8), (0x1008, 7#8)], steer := [pg]
    handlers := [{ index := 254#8, pc := 0#64, pri := 0#2, sregs := 31, tiles := 0 }]
    l1 := [{ xl := { pa := 0x200080 }, va := 0x80, way := 2, cls := 0#2, valid := BitVec.allOnes 64, dirty := 1#64, data := [(0x200080, 0x91#8)] }] }

/-- The module with that core and scalar registers set. -/
def mem (l : List (BitVec 5 × Word)) (f : Context → Context := id) : State :=
  ({ base with me := me1 } : State).onCx (fun x => f (l.foldl (fun (x : Context) p => { x with g := x.g.set p.1.toNat p.2 }) x))

theorem witness_IntegerRegisterResults : ints.cx.mayG 5 = true ∧ ints.cx.mayG 0 = true := by decide +kernel
theorem witness_IntegerImmediateAndUnaryResults : ints.cx.mayG 31 = true ∧ (regs [(1, 0#64)]).cx.mayG 5 = true
    ∧ gives (regs []) 5 (.clz 5 1) 64 = true ∧ gives (regs []) 5 (.ctz 5 1) 64 = true := by decide +kernel
theorem witness_DivisionResults : ints.cx.mayG 5 = true ∧ ints.cx.rg 2 ≠ 0#64 ∧ ints.cx.rg 3 = 0#64 ∧ ints.cx.dzt = false
    ∧ (ints.onCx (fun x => { x with dzt := true })).cx.dzt = true := by decide +kernel
theorem witness_DestinationLimitAndPrivilege :
    (base.onCx (fun x => { x with act := { x.act with sregs := 1 }, wroteG := 2#32 })).cx.mayG 5 = false
    ∧ (base.onCx (fun x => { x with sup := false })).cx.sup = false
    ∧ traps (base.onCx (fun x => { x with sup := false })) (.eret 1) .priv 0 = true
    ∧ traps (base.onCx (fun x => { x with sup := false })) (.rdsr 1 0x20) .priv 0 = true
    ∧ traps (base.onCx (fun x => { x with sup := false })) (.wrsr 1 0x27) .priv 0 = true := by decide +kernel
theorem witness_BranchAndJumpResults : ints.cx.rg 1 ≠ ints.cx.rg 2 ∧ ints.mayLog (branchItem 4#64) ∧ ints.cx.mayG 31 = true := by
  simp only [State.mayLog]; decide +kernel
theorem witness_FpInstructionsComplete : ints.cx.mayG 5 = true := by decide +kernel
theorem witness_FpSpecialCasesAndOrder : isNan 0x7F800001#32 = true ∧ isNan 0x3F800000#32 = false
    ∧ (0x7F800000#32).toNat % 2 ^ 31 = 0x7F800000 ∧ (0x80000000#32).toNat % 2 ^ 31 = 0 := by decide +kernel
theorem witness_TrapsParkOrEnd : (mem []).me.cur ≠ 3#2 ∧ ((mem []).me.entry? 254#8).isSome = true ∧ (base.me.entry? 254#8).isSome = false
    ∧ runs (.div 5 1 2) (mem [] (fun x => { x with dzt := true })) (fun t => t.cx.st = .parked && decide (t.cx.faultPc = 0x1000#64)
        && decide (t.me.svcq.map (·.g4) = [9#64])) = true
    ∧ traps base (.trap 7) .trap 7 = true ∧ traps base (.brk 255) .breakpoint 255 = true := by decide +kernel

theorem witness_LoadsComplete :
    let a := mem [(1, selfWindow 0x1000)]
    let c := mem [(1, 0x01FF000020001000#64)]
    let p := mem [(1, 0x80#64)]
    let q := mem [(1, 0xC0#64)] (fun x => { x with op := { phase := 9, result := some 5#64 } })
    a.cx.mayG 5 = true ∧ a.reachesSelf (addrOf (a.cx.rg 1) 0) 2 false 0x1000 ∧ a.me.localBad 0x1000 2 = false ∧ a.mayLog (loadItem a.recordMode 1#2 (addrOf (a.cx.rg 1) 0) 0xFF80)
    ∧ wrote (.ld 5 1 0 0 1 0) a a 5 0xFF80 0x1004 = true ∧ wrote (.lds 5 1 0 0 1 0) a a 5 0xFFFFFFFFFFFFFF80 0x1004 = true
    ∧ c.reachesCore (addrOf (c.cx.rg 1) 0) 8 (mkCore 0 0 2 0) 0x1000 ∧ c.cx.op.result = none ∧ c.cx.op.phase ≠ 9
    ∧ waits (.ld 5 1 0 0 3 0) c (c.sendPacket 0#2 0#2 (.window (mkCore 0 0 2 0) (c.reqOf 0 0) 0x1000 0x01FF000020001000 (.load 8 false) 1)) .reply false 9 = true
    ∧ p.reachesPage (addrOf (p.cx.rg 1) 0) 8 .read pg ∧ (∃ l, (p.used pg).hitsL1 (pg.xl 0x80) 8 l)
    ∧ runs (.ld 5 1 0 0 3 0) p (fun t => t.cx.rg 5 = 0x91#64) = true
    ∧ q.reachesPage (addrOf (q.cx.rg 1) 0) 8 .read pg ∧ (q.used pg).me.l1Line? (pg.xl 0xC0).pa = none
    ∧ runs (.ld 5 1 0 0 3 0) q (fun t => t.cx.st = .waiting && decide (t.cx.op.wait = .fill)) = true
    ∧ runs (.ld 5 1 0 0 3 1) q (fun t => t.cx.rg 5 = 5#64) = true := by
  refine ⟨?_, ?_, ?_, ?_, ?_, ?_, ?_, ?_, ?_, ?_, ⟨?_, ?_, ?_, ?_, ten, ?_⟩, ⟨me1.l1.head (by decide +kernel), ?_⟩, ?_, ⟨?_, ?_, ?_, ?_, ten, ?_⟩, ?_⟩ <;>
  ((try simp only [State.mayLog, State.reachesSelf, State.reachesCore, State.hitsL1]); decide +kernel)

theorem witness_StoresComplete :
    let a := mem [(1, selfWindow 0x1000), (2, 0x1234#64)]
    let p := mem [(1, 0x80#64), (2, 0x1234#64)]
    let c := mem [(1, 0x01FF000020001000#64), (2, 0x1234#64)]
    a.reachesSelf (addrOf (a.cx.rg 1) 0) 2 false 0x1000 ∧ a.cx.relOverlaps (relKey (.self 0x1000)) 2 = false ∧ a.mayLog (storeItem 1#2 (addrOf (a.cx.rg 1) 0) 0x1234)
    ∧ runs (.st 2 1 0 0 1 0) a (fun t => t.byteAt (.localMem 0 0x1000) = 0x34#8 && t.byteAt (.localMem 0 0x1001) = 0x12#8) = true
    ∧ runs (.st 2 1 0 3 1 1) a (fun t => t.byteAt (.localMem 0 0x1000) = 0x80#8 && t.cx.rel.length = 1) = true
    ∧ 12 ≤ pg.lg ∧ p.reachesPage (addrOf (p.cx.rg 1) 0) 2 .write pg ∧ (p.used pg).mayLog (storeItem 1#2 0x80 0x1234)
    ∧ (∃ l, ((p.used pg).logged (storeItem 1#2 0x80 0x1234)).me.l1Line? (pg.xl 0x80).pa = some l ∧ l.xl = (pg.xl 0x80).base)
    ∧ (p.used pg).countRoom ((p.used pg).scopeOfHome p.meId (pg.xl 0x80) false) = true
    ∧ runs (.st 2 1 0 0 1 0) p (fun t => t.byteAt (.l1 0 0x200081) = 0x12#8 && (t.me.l1.head?.map (·.dirty)) = some 3#64) = true
    ∧ runs (.st 2 1 0 0 1 2) p (fun t => t.net.length = 1 && t.cx.unack = { die := 1 } && (t.me.l1.head?.map (·.dirty)) = some 0#64) = true
    ∧ c.reachesCore (addrOf (c.cx.rg 1) 0) 2 (mkCore 0 0 2 0) 0x1000 ∧ c.countRoom (scopeOf c.meId (mkCore 0 0 2 0)) = true
    ∧ runs (.st 2 1 0 0 1 0) c (fun t => t.net.length = 1 && t.cx.unack = { die := 1 }) = true := by
  refine ⟨?_, ?_, ?_, ?_, ?_, ?_, ⟨?_, ?_, ?_, ?_, ten, ?_⟩, ?_, ⟨me1.l1.head (by decide +kernel), ?_⟩, ?_, ?_, ?_, ?_, ?_, ?_⟩ <;>
  ((try simp only [State.mayLog, State.reachesSelf, State.reachesCore]); decide +kernel)

theorem witness_AccessFaults :
    inWindow 1 = false ∧ 1 % 2 ≠ 0 ∧ traps (mem [(1, 1#64)]) (.ld 5 1 0 0 1 0) .align 1 = true ∧ traps (mem [(1, 4#64)]) (.amoadd 5 1 2 0 3 0) .align 4 = true
    ∧ inWindow 0x1FFF00000000000 = true ∧ windowTarget 0 0x1FFF00000000000 = none ∧ traps (mem [(1, 0x1FFF00000000000#64)]) (.st 5 1 0 0 1 0) .window 0x1FFF00000000000 = true
    ∧ (windowTarget 0 0x1FF0FC000001001).isSome ∧ traps (mem [(1, selfWindow 0x1001)]) (.lds 5 1 0 0 1 0) .align 0x1FF0FC000001001 = true
    ∧ me1.selfOpen 0x2000 false = false ∧ traps (mem [(1, selfWindow 0x2000)]) (.ld 5 1 0 0 1 0) .window 0x1FF0FC000002000 = true
    ∧ me1.selfOpen 0x800 true = false ∧ traps (mem [(1, selfWindow 0x800)]) (.amoor 5 1 2 0 2 0) .window 0x1FF0FC000000800 = true := by decide +kernel

theorem witness_AtomicsOnLocalMemory :
    let a := mem [(1, selfWindow 0x1008), (2, 0xFFFFFFFFFFFFFFFF#64), (5, 7#64), (6, 8#64)]
    a.reachesSelf (addrOf (a.cx.rg 1) 0) 8 true 0x1008 ∧ a.cx.mayG 5 = true ∧ a.cx.op.phase ≠ 9 ∧ a.cx.relOverlaps (relKey (.self 0x1008)) 8 = false
    ∧ a.mayAmo 1 2 ∧ (a.amoReady 1 2).me.localBad 0x1008 8 = false ∧ (a.amoReady 1 2).mayLog (atomicItem false 8 0x1FF0FC000001008 0xFFFFFFFFFFFFFFFF 7)
    ∧ [(Instr.amoadd 4 1 2 0 3 0, 6), (.amoswp 4 1 2 0 3 0, 255), (.amoand 4 1 2 0 3 0, 7), (.amoor 4 1 2 0 3 0, 255), (.amoxor 4 1 2 0 3 0, 0xF8),
        (.amomin 4 1 2 0 3 0, 255), (.amomax 4 1 2 0 3 0, 7), (.amominu 4 1 2 0 3 0, 7), (.amomaxu 4 1 2 0 3 0, 255), (.amofadd 4 1 2 0 2 0, 0),
        (.amofmin 4 1 2 0 2 0, 7), (.amofmax 4 1 2 0 2 0, 7), (.amocas 5 1 2 0 3 0, 255), (.amocas 6 1 2 0 3 0, 7)].all (fun p =>
          runs p.1 a (fun t => t.byteAt (.localMem 0 0x1008) = BitVec.ofNat 8 p.2 && (t.cx.rg 4 = 7#64 || t.cx.rg 5 = 7#64) && t.cx.pc = 0x1004#64)) = true := by
  refine ⟨?_, ?_, ?_, ?_, ?_, ?_, ?_, ?_⟩ <;> ((try simp only [State.mayLog, State.mayAmo, State.mayRelease, State.reachesSelf]); decide +kernel)

theorem witness_AtomicsElsewhere :
    let c := mem [(1, 0x01FF000020001000#64), (2, 3#64)]
    let p := mem [(1, 0x80#64), (2, 3#64)]
    let q := mem [(1, 0x80#64), (2, 3#64)] (fun x => { x with op := { phase := 9, result := some 0x1FFFFFFFF#64 } })
    let e : PageEntry := { pg with level := 1#3, lg := 12, pa := 2 ^ 51, w := true }
    let h := ({ p with me := { p.me with steer := [e] }, tenants := [{ ten with aperture := 0, aport := 0 }] } : State)
    let f := p.onCx (fun x => { x with op := { fault := some { cause := .pageNp } } })
    ((3#4, Instr.amoor 5 1 2 0 2 0) ∈ amoWords 5 1 2 0 2 0)
    ∧ q.mayLog (atomicItem q.recordMode 4 0x80 3 0x1FFFFFFFF) ∧ wrote (.amoor 5 1 2 0 2 0) q ((q.logged (atomicItem q.recordMode 4 0x80 3 0x1FFFFFFFF)).dirty) 5 0xFFFFFFFF 0x1004 = true
    ∧ c.reachesCore (addrOf (c.cx.rg 1) 0) 4 (mkCore 0 0 2 0) 0x1000 ∧ c.cx.relOverlaps (relKey (.core (mkCore 0 0 2 0) 0x1000)) 4 = false ∧ c.mayAmo 0 0 ∧ c.countRoom 1 = true
    ∧ runs (.amoor 5 1 2 0 2 0) c (fun t => t.net.length = 1 && t.cx.st = .waiting && t.cx.op.phase = 9) = true
    ∧ runs (.amoor 0 1 2 0 2 0) c (fun t => t.net.length = 1 && t.cx.st = .ready && t.cx.unack = { die := 1 }) = true
    ∧ p.reachesPage (addrOf (p.cx.rg 1) 0) 4 .write pg ∧ (pg.xl 0x80).region ≠ .host ∧ (p.used pg).mayAmo 1 2
    ∧ runs (.amoadd 5 1 2 2 2 3) p (fun t => t.net.length = 1 && t.cx.st = .waiting && t.cx.op.phase = 1) = true
    ∧ runs (.amoadd 5 1 2 2 2 1) p (fun t => t.net.length = 2 && t.cx.st = .waiting && t.cx.op.phase = 9) = true
    ∧ (e.xl 0x80).region = .host ∧ 3#4 ∉ [0#4, 1#4, 12#4] ∧ traps h (.amoor 5 1 2 0 2 0) .atomicPath 0x80 = true
    ∧ f.cx.op.fault = some { cause := .pageNp } ∧ runs (.amoor 0 1 2 0 2 0) f (fun t => t.cx.deferred.length = 1 && t.cx.pc = 0x1004#64) = true := by
  refine ⟨?_, ?_, ?_, ?_, ?_, ?_, ?_, ?_, ?_, ⟨?_, ?_, ?_, ?_, ten, ?_⟩, ?_, ?_, ?_, ?_, ?_, ?_, ?_, ?_, ?_⟩ <;>
  ((try simp only [State.mayLog, State.mayAmo, State.mayRelease, State.reachesCore]); decide +kernel)

theorem witness_FencesReleaseAndAcquire :
    let s := mem []
    let d := s.onCx (fun x => { x with deferred := [{ info := { cause := .window, addr := 8#64 }, scope := some 1#2 }] })
    let b := s.onCx (fun x => { x with vq := [{ op := .tzero 0 0, serial := 1, user := false, word0 := 0#32 }] })
    let n := s.onCx (fun x => { x with unack := { mod := 1 } })
    let full := s.onCx (fun x => { x with unack := { die := 65535 } })
    (n.mayRelease 1 1 → False) ∧ n.releaseRoom 1 1 = true ∧ full.releaseRoom 1 1 = false ∧ waits (.fence 0 1) full full .counters false 0 = true ∧ d.mayRelease 1 1 = False ∧ base.mayRelease 3 1 ∧ (base.onCx (fun x => { x with deferred := d.cx.deferred })).mayRelease 1 1
    ∧ base.cx.deferred = [] ∧ base.cx.mq = [] ∧ base.cx.vq = [] ∧ base.cx.cq = [] ∧ base.cx.act.poisoned = false
    ∧ wrote (.fence 1 3) base base 0 0 0x1004 = true
    ∧ traps (base.onCx (fun x => { x with deferred := d.cx.deferred })) (.fence 0 1) .window 8 = true
    ∧ (base.onCx (fun x => { x with vq := b.cx.vq })).cx.vq ≠ []
    ∧ waits (.fence 1 0) (base.onCx (fun x => { x with vq := b.cx.vq })) (base.onCx (fun x => { x with vq := b.cx.vq, op := { x.op with phase := 1 } })) .engines false 1 = true
    ∧ runs (.fence 0 2) n (fun t => t.cx.st = .waiting && t.cx.op.phase = 1 && t.net.length = 1) = true := by
  simp only [State.mayRelease]; decide +kernel

theorem witness_LineInstructionsAndPrefetch :
    let p := mem [(1, 0x80#64), (2, 0xC0#64), (3, 0x200000#64)]
    let full := p.onCx (fun x => { x with unack := { die := 65535 } })
    let miss := p.sendPacket 0#2 0#2 (.xlateReq (p.reqOf 0 0) 0 0x200000 .read true true false)
    inWindow 0x80 = false ∧ p.cx.op.fault = none ∧ p.atHand 0x80 .read pg ∧ (p.used pg).fillComing p.meId (pg.xl 0x80).pa = false
    ∧ runs (.flush 1) p (fun t => t.net.length = 1 && t.me.l1.map (·.dirty) = [0#64] && t.cx.unack = { die := 1 }) = true
    ∧ runs (.inval 1) p (fun t => t.net.length = 0 && t.me.l1.map (·.valid) = [1#64]) = true
    ∧ runs (.sflush 1) p (fun t => decide (t.me.steer = [])) = true ∧ runs (.sflush 3) p (fun t => decide (t.me.steer = [pg])) = true
    ∧ p.ownerOf p.meId = some ten ∧ p.me.steer? ten.id 0x80 = some pg ∧ leafFault ten pg 0x80 .read false = none ∧ p.me.steer? ten.id 0x200000 = none
    ∧ runs (.pref 1 1) p (fun t => t.net.length = 0 && t.cx.pc = 0x1004#64) = true ∧ runs (.pref 2 0) p (fun t => t.net.length = 1) = true
    ∧ runs (.pref 3 0) p (fun t => t.net.length = 1) = true
    ∧ (p.used pg).lineRoom (pg.xl 0x80).pa none = true ∧ (full.used pg).lineRoom (pg.xl 0x80).pa none = false ∧ waits (.flush 1) full (full.used pg) .counters false 0 = true
    ∧ miss.missOut = true ∧ waits (.pref 2 0) miss miss .counters false 0 = true := by
  refine ⟨?_, ?_, ⟨?_, ten, ?_⟩, ?_, ?_, ?_, ?_, ?_, ?_, ?_, ?_, ?_, ?_, ?_, ?_, ?_, ?_, ?_, ?_, ?_⟩ <;> decide +kernel

theorem witness_PinAndUnpinComplete :
    let s := mem [(1, 0x6FC0#64), (2, 5#64), (3, 0x8000#64), (4, 1#64)]
    let u := s.onMe (fun c => { c with pinBy := 1#512 <<< 447 })
    let b := u.onCx (fun x => { x with vq := [{ op := .tzero 0 0, serial := 1, user := false, word0 := 0#32 }] })
    let o := b.onCx (fun x => { x with op := { x.op with phase := 1 } })
    s.cx.mayG 5 = true ∧ s.pinRoom 0x6FC0 5 = true ∧ runs (.pin 5 1 2) s (fun t => t.cx.rg 5 = 1#64 && t.me.pinned 447 && !t.me.pinned 448) = true
    ∧ traps s (.pin 5 3 2) .illegal 0 = true ∧ traps s (.pin 5 4 2) .align 1 = true
    ∧ (∀ k ∈ allCtx, (u.me.ctx k).mq = [] ∧ (u.me.ctx k).vq = [] ∧ (u.me.ctx k).cq = []) ∧ runs (.unpin 5 1 2) u (fun t => t.cx.rg 5 = 1#64 && !t.me.pinned 447) = true
    ∧ (b.me.ctx 0).vq ≠ [] ∧ waits (.unpin 5 1 2) b (b.onMe (fun c => c.awaitEngines c.cur)) .engines false 1 = true
    ∧ o.me.enginesDone 0 = true ∧ runs (.unpin 5 1 2) o (fun t => t.cx.rg 5 = 1#64 && t.cx.vq.length = 1) = true := by decide +kernel

theorem witness_AddressWaitCompletes :
    let s := mem [(1, 0x80#64), (2, 7#64)]
    let at_ (l : List (BitVec 5 × Word)) (o : OpState) (e : Word) : State := mem l (fun x => { x with op := { o with phase := 9, elapsed := e }, waitlim := 10#64 })
    let e : PageEntry := { pg with level := 1#3, lg := 12, pa := 2 ^ 51, w := true }
    let h := ({ s with me := { s.me with steer := [e] } } : State)
    s.cx.mayG 5 = true ∧ s.atHand 0x80 .read pg ∧ (pg.xl 0x80).region ≠ .host ∧ (s.used pg).cx.relOverlaps (relKey (.paged (pg.xl 0x80))) 8 = false ∧ (e.xl 0x80).region = .host
    ∧ runs (.waita 5 1 2 0 3 0) s (fun t => t.net.length = 2 && t.cx.st = .waiting && t.cx.op.phase = 9) = true
    ∧ traps h (.waita 5 1 2 0 3 0) .atomicPath 0x80 = true
    ∧ wrote (.waita 5 1 2 0 3 0) (at_ [(1, 0x80#64)] { status := some 0 } 0) ((at_ [(1, 0x80#64)] { status := some 0 } 0).acquireLines 0 0 0) 5 0 0x1004 = true
    ∧ wrote (.waita 5 1 2 0 3 0) (at_ [(1, 0x80#64)] { status := some 2 } 0) (at_ [(1, 0x80#64)] { status := some 2 } 0) 5 2 0x1004 = true
    ∧ runs (.waita 0 1 2 0 3 0) (at_ [(1, 0x80#64)] { status := some 2 } 0) (fun t => t.cx.st = .parked) = true
    ∧ waits (.waita 5 1 2 0 3 0) (at_ [(1, 0x80#64)] {} 9) (at_ [(1, 0x80#64)] {} 9) .address true 9 = true
    ∧ wrote (.waita 5 1 2 0 3 0) (at_ [(1, 0x80#64)] {} 10) ((at_ [(1, 0x80#64)] {} 10).withdrawWaits 0 0) 5 1 0x1004 = true ∧ (at_ [(1, 0x80#64)] {} 10).waitStands = false
    ∧ runs (.waita 0 1 2 0 3 0) (at_ [(1, 0x80#64)] {} 10) (fun t => t.cx.st = .parked && t.cx.faultCause = 17#64) = true
    ∧ runs (.waita 0 1 2 0 3 0) { at_ [(1, 0x80#64)] {} 10 with net := [{ id := 1, vnet := 0, body := .waitReq ⟨⟨0, 0, 1, false, 0#2⟩, pg.xl 0x80, 8, 0, 0, 0, false, none⟩ }] } (fun t => t.cx.st = .waiting) = true := by
  refine ⟨?_, ⟨?_, ten, ?_⟩, ?_, ?_, ?_, ?_, ?_, ?_, ?_, ?_, ?_, ?_, ?_, ?_, ?_⟩ <;> decide +kernel

/-! ## What meets the hypotheses: messages, tasks, pipes and the system -/

/-- A state of the issuing instruction. -/
def at_ (s : State) (o : OpState) : State := s.onCx (fun x => { x with op := o })

/-- A group of the two cores 0 and 1 of the cluster, on slot 2 with id 0. -/
def grp : Group := { gang := 1, id := 0, slot := 2, members := [0#20, mkCore 0 0 0 1] }

/-- The module with that group bound. -/
def grouped (l : List (BitVec 5 × Word)) : State :=
  { (mem l).onMe (fun c => { c with l1 := [], grp := c.grp.set 2 (BitVec.ofNat 64 (2 ^ 63 + 2 * 2 ^ 40)) }) with groups := [grp] }

/-- A binding of the issuing core as the worker, with a ring of 512 bytes. -/
def bnd : Binding := { worker := 0#20, guard := mkCore 0 1 0 0, ringOff := 0x1000, rsz := 9, p := false, d := false, filter := 0#16, lag := 512 }

/-- The module with that binding. -/
def bound_ (f : Binding → Binding := id) : State := { (mem []).onMe (fun c => { c with l1 := [] }) with bindings := [f bnd] }

theorem witness_MessagesAreHeld :
    let s := at_ (mem [(1, 0x2000004041#64), (2, selfWindow 0x1000), (3, 0x1000000000000000#64), (4, 0x0010000000000000#64), (5, 0x80#64), (6, 0xFFF#64), (7, 0xFFFF#64), (8, 0xFFFFF00000000#64), (9, 1#64)]) { got := [9#64] }
    let n := at_ s {}
    let g := grouped [(4, 0x0010000000000000#64), (5, 0x80#64)]
    s.mayHold 0 ∧ s.cx.op.got.length = 1 ∧ addrOf (s.cx.rg 2) 0 % 8 = 0 ∧ (s.ownerOf (coreIn 0x2000004041)).map (·.id) = some (s.tenantNo s.meId) ∧ s.mayLog (s.messageItem 0x2000004041)
    ∧ wrote (.send 1 2) s (s.onMe (fun c => { c with outbox := [s.newEntry 0 .message 0x2000004041 [9#64] [0x20#20] 1], tag := 2#11 })) 0 0 0x1004 = true
    ∧ g.slotOf 0 = some 2#2 ∧ g.groupAt g.meId 2 = some grp ∧ g.mayLog (g.messageItem 0x0010000000000000)
    ∧ runs (.send 4 0) g (fun t => t.me.outbox.map (fun e => e.dests.map (·.core)) = [[0x8000#20]]) = true ∧ runs (.mcast 0 0 2) g (fun t => t.me.outbox.map (·.hdr) = [0x0030000000000000#64]) = true
    ∧ n.atHand 0x80 .read pg ∧ runs (.launch 5 0) n (fun t => t.me.outbox.map (·.kind) = [.post 0x80]) = true
    ∧ runs (.launch 6 7) n (fun t => t.me.outbox.map (·.kind) = [.notice 0xFFF 0xFFFF]) = true ∧ wrote (.launch 6 0) n n 0 0 0x1004 = false
    ∧ wrote (.launch 6 10) n n 0 0 0x1004 = true
    ∧ headerBad 0x20000000 = true ∧ traps (mem [(1, 0x20000000#64)]) (.send 1 2) .illegal 0 = true ∧ traps n (.send 8 2) .window 0 = true ∧ traps n (.send 1 9) .align 1 = true
    ∧ n.cx.rel = [] ∧ windowTarget 0 0x1FF0FC000001000 = some (.self 0x1000) ∧ n.me.selfOpen 0x1000 false = true ∧ n.me.localBad 0x1000 8 = false
    ∧ runs (.send 1 2) n (fun t => t.me.outbox.map (·.payload) = [[0xFF80#64]]) = true := by
  refine ⟨⟨?_, ?_⟩, ?_, ?_, ?_, ?_, ?_, ?_, ?_, ?_, ?_, ?_, ⟨?_, ten, ?_⟩, ?_, ?_, ?_, ?_, ?_, ?_, ?_, ?_, ?_, ?_, ?_, ?_, ?_⟩ <;> ((try simp only [State.mayLog]); decide +kernel)

/-- A launch record in the window range (log entry 117): open, closed and malformed. -/
theorem witness_MessagesAreHeld_window :
    let s := mem [(1, selfWindow 0x1000), (2, selfWindow 0x7F80), (3, selfWindow 0x8000)]
    s.mayHold 0 ∧ s.cx.op.fault = none ∧ (∀ i ∈ [1#5, 2#5, 3#5], inWindow (addrOf (s.cx.rg i) 0#64) = true ∧ addrOf (s.cx.rg i) 0#64 % 128 = 0)
    ∧ s.me.selfOpen 0x1000 false = true ∧ s.me.selfOpen 0x7F80 false = false
    ∧ windowTarget s.meId (addrOf (s.cx.rg 1) 0#64) = some (.self 0x1000) ∧ windowTarget s.meId (addrOf (s.cx.rg 2) 0#64) = some (.self 0x7F80)
    ∧ windowTarget s.meId (addrOf (s.cx.rg 3) 0#64) = none
    ∧ runs (.launch 1 0) s (fun t => t.me.outbox.map (·.kind) = [.post (selfWindow 0x1000)]) = true
    ∧ traps s (.launch 2 0) .window (selfWindow 0x7F80) = true ∧ traps s (.launch 3 0) .window (selfWindow 0x8000) = true := by
  refine ⟨⟨?_, ?_⟩, ?_, ?_, ?_, ?_, ?_, ?_, ?_, ?_, ?_, ?_⟩ <;> decide +kernel

theorem witness_ContainmentPoints :
    let e : OutEntry := { slot := 0, ctx := 0#2, serial := 1, kind := .message, hdr := 0x0020002000004040#64, dests := [{ core := 0x20#20, inFlight := false }] }
    let s := (grouped []).onMe (fun c => { c with outbox := [e], pails := [{ st := .running }], ctx0 := { c.ctx0 with act := { c.ctx0.act with source := .pail 0 } } })
    let b := bound_
    s.mayContain ∧ s.heldNow = [e] ∧ runs .contain s (fun t => decide (t.net = s.contained.net) && t.cx.pc = 0x1004#64 && !t.cx.act.dirtied) = true
    ∧ s.contained.net.map (·.body) = [.message 0x20 0 1 0x0020000000004040 [] 0 false]
    ∧ runs .exit s (fun t => (t.me.ctx 0).st = .free && decide (t.me.pails = [{ st := .freed }]) && t.net.length = 1) = true
    ∧ b.workerBinding b.meId = some bnd ∧ b.mayLog { type := 6, body := leBytesOf 4 bnd.nextLog } ∧ covers bnd.pass 1 = false ∧ (b.logged { type := 6, body := leBytesOf 4 1 }).cx.timedOut = false
    ∧ waits .contain b ((b.logged { type := 6, body := leBytesOf 4 1 }).onCx (fun x => { x with op := { x.op with phase := 5, aux := 2 } })) (.verdict 1) true 5 = true
    ∧ waits .exit (at_ b { phase := 5, aux := 2 }) (at_ b { phase := 5, aux := 2 }) (.verdict 1) true 5 = true
    ∧ (at_ b { phase := 5, aux := 2, elapsed := 0x100000000 }).cx.timedOut = true
    ∧ runs .exit (at_ b { phase := 5, aux := 2, elapsed := 0x100000000 }) (fun t => (t.me.ctx 0).st = .free && t.tenants.any (fun u => u.records.any (fun r => r.cause = .lgViolation))) = true
    ∧ runs .contain (at_ (bound_ (fun b => { b with pass := some 1 })) { phase := 5, aux := 2 }) (fun t => t.cx.st = .ready) = true := by
  refine ⟨⟨?_, ?_, ?_, ?_, ?_⟩, ?_, ?_, ?_, ?_, ?_, ?_, ?_, ?_, ?_, ?_, ?_, ?_, ?_⟩
  case refine_5 => intro sc; simp only [State.mayRelease]; revert sc; decide +kernel
  all_goals ((try simp only [State.mayLog]); decide +kernel)

theorem witness_SpawnCompletes :
    let e (d : CoreId) : OutEntry := { slot := 0, ctx := 0#2, serial := 1, kind := .spawn d, hdr := 0#64 }
    let s (d : CoreId) (o : OpState) := at_ ((grouped [(1, BitVec.ofNat 64 (d.toNat * 2 ^ 32)), (2, 0x2000#64), (3, 7#64)]).onMe (fun c => { c with outbox := [e d] })) o
    (s 0x20 {}).me.cur ≠ 3#2 ∧ ((s 0x20 {}).cx.rg 1).toNat / 2 ^ 52 = 0 ∧ ((s 0x20 {}).cx.rg 1).toNat % 2 ^ 32 = 0 ∧ (s 0x20 {}).cx.mayG 5 = true ∧ ((s 0x20 {}).cx.rg 2).toNat % 4 = 0
    ∧ ((s 0x20 {}).ownerOf 0x20).map (·.id) = some ((s 0x20 {}).tenantNo 0) ∧ (s 0x20 {}).spawnEntry = some (e 0x20) ∧ (s 0 {}).mayContain ∧ (s 0x20 {}).mayContain ∧ (s 0 {}).cx.mayG 31 = true
    ∧ runs (.spawn 5 1 2) (s 0 {}) (fun t => t.cx.pc = 0x2000#64 && t.cx.rg 31 = 0x1004#64 && t.cx.rg 5 = 1#64 && decide (t.me.outbox = [])) = true
    ∧ runs (.spawn 5 1 2) (s 0x20 {}) (fun t => t.cx.st = .waiting && t.cx.op.phase = 9 && t.net.map (·.body) = [.spawnReq 0x20 ⟨0, 0, 1, false, 0#2⟩ 0 1 0x0020000000000005 [0x2000, 7, 0, 0, 0] 31 8]) = true
    ∧ (s 0x20 { phase := 9, status := some 0 }).mayLog { type := 4, body := leBytesOf 8 0 }
    ∧ runs (.spawn 5 1 2) (s 0x20 { phase := 9, status := some 0 }) (fun t => t.cx.pc = 0x1004#64 && t.cx.rg 5 = 0#64 && decide (t.me.outbox = [])) = true
    ∧ runs (.spawn 5 1 2) (s 0x20 { phase := 9, status := some 1 }) (fun t => t.cx.pc = 0x2000#64 && t.cx.rg 5 = 1#64) = true := by
  refine ⟨?_, ?_, ?_, ?_, ?_, ?_, ?_, ⟨?_, ?_, ?_, ?_, ?_⟩, ⟨?_, ?_, ?_, ?_, ?_⟩, ?_, ?_, ?_, ?_, ?_, ?_⟩
  case refine_12 => intro sc; simp only [State.mayRelease]; revert sc; decide +kernel
  case refine_17 => intro sc; simp only [State.mayRelease]; revert sc; decide +kernel
  all_goals ((try simp only [State.mayLog]); decide +kernel)

theorem witness_AqCompletes :
    let s := mem [(1, 0x80#64), (2, 5#64), (3, 0x211008#64)]
    (s.cx.rg 3).toNat < 2 ^ 24 ∧ (s.cx.rg 3).toNat / 2 ^ 21 % 8 ≤ 3 ∧ (s.cx.rg 3).toNat % 8 = 0 ∧ s.reachesPage (addrOf (s.cx.rg 1) 0) 8 .write pg ∧ (pg.xl 0x80).region ≠ .host
    ∧ (s.used pg).cx.relOverlaps (relKey (.paged (pg.xl 0x80))) 8 = false ∧ (s.used pg).countRoom ((s.used pg).scopeOfHome (s.used pg).meId (pg.xl 0x80) false) = true
    ∧ (s.used pg).mayLog { type := 3, size := 3, addr := some 0x80, dirty := true, aq := true, body := leBytesOf 8 5 ++ leBytesOf 8 (0x8000000000211008#64).toNat }
    ∧ runs (.aq 3 1 2) s (fun t => t.net.length = 2 && t.cx.pc = 0x1004#64 && t.cx.unack = { die := 2 }) = true := by
  refine ⟨?_, ?_, ?_, ⟨?_, ?_, ?_, ?_, ten, ?_⟩, ?_, ?_, ?_, ?_, ?_⟩ <;> ((try simp only [State.mayLog]); decide +kernel)

theorem witness_CountersComplete :
    let s := (mem [(1, 65535#64), (2, 0x0500000000000007#64), (3, 0xFFFFFFFFFFFFFFFF#64), (4, 65536#64), (6, 0xFB00000000000000#64)]).onMe (fun c => { c with counters := c.counters.set 7 { count := 1, b := true, handler := 5#8, arg := 9#56 } })
    let p := s.onMe (fun c => { c with counters := c.counters.set 7 { pipe := true } })
    s.me.counters[7].pipe = false ∧ p.me.counters[7].pipe = true ∧ traps p (.cntset 1 2 7) .illegal 0 = true ∧ traps p (.cntadd 5 3 7) .illegal 0 = true ∧ traps p (.cntwait 5 7) .illegal 0 = true
    ∧ runs (.cntset 1 2 7) s (fun t => decide (t.me.counters[7] = { count := 65535, b := true, handler := 5#8, arg := 7#56 }) && decide (t.me.runq = [])) = true
    ∧ runs (.cntset 0 6 7) s (fun t => decide (t.me.counters[7] = { count := 0, handler := 251#8 }) && t.me.runq.length = 1) = true
    ∧ traps s (.cntset 4 2 7) .illegal 0 = true
    ∧ runs (.cntadd 5 3 7) s (fun t => decide (t.me.counters[7] = { count := 0, handler := 5#8, arg := 9#56 }) && t.cx.rg 5 = 0#64 && t.me.runq.map (·.arg) = [9#56]) = true
    ∧ runs (.cntadd 5 3 0) s (fun t => t.cx.rg 5 = 0x20000#64 && t.me.counters[0].e) = true ∧ runs (.cntadd 5 4 7) s (fun t => t.cx.rg 5 = 0x3FFFF#64) = true
    ∧ wrote (.cntwait 5 0) s (s.acquireLines 0 0 2) 5 0 0x1004 = true ∧ waits (.cntwait 5 7) s s (.counterZero 7) true 0 = true
    ∧ wrote (.cntwait 5 7) (at_ s { elapsed := 0x100000000 }) (at_ s {}) 5 1 0x1004 = true ∧ runs (.cntwait 0 7) (at_ s { elapsed := 0x100000000 }) (fun t => t.cx.st = .parked) = true := by decide +kernel

theorem witness_YieldGivesWay :
    let s := base.onMe (fun c => { c with ctx2 := { c.ctx2 with st := .ready } })
    runs .yield s (fun t => t.cx.yieldOn = 4#4 && t.cx.pc = 0x1004#64 && decide (t.me.nextReady = some 2#2)) = true
    ∧ s.me.nextReady = some 2#2 ∧ (2#2 : CtxId) = s.me.cur + 1#2 + BitVec.ofNat 2 1 := by decide +kernel

theorem witness_GroupInstructionsComplete :
    let s := grouped [(1, 5#64)]
    let n (o : OpState) := at_ s { o with phase := 9 }
    let r : Req := ⟨0, 0, 1, false, 0#2⟩
    s.cx.mayG 5 = true ∧ s.cx.op.phase ≠ 9 ∧ s.groupAt s.meId 2 = some grp ∧ s.arrivalOut grp s.meId = false ∧ s.mayRelease (groupScope grp.members) 1 ∧ s.groupAt s.meId 3 = none
    ∧ runs (.gbar 5 2) s (fun t => t.cx.st = .waiting && t.cx.op.phase = 9 && t.net.map (·.body) = [.arrive 0 1 0 0 ⟨0, 0, 1, false, 0#2⟩ 2 0 0]) = true
    ∧ runs (.gred 5 1 5 2) s (fun t => t.net.map (·.body) = [.arrive 0 1 0 0 ⟨0, 0, 1, false, 0#2⟩ 2 6 5]) = true ∧ runs (.gbar 5 3) s (fun t => t.cx.st = .free) = true
    ∧ wrote (.gred 5 1 0 2) (n { status := some 0, result := some 8#64 }) ((n { status := some 0, result := some 8#64 }).acquireLines 0 0 0) 5 8 0x1004 = true
    ∧ wrote (.gbar 5 2) (n { status := some 1 }) (n { status := some 1 }) 5 1 0x1004 = true ∧ runs (.gred 5 1 0 2) (n { status := some 1 }) (fun t => t.cx.st = .parked) = true
    ∧ wrote (.gbar 5 3) (at_ s { phase := 1 }) (at_ s { phase := 1 }) 5 1 0x1004 = true ∧ runs (.gbar 5 2) (at_ s { phase := 9, elapsed := 0x100000000 }) (fun t => t.cx.rg 5 = 1#64 && t.groups.length = 1) = true
    ∧ runs (.gbar 5 2) { at_ s { phase := 9, elapsed := 0x100000000 } with net := [{ id := 1, vnet := 0, body := .episode ⟨0, 0, 1, false, 0#2⟩ 2 .ended }] } (fun t => t.cx.st = .waiting) = true
    ∧ traps (n { status := some 2 }) (.gbar 5 2) .illegal 0 = true ∧ waits (.gbar 5 2) (n {}) (n {}) (.group 2) true 9 = true
    ∧ combineAll 0 3 [1#64, 2#64, 3#64] = 6#64 ∧ [(1, r, 5#64), (0, r, 6#64)].Perm [(0, r, 6#64), (1, r, 5#64)] := by
  refine ⟨?_, ?_, ?_, ?_, ?_, ?_, ?_, ?_, ?_, ?_, ?_, ?_, ?_, ?_, ?_, ?_, ?_, ?_, List.Perm.swap _ _ _⟩ <;> ((try simp only [State.mayRelease]); decide +kernel)

/-- A pipe end of the issuing core. -/
def pend (producer : Bool) (state credits : Nat) (closed : Bool := false) : PipeEnd :=
  { producer := producer, state := state, closedHere := closed, index := 0, lsz := 7, slots := 4, pos := 3, credits := credits, far := mkCore 0 1 0 0, farQ := 2#3, base := 0x1000 }

theorem witness_PipeInstructionsComplete :
    let s (p : PipeEnd) (e : Word := 0) := ((grouped [(1, 2#64)]).onMe (fun c => { c with pipes := c.pipes.set 1 (some p), counters := c.counters.set 28 { pipe := true, count := 2 } })).onCx (fun x => { x with qbound := 2#8, op := { elapsed := e }, waitlim := 5 })
    (s (pend false 0 0)).cx.qbound.getLsbD 1 = true ∧ (s (pend false 0 0)).me.pipes[1] = some (pend false 0 0) ∧ (pend false 0 0).closedHere = false ∧ 3 ≤ (pend false 0 0).slots
    ∧ wrote (.qwait 1 1 5 0) (s (pend false 0 0)) ((s (pend false 0 0)).acquireLines 0 0 1) 5 0 0x1004 = true ∧ wrote (.qwait 1 0 5 0) (s (pend false 2 0)) (s (pend false 2 0)) 5 0 0x1004 = true
    ∧ wrote (.qwait 1 0 5 3) (s (pend false 1 0)) (s (pend false 1 0)) 5 2 0x1004 = true ∧ wrote (.qfree 1 0 5 4) (s (pend true 2 3)) (s (pend true 2 3)) 5 3 0x1004 = true
    ∧ runs (.qfree 1 0 0 4) (s (pend true 2 3)) (fun t => t.cx.st = .parked && t.cx.faultCause = 10#64) = true
    ∧ wrote (.qfree 1 0 5 4) (s (pend true 0 3) 5) (at_ (s (pend true 0 3)) {}) 5 1 0x1004 = true ∧ waits (.qfree 1 0 5 4) (s (pend true 0 3) 4) (s (pend true 0 3) 4) (.pipe 1) true 0 = true
    ∧ traps (s (pend true 0 3)) (.qwait 1 0 5 1) .illegal 0 = true ∧ traps (s (pend true 0 3)) (.qfree 1 0 5 5) .illegal 0 = true ∧ traps (s (pend true 0 3 true)) (.qadv 1 0 1) .illegal 0 = true
    ∧ wrote (.qstat 1 5) (s (pend true 1 3)) (s (pend true 1 3)) 5 0x57040303 0x1004 = true ∧ wrote (.qstat 2 5) (s (pend true 1 3)) (s (pend true 1 3)) 5 0x30000000 0x1004 = true
    ∧ (s (pend true 0 3)).mayRelease 1 1 ∧ traps (s (pend true 0 3)) (.qadv 1 0 4) .illegal 0 = true
    ∧ runs (.qadv 1 0 2) (s (pend false 0 0)) (fun t => decide (t.me.pipes[1] = some { pend false 0 0 with pos := 1 }) && t.me.counters[28].count = 0 && t.net.map (·.body) = [.pipe 0x20 2 1 (.credits 2)]) = true
    ∧ runs (.qadv 1 0 3) (s (pend true 0 3)) (fun t => decide (t.me.pipes[1] = some { pend true 0 0 with pos := 2 }) && t.net.map (·.body) = [.pipe 0x20 2 1 (.fill 3)]) = true
    ∧ runs (.qclose 1) (s (pend true 0 3)) (fun t => decide (t.me.pipes[1] = some (pend true 1 3 true)) && t.net.map (·.body) = [.depart 0x20 2 1 true]) = true := by
  simp only [State.mayRelease]; decide +kernel

theorem witness_SpecialRegisters :
    let s := (mem [(1, 31#64), (2, 32#64), (3, 1000#64), (4, 1001#64), (6, 0x000FFFFFFFFFF01F#64), (7, 0xFFF#64)] (fun x => { x with unack := { clu := 1, sys := 2 }, fflags := 5#5 })).onMe (fun c => { c with ringNext := 9#64 })
    let v := s.onCx (fun x => { x with vq := [{ op := .tzero 0 0, serial := 1, user := false, word0 := 0#32 }] })
    s.cx.mayG 5 = true ∧ s.cx.vq = [] ∧ v.cx.vq ≠ [] ∧ s.ownerOf s.meId = some ten ∧ s.cx.sup = true ∧ s.me.cur ≠ 3#2 ∧ 7 = (7#8).toNat ∧ 0x28 ≤ (255#8).toNat
    ∧ wrote (.rdsr 5 0) s s 5 0x100 0x1004 = true ∧ wrote (.rdsr 5 9) s s 5 5 0x1004 = true ∧ waits (.rdsr 5 9) v v .vectorFlags false 0 = true ∧ wrote (.rdsr 5 0x10) s s 5 0x0002000000000001 0x1004 = true
    ∧ wrote (.rdsr 5 0x12) s s 5 9 0x1004 = true ∧ wrote (.rdsr 5 0x22) s s 5 0x200000 0x1004 = true ∧ wrote (.rdsr 5 0x24) s s 5 0x210000 0x1004 = true ∧ wrote (.rdsr 5 0x27) s s 5 20 0x1004 = true
    ∧ wrote (.rdsr 5 0x13) s s 5 0x100000000 0x1004 = true ∧ traps s (.rdsr 5 0x17) .illegal 0 = true ∧ traps s (.wrsr 1 7) .illegal 0 = true
    ∧ runs (.wrsr 1 9) s (fun t => t.cx.fflags = 31#5) = true ∧ traps s (.wrsr 2 9) .illegal 0 = true ∧ traps s (.wrsr 1 0x0A) .illegal 0 = true ∧ traps s (.wrsr 1 0x16) .illegal 0 = true
    ∧ runs (.wrsr 3 0x27) s (fun t => t.tenants.map (·.pbudget) = [1000#64]) = true ∧ traps s (.wrsr 4 0x27) .illegal 0 = true
    ∧ runs (.wrsr 6 0x25) s (fun t => t.tenants.map (·.faultq) = [0x000FFFFFFFFFF01F#64]) = true ∧ traps s (.wrsr 7 0x25) .illegal 0 = true := by decide +kernel

theorem witness_SystemInstructionsComplete :
    let s := (grouped [(1, 2#64), (2, 0x3001#64)]).onMe (fun c => { c with ctx2 := { c.ctx2 with st := .parked, pc := 0x40#64, width := 8 } })
    let u := { s with me := { s.me with cur := 3#2, ctx3 := s.me.ctx0 } }
    s.cx.sup = true ∧ s.mayLog (branchItem (0x3001 - 0x1000)) ∧ runs (.eret 2) s (fun t => t.cx.pc = 0x3001#64 && !t.cx.sup) = true
    ∧ waits .idle s s .idle false 1 = true ∧ wrote .idle (at_ s { phase := 1 }) s 0 0 0x1004 = true
    ∧ u.me.cur = 3#2 ∧ (u.cx.rg 1).toNat ≤ 2 ∧ u.cx.mayG 5 = true ∧ (u.me.ctx 2).st = .parked ∧ runs (.resume 5 1 1) u (fun t => t.cx.rg 5 = 0#64 && (t.me.ctx 2).st = .ready && (t.me.ctx 2).pc = 0x48#64) = true
    ∧ wrote (.resume 5 3 0) u u 5 1 0x1004 = true ∧ traps s (.resume 5 1 0) .illegal 0 = true
    ∧ inWindow (addrOf (s.cx.rg 2) 0) = false ∧ s.mayRelease 2 1 ∧ (s.afterRelease 2 1).ownerOf (s.afterRelease 2 1).meId = some ten
    ∧ runs (.shoot 5 2 0) s (fun t => t.cx.st = .waiting && t.cx.op.aux = 2 && t.cx.op.result = some 64 && t.net.map (·.body) = [.shootReq 0 false 0 false 0x3000 12 ⟨0, 0, 1, false, 0#2⟩, .shootReq 0 true 0 false 0x3000 12 ⟨0, 0, 1, false, 0#2⟩]) = false
    ∧ runs (.shootAll 5 0) s (fun t => t.cx.st = .waiting && t.cx.op.result = some 64) = true
    ∧ wrote (.shoot 5 2 0) (at_ s { phase := 9, aux := 0, result := some 64 }) s 5 64 0x1004 = true ∧ waits (.shootAll 5 0) (at_ s { phase := 9, aux := 1 }) (at_ s { phase := 9, aux := 1 }) .shoot false 9 = true := by
  simp only [State.mayLog, State.mayRelease]; decide +kernel

theorem witness_VatConfigCompletes :
    let s (l : List Word) := at_ { grouped [(1, 0x40#64)] with hbm := [(0x200100, 3#8), (0x200102, 1#8), (0x200104, 0x20#8)] } { got := l }
    let d : List Word := [1, 0x14, 0x200100, 1, 0, 0, 0, 0]
    let r : List Word := [0, 0, 0, 0, 0, 0, 0, 0]
    (s d).cx.sup = true ∧ (s d).cx.mayG 5 = true ∧ addrOf ((s d).cx.rg 1) 0 % 64 = 0 ∧ (s d).mayRelease 2 1 ∧ (s d).cx.op.got.length = 8 ∧ ((s d).afterRelease 2 1).ownerOf ((s d).afterRelease 2 1).meId = some ten
    ∧ ((s d).afterRelease 2 1).tenant 0 = some ten
    ∧ vatBlockBad .define (fun i => (d[i]?).getD 0) = false ∧ vatBlockBad .define (fun i => ((d.set 7 1)[i]?).getD 0) = true
    ∧ runs (.vatcfgDefine 5 1) (s (d.set 7 1)) (fun t => t.cx.rg 5 = 3#64) = true ∧ runs (.vatcfgDefine 5 1) (s (d.set 0 0)) (fun t => t.cx.rg 5 = 4#64) = true
    ∧ runs (.vatcfgResize 5 1) (s (r.set 0 5)) (fun t => t.cx.rg 5 = 4#64) = true ∧ runs (.vatcfgRetire 5 1) (s r) (fun t => t.cx.rg 5 = 0#64 && (t.tenants.map (fun u => u.vats.map (·.state))) = [[2]]) = true
    ∧ runs (.vatcfgDefine 5 1) (s d) (fun t => t.cx.rg 5 = 0#64 && (t.tenants.map (fun u => u.vats.map (·.defining))) = [[false, true]]) = true
    ∧ runs (.vatcfgResize 5 1) (s ((r.set 2 0x200100).set 3 1)) (fun t => t.cx.rg 5 = 0#64 && (t.tenants.map (fun u => u.vats.map (·.cur.gen))) = [[2]]) = true
    ∧ runs (.vatcfgResize 5 1) ({ s r with tenants := [{ ten with vats := ten.vats.map (fun v => { v with state := 1 }) }] }) (fun t => t.cx.rg 5 = 1#64) = true
    ∧ runs (.vatcfgDefine 5 1) { s d with hbm := [(0x200100, 1#8), (0x200102, 1#8), (0x200104, 0x20#8)] } (fun t => t.cx.rg 5 = 2#64) = true
    ∧ runs (.vatcfgDefine 5 1) { s (d.set 3 2) with hbm := [(0x200100, 3#8), (0x200102, 1#8), (0x200104, 0x20#8), (0x200108, 3#8), (0x20010A, 1#8), (0x20010C, 0x20#8)] } (fun t => t.cx.rg 5 = 2#64) = true
    ∧ runs (.vatcfgDefine 5 1) { s (d.set 0 0) with hbm := [(0x200100, 3#8), (0x200102, 1#8), (0x200104, 0x20#8), (0x200107, 0x80#8)] } (fun t => t.cx.rg 5 = 3#64) = true
    ∧ runs (.vatcfgDefine 5 1) (s (d.set 1 0x16)) (fun t => t.cx.rg 5 = 3#64) = true ∧ runs (.vatcfgDefine 5 1) { s ((d.set 3 0).set 5 0x100) with tenants := [{ ten with clusters := [0#20] }] } (fun t => t.cx.rg 5 = 5#64) = true := by
  simp only [State.mayRelease]; decide +kernel

theorem witness_LifeguardBindingCompletes :
    let s (l : List Word) := at_ ({ (grouped [(1, 0x40#64)]) with others := [(0x20#20, { gang := some 1, pinBy := BitVec.ofNat 512 (255 * 2 ^ 64) })] }) { got := l }
    let b : List Word := [0x2000000000, 0x2000001000, 9, 0x400000, 0, 0, 0, 0]
    let c : List Word := [0x4000000000, 0x2000001000, 9, 0x400000, 0, 0, 0, 0]
    (s b).cx.sup = true ∧ (s b).cx.mayG 5 = true ∧ addrOf ((s b).cx.rg 1) 0 % 64 = 0 ∧ (s b).mayRelease 2 1 ∧ (s b).cx.op.got.length = 8 ∧ lgBlockBad (fun i => (b[i]?).getD 0) = false
    ∧ runs (.lgbindBind 5 1) (s (b.set 2 8)) (fun t => t.cx.rg 5 = 3#64) = true ∧ runs (.lgbindBind 5 1) (s b) (fun t => t.cx.rg 5 = 1#64) = true ∧ runs (.lgbindBind 5 1) (s c) (fun t => t.cx.rg 5 = 1#64) = true
    ∧ runs (.lgbindBind 5 1) (s (b.set 0 0)) (fun t => t.cx.rg 5 = 5#64) = true ∧ runs (.lgbindBind 5 1) ({ s (b.set 0 0) with bindings := [bnd] }) (fun t => t.cx.rg 5 = 2#64) = true
    ∧ runs (.lgbindBind 5 1) (s (b.set 0 0x800000000000)) (fun t => t.cx.rg 5 = 0#64 && (t.core 0x20).ringLen = 512 && t.bindings.length = 1) = true
    ∧ runs (.lgbindBind 5 1) (s ((b.set 0 0x800000000000).set 1 0x2000001200)) (fun t => t.cx.rg 5 = 4#64) = true
    ∧ runs (.lgbindUnbind 5 1) (s [1]) (fun t => t.cx.rg 5 = 3#64) = true ∧ runs (.lgbindUnbind 5 1) (s [0x4000000000]) (fun t => t.cx.rg 5 = 1#64) = true ∧ runs (.lgbindUnbind 5 1) (s [0]) (fun t => t.cx.rg 5 = 2#64) = true
    ∧ runs (.lgbindUnbind 5 1) ({ s [0] with bindings := [bnd] }) (fun t => t.cx.rg 5 = 0#64 && decide (t.bindings = [])) = true := by
  simp only [State.mayRelease]; decide +kernel

theorem witness_LifeguardReaderCompletes :
    let rec_ : List Host.Cell := [(0x1000, 0x90#8), (0x1001, 0xFC#8), (0x1002, 0xFF#8), (0x1003, 0xFF#8), (0x1004, 0xFF#8)]
    let g : Binding := { bnd with worker := 0x20#20, guard := 0#20, total := 5, shown := 5, wp := 5, nextLog := 2 }
    let s (b : Binding) (f : Context → Context := id) : State := { (mem [(1, 1#64), (2, 1#64), (3, 2#64)] (fun x => f { x with lgtbase := selfWindow 0x1100 - 72 })).onMe (fun c => { c with l1 := [], localMem := rec_ ++ [(0x1101, 0x20#8)] }) with bindings := [b] }
    let late (x : Context) : Context := { x with op := { elapsed := 0x100000000 } }
    let r : Binding := { g with reader := some (0, 1), readTotal := 5, nextDel := 2, lastDel := 1, history := [{ seq := 1, type := 9, pc := 4, addr := 0, dirty := false }] }
    (s g).guardBinding (s g).meId = some g ∧ (mem []).guardBinding 0 = none ∧ wrote (.lgnext 7) (mem []) (mem []) 7 2 0x1004 = true
    ∧ (s g).cx.mayAll [1, 2, 3, 4, 5, 6, 7] = true ∧ (s g).reachesSelf (addrOf ((s g).cx.lgtbase + 72) 0) 8 false 0x1100 ∧ (s g).me.localBad 0x1100 8 = false ∧ (s g).cx.rel = []
    ∧ runs (.lgnext 7) (s g) (fun t => t.cx.pc = 0x2000#64 && t.cx.rg 1 = 9#64 && t.cx.rg 3 = 0xFFFFFFFFFFFFFFFC#64 && t.cx.rg 5 = 1#64 && t.cx.rg 7 = 0#64 && t.net.map (·.body) = [.readPointer 0x20 5 5]) = true
    ∧ runs (.lgnext 7) (s { g with reader := some (1, 1) }) (fun t => t.cx.st = .free) = true ∧ runs (.lgnext 7) (s r) (fun t => t.cx.st = .waiting && t.cx.op.timed) = true
    ∧ runs (.lgnext 7) (s r late) (fun t => t.cx.rg 7 = 1#64) = true ∧ runs (.lgnext 0) (s r late) (fun t => t.cx.st = .parked) = true
    ∧ runs (.lgverd 5 3 0) (s r) (fun t => t.cx.rg 5 = 1#64) = true ∧ runs (.lgverd 5 1 0) (s r) (fun t => t.cx.rg 5 = 0#64 && t.net.length = 1) = true
    ∧ runs (.lgverd 5 1 0) (s { r with sent := some 1 }) (fun t => t.cx.rg 5 = 0#64 && t.net.length = 0) = true ∧ runs (.lgverd 5 1 2) (s { r with sent := some 1 }) (fun t => t.cx.rg 5 = 3#64) = true
    ∧ runs (.lgverd 5 1 2) (s { r with nextDel := 3, lastDel := 2 }) (fun t => t.cx.rg 5 = 2#64) = true
    ∧ runs (.lgverd 5 1 2) (s r) (fun t => t.cx.rg 5 = 0#64 && t.net.map (·.body) = [.verdict 0x20 1 (some { seq := 1, type := 9, pc := 4, addr := 0, dirty := false })]) = true
    ∧ runs (.lgverd 5 1 3) (s r) (fun t => t.cx.st = .free) = true ∧ runs (.lgverd 5 1 0) (s g) (fun t => t.cx.st = .free) = true
    ∧ wrote (.lgstat 5 0) (s r) (s r) 5 0x200050000 0x1004 = true ∧ wrote (.lgstat 5 1) (s r) (s r) 5 0x8000002000000000 0x1004 = true ∧ wrote (.lgstat 5 1) (bound_) (bound_) 5 0x4000002000000000 0x1004 = true
    ∧ wrote (.lgstat 5 0) (bound_) (bound_) 5 0x100000000 0x1004 = true ∧ wrote (.lgstat 5 0) (mem []) (mem []) 5 0 0x1004 = true := by
  simp only [State.reachesSelf]; decide +kernel

/-! ## What meets the hypotheses: engines and events -/

/-- The module with two tiles whose lanes count up, tile 1 all 2.0, and a vector command in the queue. -/
def vec (op : Instr) (f : EngCmd → EngCmd := id) : State :=
  (mem []).onCx (fun x =>
    { x with
      t := (x.t.set 0 (Vector.ofFn (fun r : Fin 8 => Vector.ofFn (fun l : Fin 16 => BitVec.ofNat 32 (0x3F800000 + 0x800000 * (l.val % 2) + 0 * r.val))))).set 1
        (Vector.replicate 8 (Vector.replicate 16 0x40000000#32))
      vq := [f { op := op, serial := 1, user := false, word0 := 0#32 }] })

/-- Lanes of a tile of context 0 after the queued command has ended. -/
def lanes (s : State) (d : BitVec 3) (l : List (Nat × Nat × Nat)) : Bool :=
  runs (.vectorCommandDone 0 0 false) s (fun t => decide ((t.ctxAt 0 0).vq = []) && l.all (fun p => (t.ctxAt 0 0).lane d p.1 p.2.1 = BitVec.ofNat 32 p.2.2))

theorem witness_VectorInstructionsIssue :
    let s := mem []
    let o := s.onCx (fun x => { x with orphans := [{ tile := 1#3, engine := 1#2, word0 := 5#32 }] })
    let q (n : Nat) := s.onCx (fun x => { x with vq := List.replicate n { op := .vadd 3 4 5 0 0, serial := 1, user := false, word0 := 0#32 } })
    s.cx.mayTiles (shapeOf (.vadd 0 1 2 15 0)).writes = true ∧ s.cx.tileBusy (.vadd 0 1 2 15 0) = false ∧ (∀ x ∈ s.cx.orphans, (shapeOf (.vadd 0 1 2 15 0)).reads.contains x.tile = false) ∧ s.mayLog (engineRecord (.vadd 0 1 2 15 0) 0)
    ∧ runs (.vadd 0 1 2 15 0) (q 1) (fun t => t.cx.vq.length = 2 && t.cx.pc = 0x1004#64 && t.cx.wroteT = 1#8) = true ∧ waits (.vadd 0 1 2 15 0) (q 2) (q 2) .engineQueue false 0 = true
    ∧ (q 1).cx.tileBusy (.vadd 0 3 2 15 0) = true ∧ waits (.vadd 0 3 2 15 0) (q 1) (q 1) .scoreboard false 0 = true ∧ runs (.vadd 0 1 2 15 0) o (fun t => t.cx.st = .parked && t.cx.faultAddr = 0x500000101#64) = true
    ∧ traps (s.onCx (fun x => { x with act := { x.act with tiles := 0 } })) (.tzero 0 15) .illegal 0 = true := by
  simp only [State.mayLog]; decide +kernel

theorem witness_LaneCommandsComplete :
    let q := vec (.vadd 2 0 1 15 0)
    q.vectorNext 0 0 ((q.ctxAt 0 0).vq.head (by decide +kernel))
    ∧ lanes q 2 [(0, 0, 0x40400000), (7, 15, 0x40800000)] = true ∧ lanes (vec (.vsub 2 0 1 3 0) (fun q => { q with mask := 1#16 })) 2 [(3, 0, 0xBF800000), (3, 2, 0), (4, 0, 0)] = true
    ∧ lanes (vec (.vfma 2 0 1 15 0)) 2 [(1, 1, 0x40800000)] = true ∧ lanes (vec (.vneg 0 0 15 0)) 0 [(0, 0, 0xBF800000)] = true ∧ lanes (vec (.vdiv 2 0 1 0 0)) 2 [(0, 0, 0x3F000000), (1, 0, 0)] = true
    ∧ lanes (vec (.vshuf 2 0 1 15 0)) 2 [(5, 5, 0x3F800000)] = true ∧ lanes (vec (.vlogic 2 0 1 15 0 3)) 2 [(0, 0, 0x3F800000), (0, 1, 0)] = true ∧ lanes (vec (.vshift 2 0 1 15 0 1)) 2 [(0, 0, 0x3F800000)] = true
    ∧ lanes (vec (.vcvt 2 1 15 0 0)) 2 [(0, 0, 2)] = true ∧ lanes (vec (.venc 2 1 15 0 6)) 2 [(0, 0, 127)] = true ∧ lanes (vec (.vdec 2 0 15 0 6)) 2 [(0, 0, 0)] = true
    ∧ lanes (vec (.vsel 2 0 1 15 1) (fun q => { q with mask := 2#16 })) 2 [(0, 0, 0x40000000), (0, 1, 0x40000000), (0, 3, 0x40000000)] = true ∧ lanes (vec (.tbcast 2 15 0 1) (fun q => { q with x := 7 })) 2 [(6, 6, 7)] = true
    ∧ lanes (vec (.viadd 2 0 1 15 0)) 2 [(0, 0, 0x7F800000)] = true ∧ lanes (vec (.vimul 2 1 1 15 0)) 2 [(0, 0, 0)] = true ∧ lanes (vec (.vmin 2 0 1 15 0)) 2 [(0, 0, 0x3F800000)] = true ∧ lanes (vec (.vmax 2 0 1 15 0)) 2 [(0, 0, 0x40000000)] = true
    ∧ lanes (vec (.vmul 2 0 1 15 0)) 2 [(0, 1, 0x40800000)] = true ∧ lanes (vec (.vabs 2 0 15 0)) 2 [(0, 1, 0x40000000)] = true ∧ lanes (vec (.tmov 2 1 15 0)) 2 [(0, 1, 0x40000000)] = true ∧ lanes (vec (.tzero 1 4)) 1 [(4, 1, 0), (5, 1, 0x40000000)] = true
    ∧ lanes (vec (.vrsqrt 2 0 15 0)) 2 [(0, 0, 0x3F800000)] = true ∧ lanes (vec (.vexp2 2 1 15 0)) 2 [(0, 0, 0x40800000)] = true ∧ lanes (vec (.vlog2 2 1 15 0)) 2 [(0, 0, 0x3F800000)] = true := by
  refine ⟨⟨?_, ?_, ⟨[], ?_⟩, ?_, ?_, ?_⟩, ?_⟩ <;> decide +kernel

theorem witness_MaskAndReductionCommandsComplete :
    let q := vec (.vcmp 0 1 15 0 1 2)
    q.vectorNext 0 0 ((q.ctxAt 0 0).vq.head (by decide +kernel)) ∧ runs (.vectorCommandDone 0 0 false) q (fun t => (t.ctxAt 0 0).m1 = 0x5555#16) = true
    ∧ lanes (vec (.vredsum 2 0 15 0)) 2 [(0, 0, 0x41C00000), (0, 1, 0)] = true ∧ lanes (vec (.vredmax 2 0 15 0) (fun q => { q with mask := 1#16 })) 2 [(7, 0, 0x3F800000)] = true
    ∧ (mem []).cx.mayG 5 = true ∧ (mem []).cx.mayTiles (shapeOf (.text 1 3 5)).writes = true ∧ (mem []).cx.tileBusy (.text 1 3 5) = false ∧ (∀ x ∈ (mem []).cx.orphans, (shapeOf (.text 1 3 5)).reads.contains x.tile = false) ∧ (mem []).mayLog (engineRecord (.text 1 3 5) 0)
    ∧ runs (.text 1 3 5) ((vec (.tzero 0 0)).onCx (fun x => { x with vq := [] })) (fun t => t.cx.rg 5 = 0x40000000#64) = true
    ∧ (let p := (vec (.tzero 0 0)).onCx (fun x => { x with vq := [], tPoison := 2#8 })
       p.cx.readsPoison (.text 1 3 5) = true ∧ runs (.text 1 3 5) p (fun t => t.cx.st = .free) = true)
    ∧ (let n := q.onCtx 0 0 (fun x => { x with t := x.t.set 0 (Tile.of (fun _ _ => 0x7FC00000#32)) })
       runs (.vectorCommandDone 0 0 false) n (fun t => (t.ctxAt 0 0).fflags = 16#5 && (t.ctxAt 0 0).m1 = 0#16) = true) := by
  refine ⟨⟨?_, ?_, ⟨[], ?_⟩, ?_, ?_, ?_⟩, ?_, ?_, ?_, ?_, ?_, ?_, ?_, ?_, ?_, ⟨?_, ?_⟩, ?_⟩ <;> ((try simp only [State.mayLog]); decide +kernel)

theorem witness_EngineWaitsComplete :
    let s := mem []
    let b := s.onCx (fun x => { x with mq := [{ op := .tzero 0 0, serial := 1, user := false, word0 := 0#32 }], mflt := true })
    waits (.ewait 0) b b .engines false 0 = true ∧ wrote (.ewait 2) b b 0 0 0x1004 = true ∧ wrote (.estat 5 1) b b 5 5 0x1004 = true
    ∧ wrote (.ewait 7) (s.onCx (fun x => { x with vScope := some 3#2 })) ((s.onCx (fun x => { x with vScope := some 3#2 })).acquireLines 0 0 3) 0 0 0x1004 = true
    ∧ runs (.ewait 4) (s.onCx (fun x => { x with act := { x.act with poisoned := true } })) (fun t => t.cx.st = .free) = true := by decide +kernel

/-- The module with local memory, registers and a matrix command. -/
def own (l : List (BitVec 5 × Word)) (cells : List Host.Cell := []) (f : Context → Context := id) : State := (mem l f).onMe (fun c => { c with localMem := cells })

theorem witness_TileTransfers :
    let a := selfWindow 0x1000
    let s (p : Word) := own [(1, p)]
    let i : Instr := .tld 1 2 1 0 0
    let e : PipeEnd := { pend false 0 0 with pos := 0 }
    let h := (s 0).onCx (fun x => { x with qbound := 2#8 })
    let k := h.onMe (fun c => { c with pipes := c.pipes.set 1 (some e) })
    let q (op : Instr) (f : Nat) (cells : List Host.Cell) : State := (vec op (fun q => { q with x := a, fmt := f, chunks := [(.self 0x1000, match f with | 3 | 6 => 16 | 5 => 8 | _ => 64)] })).onMe (fun c => { c with localMem := cells })
    (s a).mayTile i ∧ (s a).cx.vq.length < 2 ∧ (s a).mayLog (engineRecord i a) ∧ (s a).selfRange (addrOf a 0) 64 0x1000 ∧ Covers [(.self 0x1000, 64)] 0x1000 64
    ∧ runs i (s a) (fun t => t.cx.vq.map (fun q => (q.x, q.fmt)) = [(a, 0)] && t.cx.pc = 0x1004#64) = true ∧ runs (.tld 1 2 1 0 1) (s 0x8000000000000000) (fun t => t.cx.st = .parked && t.cx.faultCause = 13#64) = true
    ∧ traps (s (a + 4)) i .align (a + 4) = true ∧ runs (.tst 1 2 1 0 0) (s 0x80) (fun t => t.cx.vq.map (·.chunks) = [[(.paged { pa := 0x200080 }, 64)]]) = true
    ∧ k.pipeEnd? 1 = some e ∧ runs (.tldPipe 1 2 1 0) k (fun t => t.cx.vq.map (·.x) = [a]) = true ∧ traps k (.tstPipe 1 2 1 8) .align (a + 128) = true ∧ h.pipeEnd? 1 = none ∧ traps h (.tldPipe 1 2 1 0) .illegal 0 = true
    ∧ (q (.tld 2 3 1 0 0) 0 []).vectorNext 0 0 ((q (.tld 2 3 1 0 0) 0 []).ctxAt 0 0 |>.vq.head (by decide +kernel)) ∧ (∀ j < 64, me1.localPoison.contains ((0x1000 + j) / 8) = false ∧ me1.area (0x1000 + j) ≠ .spill)
    ∧ lanes (q (.tld 2 3 1 0 0) 0 [(0x1004, 7#8)]) 2 [(3, 1, 7), (3, 0, 0), (4, 1, 0)] = true ∧ lanes (q (.tld 2 3 1 0 1) 6 [(0x100F, 0xFF#8)]) 2 [(3, 15, 0xFFFFFFFF)] = true
    ∧ runs (.vectorCommandDone 0 0 false) (q (.tst 1 3 1 0 0) 0 []) (fun t => t.byteAt (.localMem 0 0x103F) = 0x40#8 && t.byteAt (.localMem 0 0x1040) = 0#8) = true
    ∧ runs (.vectorCommandDone 0 0 true) (q (.tld 2 3 1 0 0) 0 []) (fun t => (t.ctxAt 0 0).vflt && (t.ctxAt 0 0).orphans.map (·.tile) = [2#3]) = true := by
  refine ⟨⟨?_, ?_, ?_⟩, ?_, ?_, ⟨?_, ?_⟩, ?_, ?_, ?_, ?_, ?_, ?_, ?_, ?_, ?_, ?_, ⟨?_, ?_, ⟨[], ?_⟩, ?_, ?_, ?_⟩, ?_, ?_, ?_, ?_, ?_⟩ <;> ((try simp only [State.mayLog, State.selfBytes, State.opens, Covers]); decide +kernel)

/-- The module with a matrix command. -/
def mat (op : Instr) (x y : Word) (cells : List Host.Cell) : State := own [] cells (fun c => { c with mq := [{ op := op, serial := 1, user := false, word0 := 0#32, x := x, y := y }] })

theorem witness_MatrixInstructions :
    let a := selfWindow 0x1000
    let s (p : Word) := own [(1, p), (2, selfWindow 0x1F00)]
    let i : Instr := .mma 1 1 0 0 128
    let ends (s : State) (p : State → Bool) (load : Bool := true) : Bool := runs (.matrixCommandDone 0 0 ⟨load, false⟩) s p
    let run := (mat i 0 a [(0x1002, 0x80#8), (0x1003, 0x3F#8)]).onCx (fun c => { c with mq := c.mq.map (fun q => { q with started := true, seen := [([], [])] }) })
    (s a).mayTile i ∧ (∀ k < 8, ∀ j < 128, inWindow (a.toNat + k * 128 + j) = true ∧ windowTarget 0 (a.toNat + k * 128 + j) = some (.self (0x1000 + k * 128 + j)) ∧ me1.selfOpen (0x1000 + k * 128 + j) false = true)
    ∧ (s a).cx.mq.length < 2 ∧ (s a).mayLog (engineRecord i a) ∧ runs i (s a) (fun t => t.cx.mq.map (fun q => (q.y, q.fmt)) = [(a, 0)] && t.cx.pc = 0x1008#64) = true
    ∧ traps (s a) (.mma 1 1 0 0 2) .illegal 0 = true ∧ runs (.mmai 1 1 0 0 0) (s (a + 0x3000000000000000)) (fun t => t.cx.faultCause = 13#64) = true ∧ traps (s (a + 2)) i .align (a + 2) = true
    ∧ traps (s 0x80) i .window 0x80 = true ∧ runs (.mmas 1 1 2 0 0 0) (s a) (fun t => t.cx.mq.map (·.x) = [selfWindow 0x1F00]) = true ∧ runs (.bld 1 0 0) (s a) (fun t => t.cx.mq.length = 1) = true
    ∧ runs (.tblld 1 1 0xFF) (s a) (fun t => t.cx.mq.length = 1) = true ∧ runs (.ntblld 1) (s a) (fun t => t.cx.mq.length = 1) = true ∧ traps (s (a + 16)) (.ntblld 1) .align (a + 16) = true
    ∧ traps (s a) (.brot 0 1 0) .illegal 0 = true ∧ runs (.brot 1 1 31) ((s a).onMe (fun c => { c with ringNext := 0x2000000000#64 })) (fun t => t.cx.mq.map (·.x) = [0x2000000000#64]) = true
    ∧ (mat i 0 a []).matrixNext 0 0 ((mat i 0 a []).ctxAt 0 0 |>.mq.head (by decide +kernel))
    ∧ ends (mat i 0 a [(0x1002, 0x80#8), (0x1003, 0x3F#8)]) (fun t => (t.ctxAt 0 0).lane 1 0 0 = 0#32 && decide ((t.ctxAt 0 0).mq = []) && decide (t.me.itab = me1.itab)) false = true ∧ run.matrixRuns 0 0 (run.cx.mq.head (by decide +kernel)) ∧ run.me.latchPoison.getLsbD 0 = false ∧ run.me.localPoison = []
    ∧ traps ((s a).onCx (fun x => { x with act := { x.act with tiles := 0 } })) (.mma 1 1 0 0 128) .illegal 0 = true
    ∧ ends (mat (.bld 1 1 0) 0 a [(0x1002, 0x80#8), (0x1003, 0x3F#8)]) (fun t => ((t.core 0).latch 1).at 31 0 = 0x3F800000#32) = true ∧ ends (mat (.ntblld 1) a 0 [(0x100F, 5#8)]) (fun t => (t.core 0).itab.toList[15]? = some 5#8) = true
    ∧ ends (mat (.brot 0 1 3) 0x2000000000 0 []) (fun t => t.net.length = 1) = true ∧ runs (.matrixCommandDone 0 0 ⟨false, true⟩) (mat i 0 a []) (fun t => (t.ctxAt 0 0).mflt && (t.ctxAt 0 0).orphans.length = 1) = true := by
  refine ⟨⟨?_, ?_, ?_⟩, ?_, ?_, ?_, ?_, ?_, ?_, ?_, ?_, ?_, ?_, ?_, ?_, ?_, ?_, ?_, ⟨?_, ⟨[], ?_⟩, ?_, ?_, ?_⟩, ?_, ⟨?_, ⟨[], ?_⟩, ?_, ?_⟩, ?_, ?_, ?_, ?_, ?_, ?_, ?_⟩ <;> ((try simp only [State.mayLog]); decide +kernel)

theorem witness_GaussInstructions :
    let a := selfWindow 0x1000
    let s (l : List (BitVec 5 × Word)) := own ([(1, a), (2, 0x10000#64)] ++ l) [(0x1002, 1#8), (0x1008, 5#8)]
    let tiles (f : Nat → Nat → Lane) (x : Context) : Context := { x with t := (x.t.set 0 (Vector.ofFn (fun r : Fin 8 => Vector.ofFn (fun l : Fin 16 => f r.val l.val)))) }
    let one (r l : Nat) : Lane := if r = l then 0x3F800000#32 else if l = 12 then 0x40000000#32 else 0#32
    let q (op : Instr) (n : Nat) (y : Word := 0) : State := (vec op (fun q => { q with x := a, y := y, fmt := n })).onMe (fun c => { c with localMem := [(0x1002, 1#8), (0x100A, 0x80#8), (0x100B, 0x3F#8), (0x100E, 0x80#8), (0x100F, 0x3F#8)] })
    (s []).mayTile (.gacc 0 11 1) ∧ (∀ j < 16, inWindow (a.toNat + j) = true ∧ windowTarget 0 (a.toNat + j) = some (.self (0x1000 + j)) ∧ me1.selfOpen (0x1000 + j) false = true) ∧ ((s []).ownWord 0 a.toNat).toNat / 2 ^ 16 % 16 = 1
    ∧ runs (.gacc 0 11 1) (s []) (fun t => t.cx.vq.map (fun q => (q.x, q.fmt)) = [(a, 1)]) = true ∧ traps (s []) (.gacc 0 12 1) .illegal 0 = true ∧ traps (s [(1, a + 4)]) (.gunpk 0 7 1) .align (a + 4) = true
    ∧ traps (s [(1, 0x80)]) (.gunpk 0 7 1) .window 0x80 = true ∧ runs (.gpack 0 7 1) (s []) (fun t => t.cx.vq.map (·.y) = [0x10000#64]) = true ∧ traps (s [(2, 0x70000)]) (.gpack 0 0 1) .illegal 0 = true
    ∧ runs (.gdamp 0 1 15 0 1) (s []) (fun t => t.cx.vq.length = 1) = true ∧ traps (s []) (.gdamp 0 1 8 0 1) .illegal 0 = true
    ∧ traps (s [(3, 0x112)]) (.gelim 1 2 0 3) .illegal 0 = true ∧ runs (.gelim 0 2 0 3) ((s [(3, 0x112)]).onCx (tiles (fun r l => one r l))) (fun t => t.cx.lane 2 0 0 = 0x3F800000#32 && t.cx.lane 2 0 12 = 0x40000000#32 && t.cx.pc = 0x1004#64) = true
    ∧ runs (.gelim 0 2 0 3) (s [(3, 0x102)]) (fun t => t.cx.st = .parked && t.cx.faultAddr = 0x100#64) = true ∧ waits (.gelim 0 2 0 3) ((s [(3, 0x112)]).onCx (fun x => { x with vq := [{ op := .tzero 5 0, serial := 1, user := false, word0 := 0#32 }] })) ((s [(3, 0x112)]).onCx (fun x => { x with vq := [{ op := .tzero 5 0, serial := 1, user := false, word0 := 0#32 }] })) .scoreboard false 0 = true
    ∧ (q (.gacc 0 3 1) 1).vectorNext 0 0 ((q (.gacc 0 3 1) 1).ctxAt 0 0 |>.vq.head (by decide +kernel))
    ∧ lanes (q (.gacc 0 3 1) 1) 0 [(3, 12, 0x40000000), (3, 3, 0x40400000)] = true ∧ lanes (q (.gunpk 0 3 1) 1) 0 [(3, 12, 0x3F800000), (3, 0, 0x3F800000), (3, 1, 0)] = true
    ∧ runs (.vectorCommandDone 0 0 false) (q (.gpack 1 3 1) 1 0x10000) (fun t => t.byteAt (.localMem 0 0x100B) = 0x40#8 && t.byteAt (.localMem 0 0x1002) = 1#8) = true
    ∧ lanes (vec (.gdamp 0 1 15 0 1) (fun q => { q with x := 0x3F000000 })) 0 [(0, 0, 0x3FC00000)] = true := by
  refine ⟨⟨?_, ?_, ?_⟩, ?_, ?_, ?_, ?_, ?_, ?_, ?_, ?_, ?_, ?_, ?_, ?_, ?_, ?_, ⟨?_, ?_, ⟨[], ?_⟩, ?_, ?_, ?_⟩, ?_, ?_, ?_, ?_⟩ <;> decide +kernel

theorem witness_CopyInstructions :
    let a := selfWindow 0x1000
    let b := selfWindow 0x1800
    let s (n : Word) := own [(1, a), (3, b), (4, 8#64), (2, 4#64), (5, n)]
    let q (op : Instr) (d : Word) (n : Word := 0) : State := own [] [(0x1000, 1#8), (0x1001, 2#8), (0x1002, 3#8)] (fun x => { x with cq := [{ op := op, serial := 1, user := false, src := a, dst := d, notice := n, sa := 2, sb := 16, started := true }] })
    let c := (q (.cpy 0 1 3 0 100) b).onCx (fun x => { x with cq := x.cq.map (fun q => { q with cancelled := true }) })
    let svc := (q (.cpy 0 1 3 0 3) 0x01FFF00000000000).onMe (fun c => { c with handlers := [{ index := 253#8, pc := 0#64, pri := 0#2, sregs := 31, tiles := 0 }] })
    (s 0x2000000003).mayLog (engineRecord (.cpy 5 1 3 1 4) a) ∧ ((s 0).ownerOf (coreIn 0x2000000003)).map (·.id) = some ((s 0).tenantNo 0)
    ∧ runs (.cpy 5 1 3 1 4) (s 0x2000000003) (fun t => t.cx.cq.map (fun q => (q.src, q.dst, q.notice)) = [(a, b, 0x2000000003#64)] && t.cx.pc = 0x1008#64) = true ∧ traps (s 0x20) (.cpy 5 1 3 1 4) .illegal 0 = true ∧ traps (s 0) (.cpy 5 1 3 0 4) .illegal 0 = true
    ∧ traps (s 0x4000000003) (.cpys 5 1 3 1 2 2) .window 0 = true ∧ traps (s 0) (.cpyg 0 1 3 0 7 1) .illegal 0 = true ∧ traps ((s 0).onCx (fun x => { x with g := x.g.set 2 6#64 })) (.cpyg 0 1 3 0 6 1) .align 6 = true
    ∧ (q (.cpy 0 1 3 0 3) b).savingAt 0 = false ∧ ((q (.cpy 0 1 3 0 3) b).ctxAt 0 0).cq.map (fun q => (q.handed, q.cancelled, q.started)) = [(false, false, true)] ∧ c.cx.cq.map (fun q => (q.handed, q.cancelled, q.started)) = [(false, true, true)]
    ∧ (∀ j < 3, windowTarget 0 (a.toNat + j) = some (.self (0x1000 + j)) ∧ windowTarget 0 (b.toNat + j) = some (.self (0x1800 + j)) ∧ me1.selfOpen (0x1800 + j) false = true ∧ me1.area (0x1800 + j) ≠ .spill)
    ∧ runs (.copyCommandDone 0 0) svc (fun t => like t svc && alike t.cx svc.cx) = true ∧ (svc.me.entry? 253#8).isSome = true ∧ windowTarget 0 0x01FFF00000000000 = none
    ∧ runs (.copyHandback 0 0) svc (fun t => (t.ctxAt 0 0).cq.map (·.handed) = [true] && t.me.svcq.map (fun z => z.desc.length) = [8]) = true := by
  simp only [State.mayLog]; decide +kernel

/-- A CPY of three bytes from local 0x1000 to 0x1800 that the engine executes. -/
def copying : CopyCmd :=
  { op := .cpy 5 1 3 1 3, serial := 1, user := false, src := selfWindow 0x1000, dst := selfWindow 0x1800, notice := 0x2000000003, started := true }

/-- Context 0 with that command. -/
def copier : State := own [] [(0x1000, 1#8), (0x1001, 2#8), (0x1002, 3#8)] (fun x => { x with cq := [copying] })

/-- It ends and gives its notice; the kernel cannot choose the way that it goes, which is the same here (log entry 6). -/
theorem test_copy_completes : runs (.copyCommandDone 0 0) copier (fun t =>
    decide ((t.ctxAt 0 0).cq = []) && t.net.map (·.body) = [.notice 0x20 0 1 0x2000000003]) = true := by
  have way : copier.runCopy 0 0 copying copying.size = copier.runCopyBy 0 0 false copying copying.size := State.runCopy_either _ _ _ _ _ rfl
  have e : exec (.copyCommandDone 0 0) copier = execCopyCommandDone 0 0 copier := rfl
  have c1 : copier.copyTurn 0 0 = copier := by decide +kernel
  have c2 : copier.savingAt 0 = false := by decide +kernel
  have c3 : (copier.ctxAt 0 0).nextCopy.filter (·.started) = some copying := by decide +kernel
  simp only [runs, e, execCopyCommandDone, c1, c2, State.attempt, Bool.false_eq_true, if_false, c3, way]
  decide +kernel

theorem witness_GroupConfigCompletes :
    let g (n : Nat) : Gang := { key := 1, tenant := 0, rcd := { key := 1, va := 0#64, dw := [] }, members := (List.range n).map (fun i => { core := mkCore 0 0 0 i, group := 0, rank := i }) }
    let s (l : List Word) : State := at_ { (mem [(1, 0x40#64)]).onMe (fun c => { c with l1 := [] }) with gangs := [g 3] } { got := l }
    let b (n : Nat) (m : List Word) : List Word := [BitVec.ofNat 64 n, 0, 0, 0, 0, 0, 0, 0] ++ m
    let on := at_ { grouped [(1, 0x40#64)] with gangs := [g 3] } { got := b 0 [] }
    traps (s []) (.grpcfg 5 1 1) .illegal 0 = true ∧ (s (b 0 [])).cx.mayG 5 = true ∧ (s (b 0 [])).mayRelease 2 1 ∧ ((s (b 0 [])).cx.rg 1).toNat % 64 = 0
    ∧ runs (.grpcfg 5 1 2) (s (b 4 [])) (fun t => t.cx.rg 5 = 4#64) = true ∧ runs (.grpcfg 5 1 2) (s (b 0 [])) (fun t => t.cx.rg 5 = 3#64) = true ∧ runs (.grpcfg 5 1 2) on (fun t => t.cx.rg 5 = 0#64 && decide (t.groups = []) && t.me.grp[2] = 0#64) = true
    ∧ runs (.grpcfg 5 1 2) (s (b 1 [1])) (fun t => t.cx.rg 5 = 4#64) = true ∧ runs (.grpcfg 5 1 2) (s (b 2 [0, 0])) (fun t => t.cx.rg 5 = 2#64) = true
    ∧ runs (.grpcfg 5 1 2) (at_ on { got := b 1 [0] }) (fun t => t.cx.rg 5 = 3#64) = true
    ∧ runs (.grpcfg 5 1 3) (at_ on { got := b 2 [0x1800000000000, 0] }) (fun t => t.cx.rg 5 = 2#64) = true
    ∧ runs (.grpcfg 5 1 3) (at_ on { got := b 2 [0x800000000000, 0] }) (fun t => t.cx.rg 5 = 0#64 && t.me.grp[3] = 0x8000020000100001#64 && t.groups.map (·.id) = [0, 1]) = true := by
  simp only [State.mayRelease]; decide +kernel

/-- The module with one packet, whose turn it is. -/
def pkt (s : State) (b : Body) : State := { s with net := [{ id := 1, vnet := 0#2, body := b }], pick := 1 }

/-- A core that serves gang 1 with two pails, one handler and some local memory. -/
def srv : Core :=
  { gang := some 1, regionOff := 0x1000, regionEnd := 0x2000, pails := [{}, { st := .freed }], pinLU := BitVec.ofNat 512 ((2 ^ 64 - 1) * 2 ^ 64)
    handlers := [{ index := 5#8, pc := 0x500#64, pri := 1#2, sregs := 20, tiles := 2 }, { index := 254#8, pc := 0x600#64, pri := 0#2, sregs := 20, tiles := 0 }] }

/-- The module with that core at (0, 1). -/
def two (f : Core → Core := id) : State := { base with others := [(0x20#20, f srv)] }

/-- The context 0 of the issuing core waits. -/
def asks (s : State) : State := s.onCx (fun x => { x with st := .waiting })

theorem witness_MessagesArrive :
    let m (h : Word) (g : Nat) : Body := .message 0x20 0 g h [7] 3 false
    let e : OutEntry := { slot := 3, ctx := 0#2, serial := 1, kind := .message, hdr := 0#64, released := true, dests := [{ core := 0x20#20 }] }
    let o := base.onMe (fun c => { c with outbox := [e] })
    let w := base.onMe (fun c => { c with outbox := [{ e with dests := [{ core := 0x20#20, inFlight := false }] }] })
    (pkt two (m 0x8141 1)).picked { id := 1, vnet := 0#2, body := m 0x8141 1 } ∧ two.present 0x20 = true ∧ (two.core 0x20).gang = some 1 ∧ (two.core 0x20).lowestPail 0 ∧ ((two.core 0x20).entry? 5).isSome = true
    ∧ runs .handlerMessage (pkt two (m 0x8141 1)) (fun t => (t.core 0x20).pails.map (·.st) = [.queued, .freed] && (t.core 0x20).runq.map (fun z => (z.place, z.pri)) = [(.pail 0, 2#2)] && (t.core 0x20).localMem.dword 8 = 7#64 && t.net.map (·.body) = [.accepted 0 3 0x20]) = true
    ∧ runs .handlerMessage (pkt two (m 0x181 1)) (fun t => (t.core 0x20).pails.map (·.st) = [.freed, .freed] && t.tenants.any (fun u => u.records.any (fun r => r.cause = .illegal))) = true
    ∧ runs .handlerMessage (pkt (two (fun c => { c with pails := [{ st := .running }] })) (m 0x141 1)) (fun t => t.net.map (·.body) = [.refused 0 3 0x20]) = true
    ∧ runs .handlerMessage (pkt two (m 0x141 2)) (fun t => t.net.map (·.body) = [.accepted 0 3 0x20] && t.tenants.any (fun u => u.records.any (fun r => r.cause = .window))) = true
    ∧ (two.core 0x20).depositOk 0x1FF8 8 = true ∧ (two.core 0x20).depositOk 0x2000 8 = false ∧ (two.core 0x20).fillOver 3 false = false
    ∧ runs .depositMessage (pkt two (m (BitVec.ofNat 64 (0x3FF * 2 ^ 17 + 3 * 2 ^ 6 + 33)) 1)) (fun t => (t.core 0x20).localMem.dword 0x1FF8 = 7#64 && decide ((t.core 0x20).counters[3] = { e := true })) = true
    ∧ runs .depositMessage (pkt two (m (BitVec.ofNat 64 (0x400 * 2 ^ 17 + 33)) 1)) (fun t => decide ((t.core 0x20).localMem = []) && t.tenants.any (fun u => u.records.any (fun r => r.cause = .window))) = true
    ∧ (two (fun c => { c with counters := c.counters.set 28 { pipe := true, count := 255 }, pipes := c.pipes.set 0 (some { pend false 0 0 with slots := 255 }) }) |>.core 0x20).fillOver 28 false = true
    ∧ o.me.outbox.find? (fun e => e.slot = 3 && e.released) = some e ∧ runs .messageAcceptance (pkt o (.accepted 0 3 0x20)) (fun t => decide (t.me.outbox = [])) = true
    ∧ runs .messageRefusal (pkt o (.refused 0 3 0x20)) (fun t => t.me.outbox.all (fun e => e.dests.all (fun d => !d.inFlight))) = true
    ∧ w.savingAt 0 = false ∧ runs (.refusalBackoffExpiry 0 3 0x20) w (fun t => t.me.outbox.map (fun e => e.dests.map (fun d => (d.backoff, d.inFlight))) = [[(32, true)]] && t.net.length = 1) = true := by
  refine ⟨?_, ?_, ?_, ⟨⟨{}, ?_⟩, ?_⟩, ?_, ?_, ?_, ?_, ?_, ?_, ?_, ?_, ?_, ?_, ?_, ?_, ?_, ?_, ?_, ?_⟩
  case refine_5 => intro j h; exact absurd h (by omega)
  all_goals ((try simp only [State.picked]); decide +kernel)

theorem witness_RequestsAndNoticesArrive :
    let r : Req := { core := 0x20#20, ctx := 1#2, serial := 7 }
    let q : Body := .spawnReq 0x20 ⟨0, 0, 1, false, 0#2⟩ 3 1 0xC005 [0x700, 1, 2, 3, 4] 20 2
    let a := asks base
    (two.core 0x20).fits 20 2 = true ∧ two.workerFull 0x20 = false ∧ (two.core 0x20).freeCtx? = some 0 ∧ (two.core 0x20).noAdmit = false
    ∧ runs .spawnRequest (pkt two q) (fun t => (t.ctxAt 0x20 0).pc = 0x700#64 && (t.ctxAt 0x20 0).rg 6 = 4#64 && (t.ctxAt 0x20 0).rg 1 = 0xC005#64 && t.net.map (·.body) = [.spawnAns ⟨0, 0, 1, false, 0#2⟩ 3 true] && (t.core 0x20).pails.map (·.st) = [.running, .freed]) = true
    ∧ runs .spawnRequest (pkt (two (fun c => { c with noAdmit := true })) q) (fun t => t.net.map (·.body) = [.spawnAns ⟨0, 0, 1, false, 0#2⟩ 3 false]) = true
    ∧ (a.ctxAt 0 0).st = .waiting ∧ (a.ctxAt 0 0).act.serial = 1 ∧ runs .spawnAnswer (pkt a (.spawnAns ⟨0, 0, 1, false, 0#2⟩ 3 false)) (fun t => t.cx.st = .ready && t.cx.op.status = some 1) = true
    ∧ (two.core 0x20).depositOk 0x1000 8 = true ∧ (two.core 0x20).area 0x1000 ≠ .spill ∧ runs .aqAnswer (pkt two (.aqAns r 0x29000 9 false 0)) (fun t => (t.core 0x20).localMem.dword 0x1000 = 9#64 && (t.core 0x20).counters[2].e) = true
    ∧ runs .aqAnswer (pkt two (.aqAns r 0x3000 9 false 0)) (fun t => decide ((t.core 0x20).localMem = []) && t.tenants.any (fun u => u.records.length = 1)) = true
    ∧ runs .copyNotice (pkt two (.notice 0x20 0 1 3)) (fun t => (t.core 0x20).counters[3].e) = true ∧ runs .copyNotice (pkt two (.notice 0x20 0 2 3)) (fun t => !(t.core 0x20).counters[3].e && t.tenants.any (fun u => u.records.length = 1)) = true
    ∧ (let p : PipeEnd := { pend false 0 0 with mode := 1 }
       let s := two (fun c => { c with counters := c.counters.set 28 { pipe := true, count := 1, reserved := 1 }, pipes := c.pipes.set 0 (some p) })
       (s.core 0x20).pipeOf 28 = some p ∧ (s.core 0x20).fillOver 28 true = false ∧ runs .copyNotice (pkt s (.notice 0x20 0 1 28)) (fun t => decide ((t.core 0x20).counters[28] = { pipe := true, count := 2 })) = true)
    ∧ runs .latchArrival (pkt two (.latch 0x20 0 1 1 (Vector.replicate 32 (Vector.replicate 16 5#32)) false true 4)) (fun t => ((t.core 0x20).latch 1).at 31 15 = 5#32 && ((t.core 0x20).latch 0).at 0 0 = 0#32 && (t.core 0x20).counters[4].e) = true := by decide +kernel

/-- A frame of HBM through no vat. -/
def bx : Xl := { pa := 0x200080, vat := 5 }

theorem witness_HomesPerform :
    let w : Body := .write ⟨0, 0, 1, false, 0#2⟩ bx 0x80 (cellsAt bx.pa [1, 2]) false none 1
    let vx : Xl := { pa := 0x200080 }
    let l : SLine := { tenant := 0, vat := 0, share := 0, gen := 1, set := 2, pa := 0x200080, lg := 6 }
    let c : State := { base with slices := [(0x20#20, { lines := [l] })] }
    let a (op : BitVec 4) (ret : Bool) : Body := .atomic ⟨0, 0, 1, false, 0#2⟩ bx 0x80 op true 5 7 ret none none 1
    let h := { asks base with hbm := [(0x200080, 7#8)] }
    base.ownerOf 0 = some ten ∧ bx.pa % 64 + 2 ≤ 64 ∧ base.bare ten 0 bx ∧ h.legible ten bx ∧ (pkt base w).firstOfLine { id := 1, vnet := 0#2, body := w } 0 bx.pa
    ∧ runs .writeAtHome (pkt base w) (fun t => decide (t.hbm = [(0x200080, 1#8), (0x200081, 2#8)]) && t.net.map (·.body) = [.ack ⟨0, 0, 1, false, 0#2⟩ 1]) = true
    ∧ (∃ v q, c.servedAt ten vx 0 false = .slice v q ∧ (c.slice q.slice).line? 0 v.index (vx.pa / 2 ^ v.lg * 2 ^ v.lg) = some l) ∧ State.otherReplicas ten vx = []
    ∧ runs .writeAtHome (pkt c (.write ⟨0, 0, 1, false, 0#2⟩ vx 0x80 (cellsAt vx.pa [1, 2]) false none 1)) (fun t => t.byteAt (.slice 0x20 0 0 0x200080 0x200081) = 2#8 && decide (t.hbm = [])) = true
    ∧ runs .atomicAtHome (pkt h (a 0 true)) (fun t => t.cx.op.result = some 7 && t.cx.st = .ready && decide (t.hbm = [(0x200080, 12#8)])) = true ∧ runs .atomicAtHome (pkt h (a 12 false)) (fun t => decide (t.hbm = [(0x200080, 5#8)]) && t.net.length = 1) = true
    ∧ amoValue 12 8 7 5 8 = none ∧ runs .aqRequest (pkt h (.aqReq ⟨0, 0, 1, false, 0#2⟩ bx 0x80 0x201008 5 1)) (fun t => decide (t.hbm = [(0x200080, 12#8)]) && t.net.map (·.body) = [.aqAns ⟨0, 0, 1, false, 0#2⟩ 0x201008 7 false 1]) = true
    ∧ h.me.l1Line? bx.pa = none ∧ (∃ w < 8, h.me.pinned (w * 64 + bx.pa / 64 % 64) = false) ∧ runs .lineFill (pkt h (.fill ⟨0, 0, 1, false, 0#2⟩ bx 0x80 false false)) (fun t => t.me.l1.map (fun l => (l.valid, l.data)) = [(BitVec.allOnes 64, [(0x200080, 7#8)])]) = true
    ∧ runs .writeAcknowledgement (pkt (base.onCx (fun x => { x with unack := { die := 1 } })) (.ack ⟨0, 0, 1, false, 0#2⟩ 1)) (fun t => t.cx.unack = {}) = true
    ∧ runs .writeAcknowledgement (pkt (base.onMe (fun c => { c with background := { die := 1 } })) (.ack ⟨0, 0, 0, false, 0#2⟩ 1)) (fun t => t.me.background = {}) = true
    ∧ (let f (c : List CoreId) : Body := .forward ⟨0, 0, 1, false, 0#2⟩ vx (cellsAt vx.pa [1, 2]) false c 1
       let late : State := { c with net := [{ id := 0, vnet := 0#2, body := f [0x20] }, { id := 1, vnet := 0#2, body := f [0x20] }], pick := 1 }
       let two : Tenant := { ten with vats := [{ ten.vats.head (by decide) with dpl := 3#2, dies := 3#32, cur := { shares := [{ slice := 0x20#20, bank := 0#3, ways := 0xFFFF#16 }, { slice := 1#20, bank := 0#3, ways := 0xFFFF#16 }], gen := 1#16 } }] }
       let rep : State := { c with tenants := [two] }
       let far (c : List CoreId) : Body := .forward ⟨0, 0, 1, false, 0#2⟩ { vx with pl := 3 } (cellsAt vx.pa [1, 2]) false c 1
       runs .writeAtHome (pkt rep (far [0x20, 1])) (fun t => t.net.map (fun q => (q.id, q.body)) = [(1, far [1])] && t.byteAt (.slice 0x20 0 0 0x200080 0x200081) = 2#8) = true
       ∧ late.net.any (fun q => q.id < 1 && q.forwardsTo vx.pa 0x20) = true ∧ runs .writeAtHome late (fun t => t.net.length = 2) = true
       ∧ State.otherReplicas two { vx with pl := 3 } = [1#20]
       ∧ runs .writeAtHome (pkt rep (.write ⟨0, 0, 1, false, 0#2⟩ { vx with pl := 3 } 0x80 (cellsAt vx.pa [1, 2]) false none 1)) (fun t => t.net.map (·.body) = [.forward ⟨0, 0, 1, false, 0#2⟩ { vx with pl := 3 } (cellsAt vx.pa [1, 2]) false [1] 1]) = true)
    ∧ (let p : State := { h with hbmPoison := [0x8002] }
       runs .atomicAtHome (pkt p (a 0 true)) (fun t => t.cx.op.fault = some { cause := .uncorrectable, write := true, addr := 0x80 } && decide (t.hbm = h.hbm)) = true
       ∧ runs .aqRequest (pkt p (.aqReq ⟨0, 0, 1, false, 0#2⟩ bx 0x80 0x201008 5 1)) (fun t => t.net.map (·.body) = [.aqAns ⟨0, 0, 1, false, 0#2⟩ 0x201008 7 true 1]) = true
       ∧ runs .lineFill (pkt p (.fill ⟨0, 0, 1, false, 0#2⟩ bx 0x80 false false)) (fun t => t.me.l1.map (·.poison) = [true]) = true) := by
  refine ⟨?_, ?_, ⟨?_, ?_, ?_⟩, ⟨?_, ?_⟩, ?_, ?_, ⟨ten.vats.head (by decide +kernel), { slice := 0x20#20, share := 0, bank := 0, groups := List.range 16, set := 2 }, ?_, ?_⟩, ?_, ?_, ?_, ?_, ?_, ?_, ?_, ⟨0, ?_⟩, ?_, ?_, ?_, ?_, ?_⟩
  case refine_7 => intro k; revert k; exact fun k h => absurd h (by simp [assoc?, asks, State.onCx, base])
  all_goals ((try simp only [State.firstOfLine]); decide +kernel)

theorem witness_WindowsStampsAndWaits :
    let r : Req := ⟨0, 0, 1, false, 0#2⟩
    let s := { asks base with others := [(0x20#20, { srv with localMem := [(0x1000, 9#8)] })] }
    let win (o : Nat) (x : WinOp) : State := pkt s (.window 0x20 r o 0x77 x 1)
    let e : WaitEntry := { req := r, xl := bx, size := 8, cmp := 0#3, expected := 0#64, mask := BitVec.allOnes 64 }
    let g : Stamp := { tenant := 0, xl := bx, core := 0x20#20, scope := 0#2 }
    let d := { two with slices := [(0x20#20, { stamps := [g] })] }
    let rel := two (fun c => { c with ctx0 := { c.ctx0 with rel := [{ serial := 1, scope := 1#2, va := 0, size := 4, value := 0x0102#64, tgt := .self 0x1000 }] } })
    s.present 0x20 = true ∧ s.tenantNo 0x20 = s.tenantNo 0 ∧ s.tenantNo 0 < 16 ∧ (s.core 0x20).area 0x1000 = .shared ∧ (s.core 0x20).area 0x2000 ≠ .shared ∧ (s.core 0x20).localBad 0x1000 8 = false
    ∧ runs .windowAccess (win 0x1000 (.load 8 false)) (fun t => t.cx.st = .ready && t.cx.op.result = some 9) = true ∧ runs .windowAccess (win 0x2000 (.load 8 false)) (fun t => t.cx.op.fault = some { cause := .window, addr := 0x77 }) = true
    ∧ runs .windowAccess (win 0x1000 (.store 2 0x0305)) (fun t => decide ((t.core 0x20).localMem = [(0x1000, 5#8), (0x1001, 3#8)]) && t.net.length = 1) = true ∧ runs .windowAccess (win 0x2000 (.store 2 1)) (fun t => decide ((t.core 0x20).localMem = [(0x1000, 9#8)]) && t.net.length = 1) = true
    ∧ runs .windowAccess (win 0x1000 (.atomic 0 true 1 0 true)) (fun t => decide ((t.core 0x20).localMem = [(0x1000, 10#8)]) && t.cx.op.result = some 9) = true
    ∧ (two.core 0x20).drained 2 = true ∧ runs .stampDrain (pkt d (.drain 0x20 0x20 bx.pa 2 false)) (fun t => (t.slice 0x20).stamps.map (·.scope) = [2#2]) = true
    ∧ runs .stampDrain (pkt { d with parlour := { d.parlour with absent := [0x20#20] } } (.drain 0x20 0x20 bx.pa 2 false)) (fun t => decide ((t.slice 0x20).stamps = [])) = true
    ∧ e.test (List.replicate 8 0) = true ∧ runs .addressWaitEntry (pkt (asks base) (.waitReq e)) (fun t => t.cx.op.status = some 0 && t.cx.st = .ready) = true
    ∧ { e with expected := 1 }.test (List.replicate 8 0) = false ∧ runs .addressWaitEntry (pkt (asks base) (.waitReq { e with expected := 1 })) (fun t => t.cx.st = .waiting && t.slices.map (fun p => p.2.waits.length) = [1]) = true
    ∧ (rel.ctxAt 0x20 0).unack.clear 1 = true ∧ (rel.core 0x20).background.clear 1 = true ∧ runs (.releaseComplete 0x20 0) rel (fun t => decide ((t.core 0x20).localMem = [(0x1000, 2#8), (0x1001, 1#8)]) && decide ((t.ctxAt 0x20 0).rel = [])) = true := by decide +kernel

theorem witness_TranslationServes :
    let r : Req := ⟨0, 0, 1, false, 0#2⟩
    let s := asks base
    let root (n : Nat) (leaf : List Host.Cell) : State := { s with tenants := [{ ten with ptroot := 0x200001#64, vats := ten.vats.map (fun v => { v with index := 5 }) }], hbm := leaf, thomes := [(xlateHome 0 0x1000, { walks := [{ tenant := 0, level := n + 1, pfx := 0, table := 0x200000 }] })] }
    let leaf : List Host.Cell := [(0x200008, 0x1F#8), (0x200009, 0x10#8), (0x20000A, 0x20#8), (0x20000E, 0x50#8)]
    let walk : Body := .walk r 0 0x1000 .read false false false
    let held (l : List Host.Cell) : State := let u := root 1 l
      { u with slices := [(u.homeOf 0 (physXl 0x200008) 0 false, { stamps := [{ tenant := 0, xl := { pa := 0x200008 }, core := 0x40#20, scope := 0#2 }] })] }
    let home := xlateHome 0 0x40
    (pkt s walk).tenant 0 = some ten ∧ ten.ptroot.getLsbD 0 = false ∧ rangeAt ten.ranges 0 = some 0x200000 ∧ rangeAt ten.ranges 0x200000 = none ∧ s.walksAt home = 0
    ∧ runs .translationRequest (pkt s (.xlateReq r 0 0x40 .read false false false)) (fun t => t.net.map (·.body) = [.walk r 0 0x40 .read false false false]) = true
    ∧ runs .translationRequest (pkt { s with thomes := [(home, { leaves := [pg] })] } (.xlateReq r 0 0x40 .read false false false)) (fun t => t.net.map (·.body) = [.xlateAns r 0x40 .read false false (.leaf pg)]) = true
    ∧ runs .pageWalk (pkt s (.walk r 0 0x40 .read false false false)) (fun t => t.net.map (·.body) = [.xlateAns r 0x40 .read false false (.leaf pg)]) = true ∧ runs .pageWalk (pkt s (.walk r 0 0x40 .read true false false)) (fun t => t.net.map (·.body) = [.xlateAns r 0x40 .read false false (.fault .pageNp 5)]) = true
    ∧ ((pkt (root 1 leaf) walk).thome (xlateHome 0 0x1000)).start { ten with ptroot := 0x200001#64, vats := [] } 0x1000 4 = (0x200000, 1)
    ∧ runs .pageWalk (pkt (root 1 leaf) walk) (fun t => t.byteAt (.hbm 0x200008) = 0x3F#8 && t.net.all (fun p => match p.body with | .xlateAns _ _ _ _ _ (.leaf e) => e.pa = 0x201000 && e.lg = 12 && e.u && e.w && e.x | _ => false)) = true
    ∧ runs .pageWalk (pkt (root 1 []) walk) (fun t => t.net.map (·.body) = [.xlateAns r 0x1000 .read false false (.fault .pageNp 1)]) = true ∧ runs .pageWalk (pkt (root 1 [(0x200008, 1#8)]) walk) (fun t => t.net.map (·.body) = [.xlateAns r 0x1000 .read false false (.fault .pageRsvd 1)]) = true
    ∧ ((held leaf).walkBlock ((held leaf).tenants.headD ten) (xlateHome 0 4096) 0x1000).isSome = true
    ∧ runs .pageWalk (pkt (held leaf) walk) (fun t => t.net.length = 2 && t.net.any (fun p => match p.body with | .drain 0x40 _ _ _ false => true | _ => false)) = true
    ∧ runs .translationAnswer (pkt s (.xlateAns r 0x40 .read false false (.leaf pg))) (fun t => t.cx.st = .ready && t.cx.op.leaf = some pg && t.me.steer = [pg]) = true
    ∧ runs .translationAnswer (pkt s (.xlateAns r 0x40 .write false false (.fault .pageNp 2))) (fun t => t.cx.op.fault = some { cause := .pageNp, level := 2, write := true, addr := 0x40 }) = true
    ∧ runs .shootdownRequest (pkt { s with thomes := [(home, { leaves := [pg] })] } (.shootReq home false 0 true 0 12 r)) (fun t => decide ((t.thome home).leaves = []) && t.net.map (·.body) = [.shootAck r, .shootReq 0 true 0 true 0 12 r]) = true
    ∧ s.present 0 = true ∧ s.roomFor (shootAs 0 r) (fun l => shootHit false 0x40 12 l.va) none = true ∧ runs .shootdownRequest (pkt (s.onMe (fun c => { c with steer := [pg], l1 := [] })) (.shootReq 0 true 0 false 0x40 12 r)) (fun t => decide (t.me.steer = [])) = true
    ∧ runs .shootdownAck (pkt (at_ s { aux := 1 }) (.shootAck r)) (fun t => t.cx.op.aux = 0 && t.cx.st = .ready) = true := by decide +kernel

theorem witness_ActivationsStart :
    let t : Task := { place := .counter 3, pri := 2#2, handler := 5#8, arg := 9#56 }
    let p : Task := { place := .pail 1, pri := 1#2, handler := 5#8 }
    let s := two (fun c => { c with runq := [p, t], scan := true, localMem := [(128, 0x41#8), (136, 7#8)] })
    let q := two (fun c => { c with runq := [p], scan := true, localMem := [(128, 0x41#8), (136, 7#8)] })
    let full := two (fun c => { c with runq := [{ t with age := 16 }], scan := true, handlers := [{ index := 5#8, pc := 0#64, pri := 0#2, sregs := 255, tiles := 15 }], ctx1 := { c.ctx1 with st := .ready, act := { c.ctx1.act with sregs := 255 } } })
    let v := two (fun c => { c with svcq := [{ index := 253#8 }, { index := 254#8, g3 := 2#64 }] })
    (s.core 0x20).scan = true ∧ s.present 0x20 = true ∧ (s.core 0x20).noAdmit = false ∧ (∀ z ∈ (s.core 0x20).runq, z.handler.toNat < 252 ∧ ((s.core 0x20).entry? z.handler).isSome = true) ∧ (s.core 0x20).freeCtx? = some 0
    ∧ (s.core 0x20).runq = [p] ++ t :: [] ∧ p.pri.toNat < t.pri.toNat ∧ (s.core 0x20).fits 20 2 = true ∧ s.workerFull 0x20 = false ∧ (full.core 0x20).fits 255 15 = false
    ∧ runs (.dispatcherScan 0x20) s (fun t => (t.core 0x20).runq.map (·.place) = [.pail 1] && (t.ctxAt 0x20 0).st = .ready && (t.ctxAt 0x20 0).pc = 0x500#64 && (t.ctxAt 0x20 0).rg 3 = 9#64) = true
    ∧ runs (.dispatcherScan 0x20) q (fun t => (t.ctxAt 0x20 0).rg 1 = 0x41#64 && (t.ctxAt 0x20 0).rg 2 = selfWindow 128 && (t.ctxAt 0x20 0).rg 3 = 7#64 && (t.core 0x20).pails.map (·.st) = [.free, .running]) = true
    ∧ runs (.dispatcherScan 0x20) full (fun t => (t.core 0x20).runq.length = 1 && (t.ctxAt 0x20 0).st = .free) = true ∧ (two.core 0x20).scan = false
    ∧ (v.core 0x20).ctx3.st = .free ∧ runs (.serviceAdmission 0x20) v (fun t => (t.core 0x20).svcq.map (·.index) = [253#8] && (t.ctxAt 0x20 3).pc = 0x600#64 && (t.ctxAt 0x20 3).rg 3 = 2#64) = true := by decide +kernel

theorem witness_WaitsExpireAndFetchesTrap :
    let s := two (fun c => { c with ctx1 := { c.ctx1 with st := .waiting, waitlim := 9#64, op := { timed := true, wait := .idle } }, localMem := [(128, 1#8), (256, 2#8)] })
    let f (c : Cause) : Instr := .instructionFetchFault { cause := c, level := 2#3, addr := 0x40#64 }
    ((s.core 0x20).pails[1]?).map (·.st) = some .freed ∧ ((s.core 0x20).pails[0]?).map (·.st) ≠ some .freed
    ∧ runs (.pailCleared 0x20 1) s (fun t => (t.core 0x20).pails.map (·.st) = [.free, .free] && decide ((t.core 0x20).localMem = [(256, 2#8)])) = true
    ∧ (s.ctxAt 0x20 1).st = .waiting ∧ (s.ctxAt 0x20 1).op.timed = true ∧ (s.ctxAt 0x20 1).op.wait = .idle
    ∧ runs (.waitlimExpiry 0x20 1) s (fun t => (t.ctxAt 0x20 1).st = .ready && (t.ctxAt 0x20 1).op.elapsed = 9#64) = true ∧ runs (.idleExpiry 0x20 1) s (fun t => (t.ctxAt 0x20 1).st = .ready) = true
    ∧ base.cx.st = .running ∧ traps base (.illegalEncoding 0) .illegal 0 = true ∧ traps base (f .pageNp) .pageNp 0x40 = true ∧ traps base (f .uncorrectable) .uncorrectable 0x40 = true := by decide +kernel

theorem witness_PipesAndGroupsAdvance :
    let s (p : PipeEnd) : State := two (fun c => { c with pipes := c.pipes.set 1 (some p) })
    let g : Group := { gang := 1, id := 0, slot := 2, members := [0x20#20, 0#20] }
    let r : Req := ⟨0, 0, 1, false, 0#2⟩
    let on (g : Group) (l : List Nat := []) (k : Option Nat := none) : State := { asks base with groups := [{ g with kind := k, arrivals := l.map (fun n => (n, ⟨0x20, 1, 4, false, 0#2⟩, 3#64)) }] }
    ((s (pend true 0 1)).core 0x20).pipes[1] = some (pend true 0 1) ∧ (s (pend true 0 1)).pipeAhead 1 0x20 1 = false ∧ (pend false 0 0).index < 4
    ∧ runs .pipeFarEndUpdate (pkt (s (pend true 0 1)) (.pipe 0x20 1 1 (.credits 2))) (fun t => (t.core 0x20).pipes[1] = some (pend true 0 3)) = true ∧ runs .pipeFarEndUpdate (pkt (s (pend false 0 0)) (.pipe 0x20 1 1 (.fill 2))) (fun t => (t.core 0x20).counters[28].count = 2) = true
    ∧ runs .pipeFarEndUpdate (pkt (s (pend false 0 0 true)) (.pipe 0x20 1 1 (.fill 2))) (fun t => (t.core 0x20).counters[28].count = 0) = true
    ∧ runs .pipeDeparture (pkt (s (pend false 0 0)) (.depart 0x20 1 1 true)) (fun t => (t.core 0x20).pipes[1] = some (pend false 1 0)) = true ∧ runs .pipeDeparture (pkt (s (pend false 1 0)) (.depart 0x20 1 1 false)) (fun t => (t.core 0x20).pipes[1] = some (pend false 2 0)) = true
    ∧ ({ pkt (s (pend true 0 1)) (.pipe 0x20 1 1 (.credits 2)) with net := [{ id := 0, vnet := 0, body := .depart 0x20 1 1 true }, { id := 1, vnet := 0, body := .pipe 0x20 1 1 (.credits 2) }] } : State).pipeAhead 1 0x20 1 = true
    ∧ runs .groupArrival (pkt (on g) (.arrive 0 1 0 1 r 3 0 0)) (fun t => t.net.map (·.body) = [.episode r 3 .ended]) = true ∧ runs .groupArrival (pkt (on g) (.arrive 0 1 0 1 r 2 1 5)) (fun t => t.groups.map (fun g => (g.kind, g.arrivals)) = [(some 1, [(1, r, 5#64)])]) = true
    ∧ runs .groupArrival (pkt (on g [0] (some 1)) (.arrive 0 1 0 1 r 2 1 5)) (fun t => t.net.map (·.body) = [.episode ⟨0x20, 1, 4, false, 0#2⟩ 2 (.passed 8), .episode r 2 (.passed 8)]) = true
    ∧ runs .groupArrival (pkt (on g [0] (some 1)) (.arrive 0 1 0 1 r 2 0 5)) (fun t => t.net.map (·.body) = [.episode r 2 .refused]) = true
    ∧ runs .groupArrival (pkt (on { g with members := [0#20] }) (.arrive 0 1 0 0 r 2 4 0x1FF800001)) (fun t => t.net.map (·.body) = [.episode r 2 (.passed 0x7FC00000)]) = true
    ∧ ({ g with members := [mkCore 1 0 0 0, 0#20] } : Group).parent 1 = some 0 ∧ runs .groupArrival (pkt (on { g with members := [mkCore 1 0 0 0, 0#20] }) (.arrive (mkCore 1 0 0 0) 1 0 1 r 2 1 5)) (fun t => t.net.map (·.body) = [.arrive 0 1 0 1 r 2 1 5]) = true
    ∧ runs .groupArrival { pkt (on g) (.arrive 0 1 0 1 r 2 1 5) with gangs := [{ key := 1, tenant := 0, rcd := { key := 1, va := 0#64, dw := [] }, members := [{ core := 0x20#20, group := 0, rank := 0, lost := true }] }] } (fun t => t.net.map (·.body) = [.episode r 2 .ended]) = true
    ∧ runs .groupEpisodeComplete (pkt (asks base) (.episode r 2 (.passed 8))) (fun t => t.cx.st = .ready && t.cx.op.status = some 0 && t.cx.op.result = some 8) = true := by decide +kernel

theorem witness_VerdictsAndTheMesh :
    let r : LogRec := { seq := 1, type := 2, pc := 4#64, addr := 8#64, dirty := true, serial := 1 }
    let s := bound_
    let h := bound_ (fun b => { b with heldTrap := [{ type := 8, body := 4#8 :: leBytesOf 8 0x40, pc := 0x40#64 }] })
    (pkt s (.verdict 0 1 none)).verdictAhead 1 0 = false ∧ runs .lifeguardVerdict (pkt s (.verdict 0 5 none)) (fun t => t.bindings.map (·.pass) = [some 5]) = true ∧ (s.ctxAt 0 0).act.serial = r.serial
    ∧ runs .lifeguardVerdict (pkt s (.verdict 0 1 (some r))) (fun t => (t.ctxAt 0 0).st = .free && t.tenants.any (fun u => u.records.any (fun x => x.cause = .lgViolation && x.low8 = 0x10008#32 && x.w18 = 8#64))) = true
    ∧ runs .lifeguardVerdict (pkt s (.verdict 0 1 (some { r with serial := 9 }))) (fun t => (t.ctxAt 0 0).st = .running) = true ∧ runs .logReadPointerAdvance (pkt s (.readPointer 0 7 7)) (fun t => t.bindings.map (·.seenTotal) = [7]) = true
    ∧ h.workerBinding 0 = some { bnd with heldTrap := [{ type := 8, body := 4#8 :: leBytesOf 8 0x40, pc := 0x40#64 }] } ∧ bnd.fits (recordBytes bnd 0x40 { type := 8, body := 4#8 :: leBytesOf 8 0x40 }).length = true ∧ { bnd with lag := 9 }.fits (recordBytes bnd 0x40 { type := 8, body := 4#8 :: leBytesOf 8 0x40 }).length = false
    ∧ runs (.logDeferredTrapRecord 0) h (fun t => t.bindings.map (fun b => (b.heldTrap.length, b.nextLog)) = [(0, 2)] && (t.core 0x20).localMem.get 0x1000 = 0x80#8) = true
    ∧ runs .packetEscape ((pkt s (.verdict 0 5 none)).onPacket 1 (fun p => { p with blocked := 8192 })) (fun t => t.net.all (·.escape)) = true
    ∧ runs .packetAgeSaturation ((pkt s (.verdict 0 5 none)).onPacket 1 (fun p => { p with waited := 4096 })) (fun t => t.net.all (fun p => p.age = 255#8 && p.s)) = true := by decide +kernel

/-- A launch record of one group of `n` cores that allows every die. -/
def rec (n : Nat) (f : List Word → List Word := id) : LaunchRec :=
  { key := 7, va := 0#64, dw := f ([0x1000, 0x100000000, BitVec.ofNat 64 (2 ^ 63 + 31 * 2 ^ 53 + n), 0, 0, 0, 0, 0, 0, 0, 0xFFFFFFFFFFFFFFFF, 0x10000, 0, 0, 0, 0]) }

theorem witness_LaunchesRun :
    let t (f : Tenant → Tenant) : State := { base with tenants := [f ten], me := {} }
    let q (r : LaunchRec) : State := t (fun x => { x with queue := [r] })
    let f : FaultRec := { cause := .window, flags := 0x10#8, w18 := 9#64 }
    let flt (m : List Host.Cell) (n : Nat) : State := { t (fun x => { x with vats := [], faultq := BitVec.ofNat 64 (0x300000 + n), records := [f], drop := 2#16 }) with hbm := m }
    let g (ph : GangPhase) : Gang := { key := 7, tenant := 0, rcd := rec 1, members := [{ core := 0x20#20, group := 0, rank := 0 }], phase := ph }
    let s (ph : GangPhase) : State := { base with gangs := [g ph], others := [(0x20#20, { gang := some 7 })] }
    (t id).tenant 0 = some ten ∧ runs (.launchDoorbell 0 0x80) (t id) (fun u => u.net.map (·.body) = [.post 0 0x80 true none]) = true ∧ runs (.launchDoorbell 0 0x8000FFFF00000FFF) (t id) (fun u => u.net.map (·.body) = [.notices 0 0xFFF 0xFFFF none]) = true
    ∧ runs (.launchDoorbell 0 1) (t id) (fun u => u.tenants.any (fun x => x.records.length = 1) && u.net.length = 0) = true
    ∧ runs .launchNotice (pkt (t id) (.notices 0 1 65535 none)) (fun u => u.tenants.map (·.notices) = [[(1, 65535)]]) = true
    ∧ (rec 1 (fun l => l.set 11 0x10002)).id = 1 ∧ (rec 1 (fun l => l.set 11 0x10002)).deps = 2 ∧ runs .launchNotice (pkt (t (fun x => { x with pending := [rec 1 (fun l => l.set 11 0x10002)] })) (.notices 0 1 2 none)) (fun u => u.tenants.all (fun x => x.pending.length = 0 && x.queue.length = 1 && x.notes 1 = 0)) = true
    ∧ runs .launchPost (pkt (t (fun x => { x with queue := List.replicate 64 (rec 1) })) (.post 0 0x80 true (some (0x20, 3)))) (fun u => u.net.map (·.body) = [.refused 0x20 3 (launchUnit 0)]) = true
    ∧ regionOf 0x300000 = some .hbm ∧ (rec 1).done % 8 = 0 ∧ (rec 1).deps = 0
    ∧ runs (.faultRecord 0) (flt [] 0) (fun u => u.tenants.all (fun x => x.records.length = 0 && x.drop = 3#16)) = true ∧ runs (.faultRecord 0) (flt [(0x300000, 1#8)] 1) (fun u => u.tenants.all (fun x => x.records.length = 0 && x.drop = 3#16)) = true
    ∧ runs (.faultRecord 0) (flt [] 1) (fun u => u.tenants.all (fun x => x.records.length = 0 && x.faultSeq = 1#32 && x.drop = 0#16) && u.hbm.get 0x300018 = 9#8) = true
    ∧ (rec 2).groups = 1 ∧ (rec 2).count 0 = 2 ∧ runs (.gangPlacement 0) (q (rec 2)) (fun u => u.gangs.map (fun g => g.members.map (·.core)) = [[0#20, 0x8000#20]] && u.tenants.all (fun x => x.queue.length = 0)) = true
    ∧ runs (.gangPlacement 0) (q (rec 65)) (fun u => u.gangs.length = 0 && u.tenants.all (fun x => x.queue.length = 1)) = true
    ∧ (s .started).gangQuiet (g .started) = true ∧ (g .started).relaunches = false ∧ (g .started).blocks = [] ∧ ((s .started).core 0x20).drained 3 = true ∧ runs (.gangCompletion 7) (s .started) (fun u => u.gangs.length = 0 && (u.core 0x20).gang.isNone) = true
    ∧ (rec 1 (fun l => l.set 11 0x100010000)).deadline = 1
    ∧ runs (.deadlineExpiry 0 7) { s .started with gangs := [{ g .started with rcd := rec 1 (fun l => l.set 11 0x100010000) }] } (fun u => u.gangs.map (·.abort) = [some 3]) = true
    ∧ runs (.deadlineExpiry 0 7) (q (rec 1 (fun l => l.set 11 0x100010000))) (fun u => u.tenants.all (fun x => x.queue.length = 0)) = true := by decide +kernel

/-- HBM with an image of one handler at the page 0x1000 of the ranges joined, and a record at 0x2000 (R78, R274). -/
def disk : Memory :=
  (Memory.write [] 0x201000 ([0x145444249, 0, 0x80, 1, 0, 0xFF00].flatMap (leBytesOf 8) ++ List.replicate 80 0 ++ [0, 0x8014].flatMap (leBytesOf 8))).write 0x202000
    ((rec 1).dw.flatMap (fun w => leBytesOf 8 w.toNat))

/-- A gang of one member that is placed. -/
def placed : Gang := { key := 7, tenant := 0, rcd := rec 1, members := [{ core := 0x20#20, group := 0, rank := 0 }] }

theorem witness_LaunchesRun_start :
    let s : State := { base with hbm := disk, gangs := [placed], others := [(0x20#20, { gang := some 7 })] }
    (match s.checkImage ten placed.rcd with | (u, .ok i _) => i.handlers.length = 1 && decide (u.gang? 7 = some placed) | _ => false) = true
    ∧ runs (.gangStart 7) s (fun t => t.gangs.map (·.phase) = [.started] && (t.core 0x20).pails.length = 16 && (t.core 0x20).handlers.length = 1 && t.net.length = 1) = true := by decide +kernel

theorem witness_LaunchesRun_post :
    let s := pkt { base with hbm := disk, me := {} } (.post 0 0x2000 true none)
    (match (s.dropPacket 1).unitDwords 0 0 false 0x2000 16 with | (_, .ok dw) => decide (dw = (rec 1 (fun l => l.set 11 0x10000)).dw) | _ => false) = true
    ∧ runs .launchPost s (fun t => t.tenants.map (fun u => u.queue.map (fun r => (r.va, r.supPost))) = [[(0x2000#64, true)]]) = true := by decide +kernel

theorem witness_VatsChange :
    let v : Vat := { ten.vats.head (by decide) with state := 1, old := some { shares := [{ slice := 0#20, bank := 0#3, ways := 1#16 }] } }
    let s (v : Vat) : State := { base with tenants := [{ ten with vats := [v] }] }
    let l : SLine := { tenant := 0, vat := 0, share := 0, set := 0, pa := 0x200000, lg := 6, data := [(0x200000, 5#8)], dirty := 1#256 }
    let m : State := { s v with slices := [(0#20, { lines := [l] })] }
    (s v).tenant 0 = some { ten with vats := [v] } ∧ { ten with vats := [v] }.vat? 0 = some v ∧ v.oldMembers = [0#20] ∧ (s v).strayAt 0 v 0x200000 = none ∧ m.strayAt 0 v 0x200000 = some (0#20, l) ∧ (l.homeNow ten.dies v 0).isSome = true ∧ ((s v).slice 0x20).line? 0 0 0x200000 = none ∧ (l.homeNow ten.dies v 0).all (fun h => !(s v).isOffline v h) = true
    ∧ runs (.vatcfgCompletion 0 0) (s { v with valid := false, defining := true, state := 0 }) (fun t => t.tenants.map (fun u => u.vats.map (fun v => (v.valid, v.cur.gen))) = [[(true, 2#16)]]) = true
    ∧ runs (.vatcfgCompletion 0 0) (s { v with swept := [0#20] }) (fun t => t.tenants.map (fun u => u.vats.map (fun v => (v.state, v.old.isNone))) = [[(0, true)]]) = true ∧ runs (.vatcfgCompletion 0 0) (s v) (fun t => t.tenants.map (fun u => u.vats.map (·.state)) = [[1]]) = true
    ∧ runs (.vatcfgCompletion 0 0) (s { v with state := 2 }) (fun t => t.tenants.map (fun u => u.vats.map (·.valid)) = [[false]]) = true
    ∧ runs (.vatResizeSweep 0 0 0) m (fun t => t.tenants.map (fun u => u.vats.map (·.swept)) = [[[0#20]]] && decide ((t.slice 0).lines = [])) = true
    ∧ runs (.lineMove 0 0 0x200000) m (fun t => decide ((t.slice 0).lines = []) && (t.slice 0x20).lines.map (fun l => (l.data, l.dirty)) = [([(0x200000, 5#8)], 1#256)]) = true ∧ runs (.dualProbe 0 0 0x200000) m (fun t => (t.slice 0x20).lines.length = 1) = true
    ∧ ((s v).slice 0x20).waysOff 0 0xFFFF = false := by decide +kernel

theorem witness_ErrorsPoisonAndLose :
    let s := two
    let l : SLine := { tenant := 0, vat := 0, share := 0, set := 0, pa := 0x200000, lg := 7 }
    let g : Gang := { placed with key := 1, phase := .started }
    let lost : State := { s with gangs := [g], parlour := { s.parlour with silent := [0x20#20] } }
    regionOf 0x200000 = some .hbm ∧ runs (.uncorrectableError (.hbm 0x200040)) s (fun t => decide (t.hbmPoison = [0x8001])) = true ∧ runs (.skimmerLineRead 0x200040 .uncorrectable) s (fun t => decide (t.hbmPoison = [0x8001]) && t.parlour.skimmer.length = 1) = true
    ∧ runs (.uncorrectableError (.slice 0x20 0x200040)) { s with slices := [(0x20#20, { lines := [l] })] } (fun t => (t.slice 0x20).lines.map (·.poison) = [2#4]) = true ∧ runs (.uncorrectableError (.l1 0 0x200080)) (mem []) (fun t => t.me.l1.map (·.poison) = [true]) = true
    ∧ (s.core 0x20).controlByte 0x2000 = false ∧ runs (.uncorrectableError (.localMem 0x20 0x2000)) s (fun t => (t.core 0x20).localBad 0x2000 1) = true ∧ (s.core 0x20).controlByte 0 = true ∧ runs (.uncorrectableError (.localMem 0x20 0)) s (fun t => t.parlour.silent = [0x20#20]) = true
    ∧ runs (.heartbeatTimeout 0x20) s (fun t => !t.present 0x20) = true ∧ (s.ctxAt 0 0).st ≠ .free ∧ runs (.uncorrectableError (.register 0 0)) s (fun t => (t.ctxAt 0 0).st = .free) = true
    ∧ (lost.core 0x20).gang = some 1 ∧ lost.gang? 1 = some g ∧ runs (.memberLoss 0x20) lost (fun t => t.parlour.absent = [0x20#20] && (t.core 0x20).gang.isNone && t.gangs.map (fun g => (g.abort, g.lostCore)) = [(some 1, 0x20#20)]) = true
    ∧ ({ base with parlour := { base.parlour with suspect := [0x40#20] } } : State).present 0x40 = true ∧ (base.core 0x40).gang = none ∧ runs (.timingReplay 0x20 .succeeds) s (fun t => (t.core 0x20).replays = 1#32) = true
    ∧ (let e : State := { s with slices := [(0x20#20, { lines := [{ l with gen := 1 }] })] }
       runs (.eccCorrected (.die 3)) s (fun t => t.parlour.health.toList[3]? = some 1#64) = true ∧ (e.shareHolding { l with gen := 1 }).isSome = true
       ∧ runs (.eccCorrected (.slice 0x20 0x200040)) e (fun t => t.parlour.health.toList[0]? = some 1#64 && (t.slice 0x20).corrected.length = 1) = true)
    ∧ runs (.uncorrectableError (.tile 0 0 3)) s (fun t => t.cx.tPoison = 8#8) = true ∧ runs (.uncorrectableError (.latch 0x20 1)) s (fun t => (t.core 0x20).latchPoison = 2#2) = true
    ∧ runs (.uncorrectableError (.sliceControl 0x20)) s (fun t => t.parlour.lostClusters = [0x20#20] && !t.present 0x20) = true
    ∧ (let q := (vec (.vadd 2 0 1 15 0) (fun q => { q with started := true })).onCx (fun x => { x with tPoison := 1 })
       q.cx.readsPoison (.vadd 2 0 1 15 0) = true ∧ runs (.vectorCommandDone 0 0 false) q (fun t => t.cx.st = .free) = true) := by decide +kernel

theorem witness_GangsAreSavedAndRestored :
    let g (ph : GangPhase) (m : Member := { core := 0x20#20, group := 0, rank := 0 }) : Gang := { placed with key := 1, phase := ph, members := [m] }
    let core : Core := { gang := some 1, ctx1 := { st := .saving, pc := 0x44#64, act := { source := .pail 3, sregs := 31, tiles := 8 } }, pails := [{}, {}, {}, { st := .running }], noAdmit := true }
    let s (ph : GangPhase) : State := { base with gangs := [g ph], others := [(0x20#20, { core with ctx1 := { core.ctx1 with st := .ready } })], tenants := [{ ten with savebase := 0x220001#64, vats := [] }] }
    let sv : State := { s .saving with others := [(0x20#20, core)] }
    (s .preempting).gang? 1 = some (g .preempting) ∧ runs (.preemptBudgetExpiry 1) (s .preempting) (fun t => (t.ctxAt 0x20 1).st = .saving && t.gangs.map (·.phase) = [.saving]) = true ∧ runs (.preemptBudgetExpiry 1) (s .started) (fun t => (t.ctxAt 0x20 1).st = .ready) = true
    ∧ (∀ k, ((s .preempting).ctxAt 0x20 k).nextCopy = none)
    ∧ runs (.preemptBudgetExpiry 1) { s .preempting with others := [(0x20#20, { core with ctx1 := { core.ctx1 with st := .waiting, op := { wait := .reply } } })] } (fun t => (t.ctxAt 0x20 1).st = .waiting) = true
    ∧ (∀ k, (sv.ctxAt 0x20 k).op.fault = none) ∧ sv.bindings = [] ∧ (sv.tenants.headD ten).liveVat 0 = none
    ∧ (∀ i < 1024, regionOf ((sv.tenants.headD ten).blockAt 1 + 64 * i) = some .hbm ∧ (sv.tenants.headD ten).reaches ((sv.tenants.headD ten).blockAt 1 + 64 * i) = true)
    ∧ sv.saveReady 1 0x20 = true ∧ (sv.core 0x20).l1 = [] ∧ (sv.core 0x20).outbox = [] ∧ (core.ctx 1).st ≠ .free ∧ (core.ctx 1).act.sregs < 2 ^ 8 ∧ (core.ctx 1).act.tiles < 2 ^ 4 := by decide +kernel

theorem witness_HostAndPeersAreServed :
    let r : Req := ⟨0, 0, 1, false, 0#2⟩
    let s (f : Tenant → Tenant) : State := { asks base with tenants := [f { ten with vats := [] }], hbm := [(0x200040, 9#8)] }
    let h := s (fun t => { t with hwbase := 0x40#64 })
    let g := s (fun t => { t with grants := [(0, 0x8000000300000005#64)] })
    let vat := { asks base with tenants := [{ ten with hwbase := 0x40#64 }], hbm := [(0x200040, 9#8)] }
    (s id).tenant 0 = some { ten with vats := [] } ∧ runs (.hostWindowRead 4 0 1) (s id) (fun t => t.parlour.hostReply = some (1, [])) = true ∧ runs (.hostWindowRead 4 0 1) vat (fun t => t.parlour.hostReply = some (0, [9#8])) = true
    ∧ (match vat.unitRead 0 0 false 2 0x40 1 with | (_, .ok l) => l = [9#8] | _ => false) = true ∧ (match vat.unitXl 0 0 0x40 .write false with | (_, .ok x) => x.pa = 0x200040 | _ => false) = true
    ∧ runs (.hostWindowRead 4 0xFFFFFF 1) vat (fun t => t.parlour.hostReply = some (4, []) && t.tenants.any (fun u => u.records.length = 1)) = true ∧ (match h.unitXl 0 0 0x1000040 .write false with | (_, .error _) => true | _ => false) = true
    ∧ runs (.hostWindowWrite 4 1 [7, 8]) vat (fun t => t.tenants.all (fun u => u.records.length = 0)) = true ∧ runs (.hostWindowWrite 4 0x1000000 [7]) vat (fun t => t.tenants.all (fun u => u.records.length = 1) && t.hbm = [(0x200040, 9#8)]) = true
    ∧ (h.parlour.linkDown.contains 0 = false) ∧ runs (.hostWriteFlushComplete 1) { h with parlour := { h.parlour with posted := [{ port := 1, cells := [(5, 6#8)], ack := some (r, 3#2), asked := true }] } } (fun t => t.net.map (·.body) = [.ack r 3] && decide (t.parlour.posted = []) && t.hostMem = [(5, 6#8)]) = true
    ∧ runs (.hostWriteFlushComplete 1) { h with parlour := { h.parlour with posted := [{ port := 1, asked := true }, { port := 1, cells := [(5, 6#8)], ack := some (r, 3#2) }] } } (fun t =>
        decide (t.net = []) && t.parlour.posted = [{ port := 1, ack := some (r, 3#2), asked := true }]) = true
    ∧ runs (.hostReadCompletion false) (pkt { h with hostMem := [(5, 4#8)] } (.hostRead r 5 2)) (fun t => t.cx.op.result = some 4 && t.cx.st = .ready) = true ∧ runs (.hostReadCompletion true) (pkt h (.hostRead r 5 2)) (fun t => t.cx.op.fault = some { cause := .uncorrectable }) = true
    ∧ runs .hostReadTimeout (pkt h (.hostRead r 5 2)) (fun t => t.cx.st = .ready) = true ∧ runs (.hostLinkDown 1) { h with parlour := { h.parlour with posted := [{ port := 1, cells := [(5, 6#8)], ack := some (r, 3#2), asked := true }] } } (fun t => t.net.map (·.body) = [.ack r 3] && t.parlour.linkDown = [1] && decide (t.hostMem = [])) = true
    ∧ runs (.blulinInboundRequest 3 5 0 (.read 1 false) 0x200040) g (fun t => t.parlour.peerReply = some (0, [9#8])) = true ∧ runs (.blulinInboundRequest 3 4 0 (.read 1 false) 0x200040) g (fun t => t.parlour.peerReply = some (1, [])) = true
    ∧ runs (.blulinInboundRequest 3 5 0 (.write [1, 2]) 0x20007E) g (fun t => t.hbm.get 0x20007F = 2#8) = true
    ∧ ten.reaches 0x200040 = true ∧ ten.reaches 0x20007F = true ∧ (g.parlour.resetting 0 = false) := by decide +kernel

theorem witness_HostAndPeersAreServed_bars :
    let s : State := { base with parlour := { base.parlour with state := 2, present := 5 } }
    runs (.hostWindowRead 0 0xFFFFF 1) s (fun t => t.parlour.hostReply = some (0, [0#8])) = true ∧ runs (.hostWindowWrite 0 8 [1, 0, 0, 0, 0, 0, 0, 0]) s (fun t => decide (t.net = [])) = true
    ∧ runs (.hostWindowWrite 0 0 (leBytesOf 8 0x80)) s (fun t => t.net.map (·.body) = [.post 0 0x80 true none]) = true
    ∧ runs (.hostWindowRead 2 0 8) s (fun t => t.parlour.hostReply = some (0, [0x31#8, 0x0A#8, 0xB0#8, 0#8, 2#8, 0x50#8, 0#8, 0#8])) = true
    ∧ runs (.hostWindowRead 2 0x2318 8) (s.health 99) (fun t => t.parlour.hostReply = some (0, leBytesOf 8 1)) = true
    ∧ runs (.hostWindowRead 2 0x1000 8) s (fun t => t.parlour.hostReply = some (0, leBytesOf 8 0x032C000000000000)) = true := by decide +kernel

/-- A write and a wait that are outstanding at the peer behind port 5. -/
theorem witness_HostAndPeersAreServed_timeout :
    let r : Req := ⟨0, 0, 1, false, 0#2⟩
    let y : Xl := { pa := 2 ^ 50 + 0x40, region := .peer }
    let s : State := { asks base with tenants := [{ ten with windows := [(fld y.pa 44 6, 0x8500000300000000#64)] }] }
    let e : WaitEntry := { req := r, xl := y, size := 8, cmp := 0#3, expected := 0#64, mask := 0#64 }
    s.peerPort r y = some 5 ∧ runs (.blulinPeerTimeout 5) base (fun t => decide (t.net = []) && t.parlour.health[99] = 1#64) = true
    ∧ runs (.blulinPeerTimeout 5) { s with peerWaits := [e] } (fun t => decide (t.peerWaits = []) && t.cx.op.fault = some { cause := .uncorrectable, addr := BitVec.ofNat 64 y.pa }) = true
    ∧ runs (.blulinPeerTimeout 4) { s with peerWaits := [e] } (fun t => t.peerWaits = [e]) = true
    ∧ runs (.blulinPeerTimeout 5) (pkt s (.write r y 0x80 [] false none 3)) (fun t => t.net.map (·.body) = [.ack r 3]) = true
    ∧ runs (.blulinPeerTimeout 5) (pkt s (.atomic r y 0x80 0 true 0 0 true none none 3)) (fun t => t.cx.op.fault = some { cause := .uncorrectable, addr := 0x80 }) = true := by decide +kernel

theorem witness_QueuePairsAdvance :
    let q : QueuePair := { num := 3, tenant := 0, sendVa := 0x100#64, sendLen := 4, compLen := 4, compVa := 0x200#64, tailVa := 0x40#64, port := 0, mtu := 0, dest := 0, sendPsn := 0, recvPsn := 0, dgid := [], sgid := [], headVa := 0x48#64 }
    let r : RegRegion := { rkey := 9, tenant := 0, va := 0x40#64, len := 2#64, flags := 2#3 }
    let s (q : QueuePair) : State := { base with hbm := [(0x200040, 2#8)], parlour := { base.parlour with qps := [q], regions := [r] } }
    (s q).qp? 3 = some q ∧ (match (s q).ethRead 0 0x40 with | (u, some w) => w = 2#64 && decide (u.parlour.qps = [q]) | _ => false) = true ∧ runs (.qpTailPoll 3) (s q) (fun t => t.parlour.qps.map (·.tail) = [2#64]) = true
    ∧ runs (.arpNeighbourDiscovery 3 5) (s q) (fun t => t.parlour.qps.map (·.mac) = [some 5#48]) = true ∧ runs (.qpWorkCompletion 3 0) (s q) (fun t => t.parlour.qps = [q]) = true
    ∧ runs (.qpWorkCompletion 3 2) (s { q with mac := some 5, tail := 2 }) (fun t => t.parlour.qps.map (fun q => (q.next, q.comp)) = [(1, 1)]) = true
    ∧ (let v (l : List Host.Cell) : State := { s { q with mac := some 5, tail := 2 } with hbm := l }
       runs (.qpWorkCompletion 3 0) (v []) (fun t => t.parlour.qps.map (fun q => (q.next, q.comp)) = [(1, 0)]) = true
       ∧ runs (.qpWorkCompletion 3 0) (v [(0x200101, 1#8)]) (fun t => t.parlour.qps.map (fun q => (q.next, q.comp)) = [(1, 1)]) = true
       ∧ runs (.qpWorkCompletion 3 0) (v [(0x200104, 1#8), (0x20010B, 1#8)]) (fun t => t.parlour.qps.map (fun q => (q.next, q.comp)) = [(1, 1)]) = true)
    ∧ runs (.rdmaInbound 8 (.read 1 false) 0x40) (s q) (fun t => t.parlour.peerReply = some (1, [])) = true ∧ runs (.rdmaInbound 9 (.read 3 false) 0x40) (s q) (fun t => t.parlour.peerReply = some (1, [])) = true
    ∧ runs (.rdmaInbound 9 (.write [1]) 0x40) (s q) (fun t => t.parlour.peerReply = some (1, [])) = true ∧ runs (.rdmaInbound 9 (.read 2 false) 0x40) (s q) (fun t => t.parlour.peerReply = some (0, [2, 0])) = true := by decide +kernel

theorem witness_CommandsRun :
    let s (code len res : Nat) (params : List Word := []) (f : Tenant → Tenant := id) : State :=
      { base with me := {}, tenants := [f ten], hostMem := Memory.write [] 0x1000 (params.flatMap (fun w => leBytesOf 8 w.toNat))
                  parlour := { base.parlour with state := 2, busy := some code, area := Memory.write [] 0x1000 (params.flatMap (fun w => leBytesOf 8 w.toNat))
                                                 running := #v[BitVec.ofNat 64 code, if len = 0 then 0 else 0x1000, BitVec.ofNat 64 len, if res = 0 then 0 else 0x2000, BitVec.ofNat 64 res, 0, 0, 0] } }
    let idle (w : Word) : State := { s 1 0 0 with parlour := { (s 1 0 0).parlour with busy := none, block := #v[w, 0, 0, 0, 0, 0, 0, 0] } }
    let ends (i : Instr) (s : State) (w : Nat) (p : State → Bool := fun _ => true) : Bool := runs i s (fun t => t.parlour.status = BitVec.ofNat 64 w && decide (t.parlour.busy = none) && p t)
    (s 2 0 0).parlour.busy = some 2 ∧ (s 2 0 0).parlour.cmd 1 % 8 = 0 ∧ (s 2 0 0).tenant (s 2 0 0).parlour.cmdTenant = some ten
    ∧ runs (.create) (s 2 0 0) (fun t => t.parlour.busy = some 2) = true ∧ ends .reset (s 2 8 0) (2 ^ 63 + 4) = true ∧ ends .destroy ({ s 3 0 0 with tenants := [] }) (2 ^ 63 + 1) = true
    ∧ runs (.moduleBringUp { drive0 := none, drive1 := some { verifies := true, key := 0, version := 0 }, microcode := true } []) State.reset (fun t => t.parlour.state = 1) = true
    ∧ runs (.moduleBringUp { drive0 := some { verifies := true, key := 1, version := 0 }, drive1 := none, microcode := true } []) State.reset (fun t => t.parlour.state = 0) = true
    ∧ runs (.moduleBringUp { drive0 := none, drive1 := none, microcode := true } []) { State.reset with parlour := { State.reset.parlour with state := 1 } } (fun t => t.parlour.state = 2 && t.parlour.present = 663552#20) = true ∧ runs (.pcieConfigRequest 1) State.reset (fun t => t.parlour.configRetries = 1) = true
    ∧ runs (.registerWrite 0x138 5) (s 2 0 0) (fun t => t.parlour.block[7] = 5#64) = true ∧ runs (.registerWrite 0x140 5) (s 2 0 0) (fun t => t.parlour.block.toList.all (· = 0#64)) = true
    ∧ runs (.powerStepAdjust 31 0xFFFF) (s 2 0 0) (fun t => t.parlour.diePower[31] = 0x032CFFFF00000001#64) = true
    ∧ runs (.commandDoorbell ⟨1, 1⟩) (idle 10) (fun t => t.parlour.busy = some 10 && t.parlour.port = 1) = true ∧ ends (.commandDoorbell ⟨0, 1⟩) (idle 11) (2 ^ 63 + 4) = true ∧ ends (.commandDoorbell ⟨0, 1⟩) (idle 0) (2 ^ 63 + 4) = true
    ∧ ends .destroy (s 3 0 0) (2 ^ 63) (fun t => decide (t.tenants = [])) = true ∧ ends .reset (s 2 0 0) (2 ^ 63) (fun t => t.tenants.length = 1) = true
    ∧ (s 4 16 0 [0x300, 0x8000000000000000]).windowBad = false ∧ ends .setWindow (s 4 16 0 [0x300, 0x8000000000000000]) (2 ^ 63) (fun t => t.tenants.map (·.windows) = [[(3, 0x8000000000000000#64)]]) = true
    ∧ ends .kill (s 6 16 0 [1, 0]) (2 ^ 63 + 5) = true ∧ ends .setCap (s 7 8 0 [0x03E8001F]) (2 ^ 63) (fun t => t.parlour.diePower[31] = 0x03E8000000000000#64) = true
    ∧ ends .deregRegion { s 9 16 0 [3, 9] with parlour := { (s 9 16 0 [3, 9]).parlour with regions := [{ rkey := 9, tenant := 0, va := 0, len := 0, flags := 0 }] } } (2 ^ 63) (fun t => decide (t.parlour.regions = [])) = true
    ∧ ends .regRegion (s 9 32 8 [2, 0x1000, 0x1000, 7]) (2 ^ 63 + 8 * 2 ^ 16) (fun t => t.parlour.regions.map (·.rkey) = [1]) = true ∧ (s 10 0 0).parlour.cmd 4 < 8 * (s 10 0 0).parlour.logs.length
    ∧ ends .readLog (s 10 0 8) (2 ^ 63 + 6) = true ∧ ends .attest (s 8 48 0x157 [1, 2, 3, 4, 5, 6]) (2 ^ 63 + 6) = true ∧ ends .regRegion (s 9 32 7 [2, 0x1000, 0x1000, 7]) (2 ^ 63 + 6) = true
    ∧ ends .attest (s 8 48 0x158 [7, 2, 3, 4, 5, 6]) (2 ^ 63 + 0x158 * 2 ^ 16) (fun t => t.hostMem.get 0x2000 = 7#8) = true := by decide +kernel

/-- A PREEMPT with a gang that matches: it waits for one that is being started, gets status 3 without save blocks, and otherwise begins the save. -/
theorem witness_CommandsRun_preempt :
    let g (ph : GangPhase) : Gang := { key := 1, tenant := 0, rcd := { rec 1 with key := 1 }, members := [{ core := 0x20#20, group := 0, rank := 0 }], phase := ph }
    let s (ph : GangPhase) (save : Word) : State :=
      { base with me := {}, gangs := [g ph], others := [(0x20#20, { srv with gang := some 1 })], tenants := [{ ten with savebase := save, vats := [] }]
                  parlour := { base.parlour with state := 2, busy := some 5, area := Memory.write [] 0x1000 (leBytesOf 8 1)
                                                 running := #v[5, 0x1000, 16, 0, 0, 0, 0, 0] } }
    let go := s .started 0x220001#64
    go.matching = [g .started] ∧ (g .started).preemptible = true ∧ runs .preempt (s .placed 0x220001) (fun t => decide (t = s .placed 0x220001)) = true
    ∧ runs .preempt (s .started 0) (fun t => t.parlour.status = BitVec.ofNat 64 (2 ^ 63 + 3)) = true
    ∧ (go.claimBlocks { ten with savebase := 0x220001#64, vats := [] } 1).2 = some [0] ∧ (go.claimBlocks { ten with savebase := 0x220001#64, vats := [] } 1).1.gang? 1 = some (g .started)
    ∧ runs .preempt go (fun t => t.gangs.map (·.phase) = [.preempting] && (t.core 0x20).noAdmit && t.parlour.awaits = [1] && t.parlour.begun) = true := by decide +kernel

theorem witness_StepRunsDecodedInstruction :
    let s (w : Nat) : State := State.reset.withFetchWord 32 w
    let f (w : Nat) (p : State → Bool) : Bool := match step (s w) with | .next t => p t | _ => false
    f 0x08200005 (fun t => t.cx.rg 1 = 5#64 && t.cx.pc = 0x100004#64) = true ∧ f 0 (fun t => t.tenants.any (fun u => u.records.any (fun r => r.cause = .illegal))) = true
    ∧ (s 0).me.nextReady.isSome = true ∧ (s 0).agenda = [.issue 0] := by decide +kernel

theorem witness_DecodeEncode : (Instr.amocas 5 6 7 2 3 3).isWord = true ∧ (Instr.amocas 5 6 7 2 3 3).wf = true := by decide +kernel
theorem witness_StepKeepsMemoryForm : State.reset.memoryForm ∧ (match step State.reset with | .next _ => true | _ => false) = true := by
  simp only [State.memoryForm]; decide +kernel

theorem witness_GangsAreSavedAndRestored_preempt :
    let r := rec 64 (fun l => l.set 1 0x100000100)
    let g : Gang := { key := 1, tenant := 0, rcd := { rec 1 with key := 1 }, members := [{ core := 0x20#20, group := 0, rank := 0 }], phase := .started }
    let tn : Tenant := { ten with savebase := 0x220001#64, vats := [], queue := [r] }
    let s : State := { base with me := {}, gangs := [g], others := [(0x20#20, { srv with gang := some 1 })], tenants := [tn] }
    s.tenant 0 = some tn ∧ s.place tn r = none ∧ s.victim tn r = some g ∧ (s.claimBlocks tn 1).2 = some [0] ∧ (s.claimBlocks tn 1).1.gang? 1 = some g
    ∧ runs (.preemptStarvation 0) s (fun t => t.gangs.map (·.phase) = [.preempting] && (t.core 0x20).noAdmit) = true := by decide +kernel

theorem witness_GangsAreSavedAndRestored_restore :
    let g : Gang := { placed with key := 1, phase := .restoring, members := [{ core := 0x20#20, group := 0, rank := 0, saved := true, block := 1 }] }
    let tn : Tenant := { ten with savebase := 0x220001#64, vats := [] }
    let s : State := { base with me := {}, gangs := [g], others := [(0x20#20, { gang := some 1 })], tenants := [tn] }
    s.tenant 0 = some tn ∧ s.gang? 1 = some g ∧ g.bindings = [] ∧ (s.readLines tn (tn.blockAt 1) 1024).2.2 = []
    ∧ runs (.gangRestore 1) s (fun t => t.gangs.map (·.phase) = [.started] && (t.core 0x20).gang = some 1) = true := by decide +kernel

theorem witness_MessagesArrive_edges :
    let m (h : Word) (start : Bool) : Body := .message 0x20 0 1 h [7] 3 start
    let full := two (fun c => { c with pails := [{ st := .running }] })
    let e : OutEntry := { slot := 3, ctx := 0#2, serial := 1, kind := .multicast 2#2, hdr := 0#64, released := true
                          dests := [{ core := 0x20#20, inFlight := false, backoff := 4096 }, { core := 0x40#20, inFlight := false }] }
    let w (ph : GangPhase) : State := { base.onMe (fun c => { c with outbox := [e] }) with gangs := [{ placed with key := 1, phase := ph }] }
    let b : State := { two with bindings := [{ bnd with worker := 0x20#20 }] }
    let l : State := { b with net := [{ id := 0, vnet := 0#2, body := m 0x141 true }, { id := 1, vnet := 0#2, body := m 0x141 false }], pick := 1 }
    runs .handlerMessage (pkt full (m 0x141 true)) (fun t => t.net.map (·.body) = [m 0x141 true] && (t.core 0x20).pails = [{ st := .running }]) = true
    ∧ runs .handlerMessage (pkt two (m 0x141 true)) (fun t => decide (t.net = []) && (t.core 0x20).pails = [{ st := .queued, start := true }, { st := .freed }]) = true
    ∧ ((two.core 0x20).entry? 254).isSome = true ∧ runs .handlerMessage (pkt two (m 0x3F81 false)) (fun t => (t.core 0x20).pails.map (·.st) = [.freed, .freed] && t.tenants.any (fun u => u.records.any (fun r => r.cause = .illegal))) = true
    ∧ l.startComing 0x20 = true ∧ runs .handlerMessage l (fun t => decide (t.net = l.net)) = true
    ∧ (w .started).savingAt 0 = false ∧ runs (.refusalBackoffExpiry 0 3 0x20) (w .started) (fun t =>
        t.me.outbox.map (fun e => e.dests.map (fun d => (d.core, d.backoff, d.inFlight))) = [[(0x20, 4096, true), (0x40, 16, false)]] && t.net.length = 1) = true
    ∧ (w .saving).savingAt 0 = true ∧ runs (.refusalBackoffExpiry 0 3 0x20) (w .saving) (fun t => decide (t.net = []) && t.me.outbox = [e]) = true := by decide +kernel

theorem witness_RequestsAndNoticesArrive_edges :
    let t (g : Nat) : Body := .latch 0x20 0 g 1 (Vector.replicate 32 (Vector.replicate 16 5#32)) false true 3
    let busy := two (fun c => { c with ctx0 := { c.ctx0 with mq := [{ op := .brot 1 0 0, serial := 1, user := false, word0 := 0#32, started := true }] } })
    let own : State := { two with bindings := [{ bnd with worker := 0x20#20 }], net := [{ id := 0, vnet := 0#2, body := .message 0x20 0 1 0x141 [7] 3 true }
                                  , { id := 1, vnet := 0#2, body := .spawnReq 0x20 ⟨0, 0, 1, false, 0#2⟩ 3 1 0xC005 [0x700] 20 2 }], pick := 1 }
    let end_ (p : PipeEnd) (n : Nat) : State := two (fun c => { c with pipes := c.pipes.set 0 (some { p with mode := 1 }), counters := c.counters.set 28 { pipe := true, count := 2, reserved := n } })
    runs .latchArrival (pkt two (t 2)) (fun u => (u.core 0x20).latch 1 = ({} : Core).latch 1 && u.tenants.any (fun v => v.records.any (fun r => r.cause = .window))) = true
    ∧ (busy.core 0x20).latchBusy 1 = true ∧ runs .latchArrival (pkt busy (t 1)) (fun u => u.net.length = 1) = true
    ∧ own.startComing 0x20 = true ∧ runs .spawnRequest own (fun u => decide (u.net = own.net)) = true
    ∧ runs .copyNotice (pkt (end_ (pend false 0 0) 1) (.notice 0x20 0 1 28)) (fun u => (u.core 0x20).counters[28] = { pipe := true, count := 3 }) = true
    ∧ runs .copyNotice (pkt (end_ (pend false 0 0) 0) (.notice 0x20 0 1 28)) (fun u => (u.core 0x20).counters[28] = { pipe := true, count := 2, early := 1 }) = true
    ∧ runs .copyNotice (pkt (end_ (pend false 1 0) 0) (.notice 0x20 0 1 28)) (fun u => (u.core 0x20).counters[28] = { pipe := true, count := 2 }) = true := by decide +kernel

theorem witness_AtomicsElsewhere_record :
    let s : State := { mem [(1, 0x80#64), (2, 3#64)] with bindings := [{ bnd with d := true, filter := 8#16 }] }
    s.recordsOld = true ∧ s.reachesPage (addrOf (s.cx.rg 1) 0) 4 .write pg ∧ (s.used pg).mayAmo 0 0
    ∧ runs (.amoor 0 1 2 0 2 0) s (fun t => t.cx.st = .waiting && t.net.map (fun p => match p.body with | .atomic _ _ _ _ _ _ _ ret _ _ _ => ret | _ => false) = [false, true]) = true := by
  refine ⟨?_, ⟨?_, ?_, ?_, ?_, ten, ?_⟩, ?_, ?_⟩ <;> ((try simp only [State.mayAmo, State.mayRelease]); decide +kernel)

/-- A window store behind an earlier load of the same bytes, and one beside it. -/
theorem witness_WindowsStampsAndWaits_order :
    let r : Req := ⟨0, 0, 1, false, 0#2⟩
    let w (id o : Nat) (x : WinOp) : Packet := { id := id, vnet := 0#2, body := .window 0x20 r o 0x77 x 1 }
    let s (o : Nat) : State := { asks two with net := [w 0 0x1000 (.load 4 false), w 1 o (.store 2 9)], pick := 1 }
    (s 0x1003).windowAhead 1 0x20 r 0x1003 2 = true ∧ runs .windowAccess (s 0x1003) (fun t => decide (t.net = (s 0x1003).net)) = true
    ∧ (s 0x1004).windowAhead 1 0x20 r 0x1004 2 = false ∧ runs .windowAccess (s 0x1004) (fun t => decide ((t.core 0x20).localMem = [(0x1004, 9#8)])) = true := by decide +kernel

/-- An engine command beyond the declared tiles, and a GELIM of a poisoned tile. -/
theorem witness_TileTransfers_limit :
    let s := own [(1, 0x8000000000000000)] [] (fun x => { x with act := { x.act with tiles := 0 } })
    let g := (own [(3, 0x112)]).onCx (fun x => { x with tPoison := 2#8 })
    s.cx.mayTiles (shapeOf (.tld 1 2 1 0 1)).writes = false ∧ traps s (.tld 1 2 1 0 1) .illegal 0 = true
    ∧ g.cx.readsPoison (.gelim 0 2 0 3) = true ∧ runs (.gelim 0 2 0 3) g (fun t => t.cx.st = .free) = true := by decide +kernel

/-- A word in the L1 instruction cache, and PCs that give none. -/
theorem witness_StepRunsDecodedInstruction_fetch :
    let s := (mem []).onMe (fun c => { c with steer := [pg], il1 := [{ pa := 0x200080, data := [(0x200084, 0x13#8)] }] })
    let out (s : State) (pc : Word) : Option (Lane ⊕ Cause) := match s.fetchWord pc with | .word _ w => some (.inl w) | .fault _ f => some (.inr f.cause) | _ => none
    s.missOut = false ∧ s.ownerOf s.meId = some ten ∧ s.cx.op.leaf = none ∧ leafFault ten pg 0x84 .fetch (!s.cx.sup) = none
    ∧ s.savingAt 0 = false ∧ out s 0x84 = some (.inl 0x13#32) ∧ out s 0x86 = some (.inr .align) ∧ out s 0x01FF000000000000 = some (.inr .window) := by decide +kernel

/-! ## Saves, stamps and pending releases -/

/-- A gang on core (0, 1) in a phase. -/
def inPhase (ph : GangPhase) (f : Core → Core := id) : State := { two f with gangs := [{ placed with key := 1, phase := ph }] }

theorem witness_ActivationsStart_saving :
    let v (c : Core) : Core := { c with svcq := [{ index := 254#8, g3 := 2#64 }] }
    let t : Task := { place := .counter 3, pri := 2#2, handler := 5#8, arg := 9#56 }
    let w : State := { two (fun c => { c with runq := [t], scan := true }) with
                       bindings := [{ bnd with worker := 0x20#20 }]
                       net := [{ id := 0, vnet := 0#2, body := .message 0x20 0 1 0x141 [7] 3 true }] }
    (inPhase .saving v).savingAt 0x20 = true ∧ ((inPhase .saving v).core 0x20).ctx3.st = .free ∧ (inPhase .saving v).present 0x20 = true
    ∧ runs (.serviceAdmission 0x20) (inPhase .saving v) (fun t => (t.core 0x20).svcq.length = 1 && (t.ctxAt 0x20 3).st = .free) = true
    ∧ (inPhase .started v).savingAt 0x20 = false ∧ runs (.serviceAdmission 0x20) (inPhase .started v) (fun t => decide ((t.core 0x20).svcq = []) && (t.ctxAt 0x20 3).st = .ready) = true
    ∧ two.savingAt 0x20 = false ∧ (two.core 0x20).svcq = [] ∧ two.startComing 0x20 = false
    ∧ w.startComing 0x20 = true ∧ (w.core 0x20).freeCtx? = some 0 ∧ runs (.dispatcherScan 0x20) w (fun t => (t.core 0x20).runq.length = 1 && (t.ctxAt 0x20 0).st = .free) = true := by decide +kernel

theorem witness_MessagesArrive_saving :
    let m (start : Bool) : Body := .message 0x20 0 1 0x141 [7] 3 start
    let b (ph : GangPhase) : State := { inPhase ph with bindings := [{ bnd with worker := 0x20#20 }], net := [{ id := 0, vnet := 0#2, body := m true }, { id := 1, vnet := 0#2, body := m false }], pick := 1 }
    let sp (ph : GangPhase) : State := { b ph with net := [{ id := 0, vnet := 0#2, body := m true }, { id := 1, vnet := 0#2, body := .spawnReq 0x20 ⟨0, 0, 1, false, 0#2⟩ 3 1 0xC005 [0x700] 20 2 }] }
    let gone : State := pkt (inPhase .saved (fun c => { c with gang := none })) (m true)
    let e : OutEntry := { slot := 3, ctx := 0#2, serial := 1, kind := .multicast 2#2, hdr := 0#64, released := true, dests := [{ core := 0x20#20, inFlight := false }] }
    let p : State := { grouped [] with gangs := [{ placed with key := 1, phase := .saving, members := [{ core := 0#20, group := 0, rank := 0 }] }], groups := [{ grp with members := [0#20, 0x20#20, 0x40#20] }] }
    let q := p.onMe (fun c => { c with outbox := [e] })
    (b .saving).startComing 0x20 = true ∧ (b .saving).savingAt 0x20 = true ∧ (b .started).savingAt 0x20 = false
    ∧ runs .handlerMessage (b .started) (fun t => t.net.length = 2) = true
    ∧ runs .handlerMessage (b .saving) (fun t => t.net.map (·.body) = [m true, .refused 0 3 0x20] && (t.core 0x20).pails = ((b .saving).core 0x20).pails) = true
    ∧ runs .spawnRequest (sp .started) (fun t => t.net.length = 2) = true ∧ runs .spawnRequest (sp .saving) (fun t => t.net.map (·.body) = [m true, .spawnAns ⟨0, 0, 1, false, 0#2⟩ 3 false]) = true
    ∧ gone.startWaits 0x20 1 = true ∧ runs .handlerMessage gone (fun t => decide (t.net = gone.net)) = true
    ∧ q.savingAt 0 = true ∧ q.partly 0 e = true ∧ q.hasBitmap 0 3 = false ∧ runs (.refusalBackoffExpiry 0 3 0x20) q (fun t => t.net.length = 1) = true := by decide +kernel

theorem witness_StoresComplete_behind :
    let w (t : Tgt) (va n : Nat) : RelStore := { serial := 1, scope := 0, va := va, size := n, value := 5#64, tgt := t }
    let a := mem [(1, selfWindow 0x1000), (2, 0x1234#64)] (fun x => { x with rel := [w (.self 0x1001) 0x1001 1], unack := { clu := 1 } })
    let c := mem [(1, 0x01FF000020001000#64)] (fun x => { x with rel := [w (.core (mkCore 0 0 2 0) 0x1000) 0x01FF000020001000 8] })
    let twin := mem [(1, 0x80#64)] (fun x => { x with rel := [w (.paged (pg.xl 0x80)) 0x5080 8], unack := { clu := 1 } })
    let bad := (mem [(1, 0x80#64)]).onMe (fun c => { c with l1 := c.l1.map (fun l => { l with poison := true }) })
    a.cx.relOverlaps (relKey (.self 0x1000)) 2 = true ∧ waits (.st 2 1 0 0 1 0) a a .counters false 0 = true
    ∧ runs (.st 2 1 0 0 1 1) a (fun t => t.cx.pc = 0x1004#64 && t.cx.rel.map (·.size) = [1, 2] && t.cx.st = .ready) = true
    ∧ c.cx.relOverlaps (relKey (.core (mkCore 0 0 2 0) 0x1000)) 8 = true ∧ waits (.ld 5 1 0 0 3 0) c c .counters false 0 = true
    ∧ waits (.st 2 1 0 0 3 0) twin (twin.used pg) .counters false 0 = true ∧ runs (.ld 5 1 0 0 3 0) twin (fun t => t.cx.rg 5 = 5#64) = true
    ∧ bad.me.dirtyBad 0x200080 8 = true ∧ runs (.ld 5 1 0 0 3 1) bad (fun t => t.cx.st = .free) = true ∧ (mem []).me.dirtyBad 0x200080 8 = false := by decide +kernel

theorem witness_FencesReleaseAndAcquire_several :
    let d (c : Cause) (o : Nat) (sc : Option Scope) : Deferred := { info := { cause := c, addr := 8#64 }, scope := sc, order := o }
    let s (l : List Deferred) := base.onCx (fun x => { x with deferred := l })
    let left (l : List Deferred) := runs (.fence 0 3) (s l) (fun t => t.tenants.any (fun u => u.records.length = l.length)) = true
    (forget 3 (d .pageNp 1 none) [d .pageNp 1 none, d .window 2 (some 1#2)]).length = 1 ∧ (forget 3 (d .window 1 (some 1#2)) [d .window 1 (some 1#2), d .pageNp 2 none, d .window 3 (some 1#2)]).length = 1
    ∧ left [d .pageNp 1 none, d .window 2 (some 1#2)] ∧ traps (s [d .pageNp 1 none, d .window 2 (some 1#2)]) (.fence 0 3) .pageNp 8 = true := by decide +kernel

theorem witness_PinAndUnpinComplete_fill :
    let s := mem [(1, 0#64), (2, 1#64)]
    let f : State := { s with net := [{ id := 1, vnet := 0#2, body := .fill ⟨0, 0, 1, false, 0#2⟩ { pa := 0x200000 } 0 false false }] }
    s.pinAwaits 0 1 = false ∧ f.pinAwaits 0 1 = true ∧ waits (.pin 5 1 2) f f .counters false 0 = true := by decide +kernel

theorem witness_WindowsStampsAndWaits_table :
    let st (pa lg : Nat) : Stamp := { tenant := 0, xl := { pa := pa }, lg := lg, core := 0x40#20, scope := 0#2 }
    let s : State := { two with slices := [(0x20#20, { stamps := [st 0x200080 7], newStamps := [st 0x300000 6] })] }
    let d := pkt { s with parlour := { s.parlour with absent := [0x40#20] } } (.drain 0x40 0x20 0x2000C0 1 false)
    (st 0x200080 7).on 0x2000C0 = true ∧ (st 0x200080 6).on 0x2000C0 = false ∧ d.present 0x40 = false
    ∧ runs .stampDrain d (fun t => decide ((t.slice 0x20).stamps = [st 0x300000 6]) && decide ((t.slice 0x20).newStamps = [])) = true := by decide +kernel

/-- A host access whose walk meets a stamp on its PTE's line. -/
theorem witness_HostAndPeersAreServed_stamp :
    let t : Tenant := { ten with hwbase := 0x40#64, ptroot := 0x200001#64 }
    let s : State := { base with tenants := [t] }
    let at_ := s.homeOf 0 (physXl 0x200000) t.homeDie false
    let st : Stamp := { tenant := 0, xl := physXl 0x200000, core := 0x40#20, scope := 0#2 }
    let m : State := { s with slices := [(at_, { stamps := [st] })] }
    (m.unitRead 0 0 false 2 0x40 1).1.blocked.isSome = true ∧ m.blocked = none
    ∧ runs (.hostWindowRead 4 0 1) m (fun t => t.parlour.hostReply.isNone && t.net.any (fun p => match p.body with | .drain c _ _ _ _ => c = 0x40 | _ => false)) = true := by decide +kernel

theorem witness_HostAndPeersAreServed_waits :
    let g : State := { base with tenants := [{ ten with vats := [], grants := [(0, 0x8000000300000005#64)] }] }
    let w : WaitEntry := { req := outsideReq, xl := physXl 0x200040, size := 8, cmp := 0, expected := 5, mask := 0xFF, peer := some (3, 5, 0) }
    let h := g.homeOf 0 (physXl 0x200040) 0 false
    let r := { g with slices := [(h, { waits := [w] })] }
    w.test (List.replicate 8 0#8) = false ∧ runs (.blulinInboundRequest 3 5 0 (.wait 8 0 5 0xFF) 0x200040) g (fun t => (t.slice h).waits = [w] && t.parlour.peerReply.isNone) = true
    ∧ runs (.blulinInboundRequest 3 5 0 (.withdraw 8 0 5 0xFF) 0x200040) g (fun t => t.parlour.peerReply = some (1, [])) = true
    ∧ runs (.blulinInboundRequest 3 5 0 (.withdraw 8 0 5 0xFF) 0x200040) r (fun t => t.parlour.peerReply = some (0, []) && decide ((t.slice h).waits = [])) = true
    ∧ runs (.blulinInboundRequest 3 5 0 (.write [5]) 0x200040) r (fun t => t.parlour.waitReplies = [(3, 5, 0)] && decide ((t.slice h).waits = [])) = true := by decide +kernel

theorem witness_VatsChange_offline :
    let v : Vat := ten.vats.head (by decide)
    let f : State := { base with slices := [(0x20#20, { failing := [(0, 0, v.cur.shares.head (by decide))] })] }
    v.allShares[0]? = v.cur.shares.head? ∧ runs (.shareOffline 0 0 0) base (fun t => decide (t.tenants = base.tenants) && decide (t.slices = [])) = true
    ∧ runs (.shareOffline 0 0 0) f (fun t => (t.slice 0x20).waysOff 0 0xFFFF && decide ((t.slice 0x20).failing = []) && t.tenants.any (fun u => u.records.length = 1)) = true := by decide +kernel

theorem witness_ErrorsPoisonAndLose_key :
    let s : State := { base with hbmKey := [(0x8001, 2)] }
    base.foreignKey 0x200040 = false ∧ s.foreignKey 0x200040 = true ∧ runs (.skimmerLineRead 0x200040 .clean) s (fun t => decide (t.hbmPoison = [0x8001])) = true := by decide +kernel

theorem witness_PipesAndGroupsAdvance_broken :
    let s : State := two (fun c => { c with pipes := c.pipes.set 1 (some (pend false 2 0)), counters := c.counters.set 28 { pipe := true, count := 2 } })
    runs .pipeFarEndUpdate (pkt s (.pipe 0x20 1 1 (.fill 2))) (fun t => (t.core 0x20).counters[28] = { pipe := true, count := 2 }) = true := by decide +kernel

theorem witness_CommandsRun_addresses :
    let s (code : Nat) (b : Vector Word 8) : State := { base with parlour := { base.parlour with state := 2, busy := some code, running := b } }
    let ends (i : Instr) (t : State) (w : Nat) : Bool := runs i t (fun t => t.parlour.status = BitVec.ofNat 64 (2 ^ 63 + w) && decide (t.parlour.busy = none))
    ends .reset (s 2 #v[2, 0x1000, 0, 0, 0, 0, 0, 0]) 4 = true ∧ ends .reset (s 2 #v[2, 0, 0, 0x2000, 0, 0, 0, 0]) 4 = true ∧ ends .reset (s 2 #v[0x102, 0, 0, 0, 0, 0, 0, 0]) 1 = true := by decide +kernel

theorem witness_QueuePairsAdvance_entry :
    let q : QueuePair := { num := 3, tenant := 0, sendVa := 0x100#64, sendLen := 4, compVa := 0x200#64, compLen := 4, tailVa := 0x40#64, port := 0, mtu := 0, dest := 0, sendPsn := 0, recvPsn := 0, dgid := [], sgid := [], headVa := 0x48#64 }
    let s : State := { base with parlour := { base.parlour with qps := [q] } }
    (s.entryEnds q (List.replicate 8 0#64) 2).blocked = s.blocked ∧ (s.entryEnds q (List.replicate 8 0#64) 2).parlour.qps.map (fun q => (q.next, q.comp)) = [(1, 1)] := by decide +kernel

/-- A release store that goes to its home while a deferred fault of a later store waits keeps its place (R103). -/
theorem test_release_place : let w : RelStore := { serial := 1, scope := 0, va := 0x80, size := 8, value := 5#64, tgt := .core 0x20 0x1000, place := 3 }
    ((mem []).performRel 0 0 w).net.map (·.id) = [3] ∧ ((mem []).performRel 0 0 w).nextPkt = 9 := by decide +kernel

/-- An answered SPAWN that cannot log ends before its gang's save, and its record is kept (R177; log entry 105). -/
theorem test_log_later :
    let b := bound_ (fun b => { b with lag := 0, filter := 0xFFFF#16 })
    let s : State := ({ b with gangs := [{ placed with key := 1, phase := .saving, members := [{ core := 0#20, group := 0, rank := 0 }] }] } : State).onCx (fun x => { x with op := { x.op with phase := 9, status := some 0 } })
    s.savingAt s.meId = true ∧ s.logRoom s.meId s.me.cur { type := 4 } = false
    ∧ (s.withLog { type := 4, body := [1#8] } (fun s => s.retire 1)).cx.pc = 0x1004#64 ∧ ((s.withLog { type := 4, body := [1#8] } (fun s => s.retire 1)).bindings.map (fun b => b.heldTrap.map (·.body))) = [[[1#8]]] := by decide +kernel

/-- What came with the second look at the homes: an acquiring atomic and a stamp (R71, R147), another tenant's frame (R5), and a prefetch's line past an
acquire (R345). -/
theorem witness_HomesPerform_held :
    let r : Req := ⟨0, 0, 1, false, 0#2⟩
    let st : Stamp := { tenant := 0, xl := bx, core := 0x40#20, scope := 0#2 }
    let home := base.homeOf 0 bx 0 false
    let m : State := { asks base with hbm := [(0x200080, 7#8)], slices := [(home, { stamps := [st] })] }
    let other : Tenant := { ten with id := 1, ranges := [(0x200000, 0x200000)], clusters := [], vats := [] }
    let f : State := { base with tenants := [{ ten with ranges := [] }, other] }
    let late (a : Option Scope) : State := { m with slices := [], net := [{ id := 1, vnet := 0#2, acquired := a, body := .fill { r with bg := true } bx 0x80 false false }], pick := 1 }
    m.blockingStamp home 0 bx.pa = some st ∧ m.bare ten 0 bx ∧ m.legible ten bx
    ∧ runs .atomicAtHome (pkt m (.atomic r bx 0x80 0 true 5 0 true none (some 3) 1)) (fun t => decide (t.hbm = [(0x200080, 12#8)]) && t.cx.st = .waiting
        && t.net.any (fun q => q.body = .atomicAns r home st 1 8 7 true)) = true
    ∧ runs .atomicAtHome (pkt m (.atomicAns r home st 1 8 7 false)) (fun t => t.cx.st = .ready && t.cx.op.result = some 7 && t.net.isEmpty) = true
    ∧ f.foreign { ten with ranges := [] } 0x200080 = true ∧ base.foreign ten 0x200080 = false
    ∧ runs .writeAtHome (pkt f (.write r bx 0x80 (cellsAt bx.pa [1, 2]) false none 1)) (fun t => decide (t.hbm = []) && t.net.map (·.body) = [.ack r 1]) = true
    ∧ (late (some 3)).installRoom 0 bx = true ∧ runs .lineFill (late (some 3)) (fun t => t.me.l1.isEmpty) = true ∧ runs .lineFill (late none) (fun t => t.me.l1.length = 1) = true := by
  refine ⟨?_, ⟨?_, ?_, ?_⟩, ⟨?_, ?_⟩, ?_, ?_, ?_, ?_, ?_, ?_, ?_, ?_⟩ <;> first | decide +kernel | (intro k h; cases h)

/-- A release store to the core's own spill region is not seen by a load there (R33); a LAUNCH at a window address is refused (R103); and an acquire
marks the context's prefetches on their way (R345). -/
theorem witness_LoadsComplete_spill :
    let w : RelStore := { serial := 1, scope := 0, va := 0, size := 8, value := 5#64, tgt := .self 0x400 }
    let s := (mem [(1, selfWindow 0x400), (2, 0x1FFF00000000000#64)] (fun x => { x with rel := [w] })).onMe (fun c => { c with pails := List.replicate 8 {} })
    let p : Packet := { id := 1, vnet := 0#2, body := .fill ⟨0, 0, 1, true, 0#2⟩ bx 0x80 false false }
    s.reachesSelf (addrOf (s.cx.rg 1) 0) 8 false 0x400 ∧ s.me.localBad 0x400 8 = false ∧ s.me.area 0x400 = .spill ∧ runs (.ld 5 1 0 0 3 0) s (fun t => t.cx.rg 5 = 0#64) = true
    ∧ windowTarget s.meId (addrOf (s.cx.rg 2) 0) = none ∧ traps s (.launch 2 0) .window 0x1FFF00000000000#64 = true
    ∧ p.prefetch 0 0 = true ∧ ({ base with net := [p] } : State).acquireLines 0 0 2 = ({ base with net := [{ p with acquired := some 2#2 }] } : State).onMe (fun c => c.l1Invalidate (fun l => l.within 2)) := by
  refine ⟨⟨?_, ?_, ?_, ?_, ?_⟩, ?_, ?_, ?_, ?_, ?_, ?_, ?_⟩ <;> decide +kernel

/-- A gang is saved with the arrivals of its groups, and restored with them: the context waits again with its arrival still counted (R326). -/
theorem witness_GangsAreSavedAndRestored_episode :
    let tn : Tenant := { ten with savebase := 0x220001#64, vats := [] }
    let g : Gang := { placed with key := 1, phase := .restoring, members := [{ core := 0x20#20, group := 0, rank := 0, saved := true, block := 1, kept := some { ctx0 := { act := { serial := 4 } } } }] }
    let gr : Group := { gang := 1, id := 0, slot := 2, members := [0#20, 0x20#20], kind := some 0, arrivals := [(1, ⟨0x20, 0, 4, false, 1#2⟩, 9#64)] }
    let s : State := { base with me := {}, gangs := [g], groups := [gr], others := [(0x20#20, { gang := some 1 })], tenants := [tn]
                                 hbm := [(tn.blockAt 1 + 0xC00, 2#8), (tn.blockAt 1 + 0xD38, 7#8)] }
    let sv : State := { s with gangs := [{ g with phase := .saving, members := [{ core := 0x20#20, group := 0, rank := 0, block := 1 }] }]
                               others := [(0x20#20, { gang := some 1, ctx0 := { st := .saving, op := { wait := .group 2, phase := 9 }, act := { serial := 4 } }, noAdmit := true })] }
    runs (.gangRestore 1) s (fun t => (t.ctxAt 0x20 0).st = .waiting && (t.ctxAt 0x20 0).op = { elapsed := 7, wait := .group 2, timed := true, phase := 9, aux := (groupScope gr.members).toNat }
        && t.groups = [gr]) = true
    ∧ sv.saveReady 1 0x20 = true ∧ ((s.gangSaved 1).groups = [] ∧ (s.gangSaved 1).gangs.map (·.groups) = [[gr]])
    ∧ runs .groupEpisodeComplete (pkt sv (.episode ⟨0x20, 0, 4, false, 1#2⟩ 2 (.passed 0))) (fun t => (t.ctxAt 0x20 0).st = .ready && (t.ctxAt 0x20 0).owed) = true := by decide +kernel

/-- A context's record carries what a restore needs besides (R178; log entry 50). -/
theorem witness_GangsAreSavedAndRestored_record :
    let x : Context := { st := .waiting, wroteG := 0x80000007#32, wroteT := 0x81#8, mflt := true, cScope := some 2#2, vScope := some 0#2, qbound := 0x21#8
                         op := { phase := 6, wait := .verdict 4, aux := 0x123456789, elapsed := 11 }, act := { sregs := 3, tiles := 2, dirtied := true, serial := 1 } }
    let c : Core := { ctx2 := x }
    let y := contextOf (Memory.storeDwords [] 0x1000 (c.record 2)) [] 0 2#2 9
    y.wroteG = x.wroteG ∧ y.wroteT = x.wroteT ∧ y.mflt = true ∧ y.vflt = false ∧ y.cScope = x.cScope ∧ y.vScope = x.vScope ∧ y.qbound = x.qbound
    ∧ y.act.begun = false ∧ y.act.dirtied = true ∧ y.act.sregs = 3 ∧ y.act.tiles = 2 ∧ y.op = { phase := 5, aux := 0x123456789, elapsed := 11 } := by decide +kernel

/-- Acquiring loads from another module, and the tail of a send queue, whose lines hold a stamp (R147, R246, R247). -/
theorem witness_HostAndPeersAreServed_acquire :
    let t : Tenant := { ten with vats := [], grants := [(0, 0x8000000300000005#64)] }
    let q : QueuePair := { num := 3, tenant := 0, sendVa := 0x100#64, sendLen := 4, compVa := 0x200#64, compLen := 4, tailVa := 0x40#64, port := 0, mtu := 0, dest := 0, sendPsn := 0, recvPsn := 0, dgid := [], sgid := [], headVa := 0x48#64 }
    let s : State := { base with tenants := [t], parlour := { base.parlour with qps := [q] } }
    let home := s.homeOf 0 (physXl 0x200040) t.homeDie false
    let st : Stamp := { tenant := 0, xl := physXl 0x200040, core := 0x40#20, scope := 2#2 }
    let m : State := { s with slices := [(home, { stamps := [st] })] }
    let drains (t : State) : Bool := t.net.map (·.body) = [.drain 0x40 home 0x200040 3 false]
    s.outsideStamp t (physXl 0x200040) = none ∧ m.outsideStamp t (physXl 0x200040) = some (home, st)
    ∧ runs (.blulinInboundRequest 3 5 0 (.read 1 true) 0x200040) s (fun t => t.parlour.peerReply = some (0, [0#8])) = true
    ∧ runs (.blulinInboundRequest 3 5 0 (.read 1 true) 0x200040) m drains = true ∧ runs (.blulinInboundRequest 3 5 0 (.read 1 false) 0x200040) m (fun t => t.net.isEmpty) = true
    ∧ m.blocked = none ∧ (match (m.ethAcquire 0 0x40).ethRead 0 0x40 with | (u, some _) => u.blocked.isSome | _ => false) = true ∧ runs (.qpTailPoll 3) m drains = true := by decide +kernel

end Sys2Proof.Tests
end

section
/-! The integer register instructions and the branches (R292, R293, R298, R299, R305, R332, R333, R338, R339, R343, R352, R353):
the results of the model on exact integers, what the forms of the instructions leave, and the statements that follow. -/
namespace Sys2Proof.Machine

/-! ## Results of two registers (R292, R299, R343) -/

theorem ofNat_shiftLeft (n k : Nat) : BitVec.ofNat 64 n <<< k = BitVec.ofNat 64 (n * 2 ^ k) := by
  apply BitVec.eq_of_toNat_eq
  simp [Nat.shiftLeft_eq]

theorem addV_eq (x y : Word) : addV x y = BitVec.ofNat 64 (x.toNat + y.toNat) := rfl

theorem subV_eq (x y : Word) : subV x y = BitVec.ofInt 64 (x.toNat - y.toNat : Int) := by
  simp [subV, Int.sub_eq_add_neg, BitVec.ofInt_add, BitVec.ofInt_neg, BitVec.sub_eq_add_neg]

theorem shlV_eq (x y : Word) : shlV x y = BitVec.ofNat 64 (x.toNat * 2 ^ (y.toNat % 64)) := by
  rw [shlV, ← ofNat_shiftLeft, BitVec.ofNat_toNat, BitVec.setWidth_eq]

theorem shrV_eq (x y : Word) : shrV x y = BitVec.ofNat 64 (x.toNat / 2 ^ (y.toNat % 64)) := by
  rw [← Nat.shiftRight_eq_div_pow, ← BitVec.toNat_ushiftRight, BitVec.ofNat_toNat, BitVec.setWidth_eq, shrV]

theorem sarV_eq (x y : Word) : sarV x y = BitVec.ofInt 64 (x.toInt / 2 ^ (y.toNat % 64)) := by
  rw [sarV, BitVec.sshiftRight_eq, Int.shiftRight_eq_div_pow]
  norm_cast

theorem rotrV_eq (x y : Word) : rotrV x y = x >>> (y.toNat % 64) ||| x <<< (64 - y.toNat % 64) :=
  BitVec.rotateRight_eq_rotateRightAux_of_lt (Nat.mod_lt _ (by decide))

theorem sltV_eq (x y : Word) : sltV x y = if x.toInt < y.toInt then 1#64 else 0#64 := by
  simp [sltV, boolV, BitVec.slt_iff_toInt_lt]

theorem sltuV_eq (x y : Word) : sltuV x y = if x.toNat < y.toNat then 1#64 else 0#64 := by
  simp [sltuV, boolV, BitVec.ult_iff_toNat_lt]

theorem minV_eq (x y : Word) : minV x y = BitVec.ofInt 64 (min x.toInt y.toInt) := by
  simp only [minV, BitVec.slt_iff_toInt_lt]
  split
  · rw [Int.min_eq_left (by omega), BitVec.ofInt_toInt]
  · rw [Int.min_eq_right (by omega), BitVec.ofInt_toInt]

theorem maxV_eq (x y : Word) : maxV x y = BitVec.ofInt 64 (max x.toInt y.toInt) := by
  simp only [maxV, BitVec.slt_iff_toInt_lt]
  split
  · rw [Int.max_eq_right (by omega), BitVec.ofInt_toInt]
  · rw [Int.max_eq_left (by omega), BitVec.ofInt_toInt]

theorem minuV_eq (x y : Word) : minuV x y = BitVec.ofNat 64 (min x.toNat y.toNat) := by
  simp only [minuV, BitVec.ult_iff_toNat_lt]
  split
  · rw [Nat.min_eq_left (by omega), BitVec.ofNat_toNat, BitVec.setWidth_eq]
  · rw [Nat.min_eq_right (by omega), BitVec.ofNat_toNat, BitVec.setWidth_eq]

theorem maxuV_eq (x y : Word) : maxuV x y = BitVec.ofNat 64 (max x.toNat y.toNat) := by
  simp only [maxuV, BitVec.ult_iff_toNat_lt]
  split
  · rw [Nat.max_eq_right (by omega), BitVec.ofNat_toNat, BitVec.setWidth_eq]
  · rw [Nat.max_eq_left (by omega), BitVec.ofNat_toNat, BitVec.setWidth_eq]

theorem addwV_eq (x y : Word) : addwV x y = (BitVec.ofNat 32 (x.toNat + y.toNat)).signExtend 64 := by
  rw [addwV, BitVec.add_def, BitVec.setWidth_ofNat_of_le (by decide)]

theorem subwV_eq (x y : Word) : subwV x y = (BitVec.ofInt 32 (x.toNat - y.toNat : Int)).signExtend 64 := by
  have low : (x - y).setWidth 32 = BitVec.ofInt 32 (x.toNat - y.toNat : Int) := by
    apply BitVec.eq_of_toNat_eq
    rw [BitVec.toNat_setWidth, BitVec.toNat_sub, BitVec.toNat_ofInt]
    omega
  rw [subwV, low]

theorem mulV_eq (x y : Word) : mulV x y = BitVec.ofNat 64 (x.toNat * y.toNat) := by
  simp [mulV, BitVec.ofNat_mul]

/-- The high half of a product of 128 bits is its quotient by 2^64, rounded down. -/
theorem high_half_ofInt (z : Int) : (BitVec.ofInt 128 z >>> 64).setWidth 64 = BitVec.ofInt 64 (z / 2 ^ 64) := by
  apply BitVec.eq_of_toNat_eq
  rw [BitVec.toNat_setWidth, BitVec.toNat_ushiftRight, BitVec.toNat_ofInt, BitVec.toNat_ofInt, Nat.shiftRight_eq_div_pow]
  omega

theorem mulhV_eq (x y : Word) : mulhV x y = BitVec.ofInt 64 (x.toInt * y.toInt / 2 ^ 64) := by
  rw [← high_half_ofInt, BitVec.ofInt_mul]
  rfl

theorem mulhuV_eq (x y : Word) : mulhuV x y = BitVec.ofNat 64 (x.toNat * y.toNat / 2 ^ 64) :=
  calc mulhuV x y = (BitVec.ofInt 128 (x.toNat * y.toNat : Nat) >>> 64).setWidth 64 := by
        simp [mulhuV, BitVec.ofInt_mul]
    _ = BitVec.ofInt 64 ((x.toNat * y.toNat / 2 ^ 64 : Nat) : Int) := by rw [high_half_ofInt]; norm_cast
    _ = BitVec.ofNat 64 (x.toNat * y.toNat / 2 ^ 64) := BitVec.ofInt_natCast ..

theorem fieldOnes_eq (y : Word) : fieldOnes y = BitVec.ofNat 64 (2 ^ (y.toNat / 64 % 64 + 1) - 1) := rfl

theorem toNat_fieldOnes (y : Word) : (fieldOnes y).toNat = 2 ^ (y.toNat / 64 % 64 + 1) - 1 := by
  have hle : 2 ^ (y.toNat / 64 % 64 + 1) ≤ 2 ^ 64 := Nat.pow_le_pow_right (by decide) (by omega)
  rw [fieldOnes_eq, BitVec.toNat_ofNat, Nat.mod_eq_of_lt (by omega)]

theorem bextV_eq (x y : Word) : bextV x y = BitVec.ofNat 64 (x.toNat / 2 ^ (y.toNat % 64) % 2 ^ (y.toNat / 64 % 64 + 1)) := by
  have hlt : x.toNat / 2 ^ (y.toNat % 64) < 2 ^ 64 := Nat.lt_of_le_of_lt (Nat.div_le_self _ _) x.isLt
  apply BitVec.eq_of_toNat_eq
  rw [bextV, BitVec.toNat_and, BitVec.toNat_ushiftRight, toNat_fieldOnes, Nat.and_two_pow_sub_one_eq_mod,
    Nat.shiftRight_eq_div_pow, BitVec.toNat_ofNat, Nat.mod_eq_of_lt (Nat.lt_of_le_of_lt (Nat.mod_le _ _) hlt)]

theorem fieldOnes_shiftLeft (y : Word) :
    fieldOnes y <<< (y.toNat % 64) = BitVec.ofNat 64 ((2 ^ (y.toNat / 64 % 64 + 1) - 1) * 2 ^ (y.toNat % 64)) := by
  rw [fieldOnes_eq, ofNat_shiftLeft]

theorem binsV_eq (old x y : Word) :
    binsV old x y =
      let mask := BitVec.ofNat 64 ((2 ^ (y.toNat / 64 % 64 + 1) - 1) * 2 ^ (y.toNat % 64))
      old &&& ~~~mask ||| BitVec.ofNat 64 (x.toNat * 2 ^ (y.toNat % 64)) &&& mask := by
  rw [← fieldOnes_shiftLeft, ← shlV_eq]
  rfl

/-! ## Results of an immediate (R262, R293, R338, R353) -/

theorem addV_signExtend (x : Word) (i : BitVec 16) : addV x (i.signExtend 64) = BitVec.ofInt 64 (x.toNat + i.toInt) := by
  rw [BitVec.ofInt_add, BitVec.ofInt_natCast, BitVec.ofNat_toNat, BitVec.setWidth_eq]
  rfl

theorem sltV_signExtend (x : Word) (i : BitVec 16) : sltV x (i.signExtend 64) = if x.toInt < i.toInt then 1#64 else 0#64 := by
  rw [sltV_eq, BitVec.toInt_signExtend_of_le (by decide)]

/-- The immediate of a shift stands for y[5:0] (R353). -/
theorem shiftAmount_setWidth (sh : BitVec 6) : (sh.setWidth 64).toNat % 64 = sh.toNat := by
  rw [BitVec.toNat_setWidth_of_le (by decide), Nat.mod_eq_of_lt sh.isLt]

/-- A signed field of an instruction shifted left is the multiple of its value. -/
theorem signExtend_shiftLeft {n : Nat} (o : BitVec n) (k : Nat) : o.signExtend 64 <<< k = BitVec.ofInt 64 (o.toInt * 2 ^ k) := by
  have power : BitVec.twoPow 64 k = BitVec.ofInt 64 (2 ^ k) := by
    rw [BitVec.twoPow_eq, ofNat_shiftLeft, Nat.one_mul, ← BitVec.ofInt_natCast]
    norm_cast
  rw [BitVec.shiftLeft_eq_mul_twoPow, BitVec.ofInt_mul, power]
  rfl

theorem wordOffset_eq (n : Nat) (o : BitVec n) : wordOffset n o = BitVec.ofInt 64 (4 * o.toInt) := by
  rw [wordOffset, signExtend_shiftLeft, Int.mul_comm]
  rfl

/-! ## Results of one register (R305, R352) -/

theorem clzV_counts (x : Word) :
    ∃ n, clzV x = BitVec.ofNat 64 n ∧ n ≤ 64 ∧ (∀ i < n, x.getMsbD i = false) ∧ (n < 64 → x.getMsbD n = true) := by
  by_cases h : x = 0#64
  · exact ⟨64, by simp [clzV, h], Nat.le_refl 64, by simp [h], fun hn => absurd hn (by decide)⟩
  · have hx : x.toNat ≠ 0 := fun e => h (BitVec.eq_of_toNat_eq e)
    have hlog : x.toNat.log2 < 64 := (Nat.log2_lt hx).2 x.isLt
    refine ⟨63 - x.toNat.log2, by simp [clzV, h], by omega, fun i hi => ?_, fun _ => ?_⟩
    · have above : x.toNat < 2 ^ (63 - i) := (Nat.log2_lt hx).1 (by omega)
      simp [BitVec.getMsbD, BitVec.getLsbD, Nat.testBit_lt_two_pow above]
    · have top : 63 - (63 - x.toNat.log2) = x.toNat.log2 := by omega
      have inside : 63 - x.toNat.log2 < 64 := by omega
      simp [BitVec.getMsbD, BitVec.getLsbD, top, inside, Nat.testBit_log2 hx]

theorem ctzV_counts (x : Word) :
    ∃ n, ctzV x = BitVec.ofNat 64 n ∧ n ≤ 64 ∧ (∀ i < n, x.getLsbD i = false) ∧ (n < 64 → x.getLsbD n = true) := by
  refine ⟨_, rfl, ?_⟩
  cases h : (List.range 64).find? (fun i => x.getLsbD i) with
  | none =>
    refine ⟨by simp, fun i hi => ?_, fun hn => absurd hn (by simp)⟩
    simpa using List.find?_eq_none.1 h i (List.mem_range.2 hi)
  | some n =>
    obtain ⟨hbit, hmem, hleast⟩ := List.find?_range_eq_some.1 h
    exact ⟨Nat.le_of_lt (List.mem_range.1 hmem), by simpa using hleast, fun _ => hbit⟩

theorem popcV_eq (x : Word) : popcV x = BitVec.ofNat 64 ((List.range 64).countP (fun i => x.getLsbD i)) := by
  rw [popcV, popcount, List.countP_eq_length_filter]
  rfl

theorem signExtend_low (n : Nat) (x : Word) : (x.setWidth n).signExtend 64 = BitVec.ofInt 64 (BitVec.ofNat n x.toNat).toInt := by
  rw [BitVec.ofNat_toNat]
  rfl

theorem setWidth_low (n : Nat) (x : Word) : (x.setWidth n).setWidth 64 = BitVec.ofNat 64 (x.toNat % 2 ^ n) := by
  rw [← BitVec.toNat_setWidth, BitVec.ofNat_toNat]

/-! ## What the forms leave -/

/-- An instruction that writes one result and passes its words gives that result; that it does so is its own
arm of `exec`, unfolded. -/
theorem gives_of_finish {i : Instr} {d : BitVec 5} {n : Nat} {u v : State → Word}
    (hv : ∀ s, u s = v s) (hi : ∀ s, exec i s = .next (s.withDest d (fun t => t.finish d (u s) n)) := by intros; rfl) :
    Gives i d v (words := n) := by
  intro s hd
  rw [hi, State.withDest_of _ _ _ hd, hv]
  exact ⟨_, rfl, s.finish_wrote d (v s) n⟩

/-- An instruction whose result is some number that a property describes writes a number of that property. -/
theorem gives_count {i : Instr} {d : BitVec 5} {u : State → Word} {P : State → Nat → Prop}
    (hu : ∀ s, ∃ n, u s = BitVec.ofNat 64 n ∧ P s n) (hi : ∀ s, exec i s = .next (s.result d (u s)) := by intros; rfl) (s : State)
    (hd : s.cx.mayG d = true) :
    ∃ t n, exec i s = .next t ∧ Wrote s t d (BitVec.ofNat 64 n) 0#5 (s.cx.pc + 4#64) ∧ P s n := by
  obtain ⟨t, ht, hw⟩ := gives_of_finish (fun _ => rfl) hi s hd
  obtain ⟨n, hn, hp⟩ := hu s
  exact ⟨t, n, ht, hn ▸ hw, hp⟩

/-- What a taken branch leaves: its record is logged and the PC has moved by the offset (R224, R298). -/
theorem State.takeBranch_passed (s : State) (off : Word) (h : s.mayLog (branchItem off)) :
    Passed (s.logged (branchItem off)) (s.takeBranch off) ((s.logged (branchItem off)).cx.pc + off) := by
  rw [State.takeBranch, State.withLog_of _ _ _ h]
  exact State.retireTo_passed _ _

/-- What a conditional branch leaves, by whether its comparison holds (R298). -/
theorem branchIf_passed {i : Instr} {s : State} {p : Word → Word → Bool} {a b : BitVec 5} {o : BitVec 16} {P : Prop}
    (hi : exec i s = .next (s.branchIf p a b o)) (hp : p (s.cx.rg a) (s.cx.rg b) = true ↔ P) :
    let off : Word := BitVec.ofInt 64 (4 * o.toInt)
    (P → s.mayLog (branchItem off) →
      ∃ t, exec i s = .next t ∧ Passed (s.logged (branchItem off)) t ((s.logged (branchItem off)).cx.pc + off))
    ∧ (¬P → ∃ t, exec i s = .next t ∧ Passed s t (s.cx.pc + 4#64)) := by
  rw [hi, State.branchIf, wordOffset_eq]
  constructor
  · intro holds hlog
    exact ⟨_, by rw [if_pos (hp.2 holds)], s.takeBranch_passed _ hlog⟩
  · intro fails
    exact ⟨_, by rw [if_neg (mt hp.1 fails)], s.retire_passed 1⟩

/-- What a write of a link register and a jump leave. -/
theorem State.link_wrote (s : State) (d : BitVec 5) (pc : Word) :
    Wrote s ((s.onCx (fun x => x.setG d (x.pc + 4#64))).retireTo pc) d (s.cx.pc + 4#64) 0#5 pc := by
  have h := wrote_of s d (s.cx.pc + 4#64) 0#5 pc
  simpa [State.retireTo, State.onCx, State.cx, orFlags_zero] using h

/-- JAL logs its branch, then writes the link and jumps by its offset (R332). -/
theorem exec_jal_of {s : State} {o : BitVec 26} (hd : s.cx.mayG 31#5 = true) (h : s.mayLog (branchItem (wordOffset 26 o))) :
    let u := s.logged (branchItem (wordOffset 26 o))
    exec (.jal o) s = .next ((u.onCx (fun x => x.setG 31#5 (x.pc + 4#64))).retireTo (u.cx.pc + wordOffset 26 o)) :=
  congrArg Host.Outcome.next ((State.withDest_of _ _ _ hd).trans (State.withLog_of _ _ _ h))

/-- JALR jumps to the value that its source register had before the link was written (R333). -/
theorem exec_jalr_of {s : State} {d a : BitVec 5} (hd : s.cx.mayG d = true) (h : s.mayLog (branchItem (s.cx.rg a - s.cx.pc))) :
    exec (.jalr d a) s =
      .next (((s.logged (branchItem (s.cx.rg a - s.cx.pc))).onCx (fun x => x.setG d (x.pc + 4#64))).retireTo (s.cx.rg a)) :=
  congrArg Host.Outcome.next ((State.withDest_of _ _ _ hd).trans (State.withLog_of _ _ _ h))

/-! ## The statements -/

/-- Settles O1: each instruction writes one result, which is that of its table. -/
theorem integerRegisterResults : Obligations.IntegerRegisterResults := by
  intro d a b
  exact ⟨gives_of_finish (fun _ => addV_eq _ _), gives_of_finish (fun _ => subV_eq _ _),
    gives_of_finish (fun _ => rfl), gives_of_finish (fun _ => rfl), gives_of_finish (fun _ => rfl),
    gives_of_finish (fun _ => shlV_eq _ _), gives_of_finish (fun _ => shrV_eq _ _), gives_of_finish (fun _ => sarV_eq _ _),
    gives_of_finish (fun _ => rotrV_eq _ _), gives_of_finish (fun _ => sltV_eq _ _), gives_of_finish (fun _ => sltuV_eq _ _),
    gives_of_finish (fun _ => minV_eq _ _), gives_of_finish (fun _ => maxV_eq _ _), gives_of_finish (fun _ => minuV_eq _ _),
    gives_of_finish (fun _ => maxuV_eq _ _), gives_of_finish (fun _ => addwV_eq _ _), gives_of_finish (fun _ => subwV_eq _ _),
    gives_of_finish (fun _ => mulV_eq _ _), gives_of_finish (fun _ => mulhV_eq _ _), gives_of_finish (fun _ => mulhuV_eq _ _),
    gives_of_finish (fun _ => bextV_eq _ _), gives_of_finish (fun _ => binsV_eq _ _ _)⟩

/-- Settles O2: each instruction writes one result, which is that of its rule. -/
theorem integerImmediateAndUnaryResults : Obligations.IntegerImmediateAndUnaryResults := by
  constructor
  · intro d a i sh w
    dsimp only
    rw [BitVec.ofNat_toNat 64 i, ← shiftAmount_setWidth sh]
    exact ⟨gives_of_finish (fun _ => addV_signExtend _ _), gives_of_finish (fun _ => rfl), gives_of_finish (fun _ => rfl),
      gives_of_finish (fun _ => rfl), gives_of_finish (fun _ => sltV_signExtend _ _), gives_of_finish (fun _ => sltuV_eq _ _),
      gives_of_finish (fun _ => shlV_eq _ _), gives_of_finish (fun _ => shrV_eq _ _), gives_of_finish (fun _ => sarV_eq _ _),
      gives_of_finish (fun _ => rotrV_eq _ _), gives_of_finish (fun _ => signExtend_shiftLeft i 16), gives_of_finish (fun _ => rfl)⟩
  · intro d a
    exact ⟨gives_count (fun _ => clzV_counts _), gives_count (fun _ => ctzV_counts _), gives_of_finish (fun _ => popcV_eq _),
      gives_of_finish (fun _ => signExtend_low 8 _), gives_of_finish (fun _ => signExtend_low 16 _),
      gives_of_finish (fun _ => signExtend_low 32 _), gives_of_finish (fun _ => setWidth_low 8 _),
      gives_of_finish (fun _ => setWidth_low 16 _), gives_of_finish (fun _ => setWidth_low 32 _)⟩

/-- Settles O5: a branch goes by its comparison, and a jump with a link writes it after its target is read. -/
theorem branchAndJumpResults : Obligations.BranchAndJumpResults := by
  constructor
  · intro a b o s
    exact ⟨branchIf_passed rfl (by simp), branchIf_passed rfl (by simp), branchIf_passed rfl (by simp [BitVec.slt_iff_toInt_lt]),
      branchIf_passed rfl (by simp [BitVec.slt_eq_decide]), branchIf_passed rfl (by simp [BitVec.ult_iff_toNat_lt]),
      branchIf_passed rfl (by simp [BitVec.ult_eq_decide])⟩
  · intro d a o s
    dsimp only
    rw [← wordOffset_eq]
    refine ⟨fun hlog => ?jmp, fun hd hlog => ?jal, fun hlog => ?jr, fun hd hlog => ?jalr⟩
    case jmp => exact ⟨_, rfl, s.takeBranch_passed _ hlog⟩
    case jal => exact ⟨_, exec_jal_of hd hlog, State.link_wrote _ _ _⟩
    case jr => exact ⟨_, congrArg Host.Outcome.next (State.withLog_of _ _ _ hlog), State.retireTo_passed _ _⟩
    case jalr => exact ⟨_, exec_jalr_of hd hlog, State.link_wrote _ _ _⟩

end Sys2Proof.Machine
end
